-- ==== Sys2Proof/Word.lean ====
section
/-! DEFINITION. The word types of the part: a 32-bit word (a register, a g register, a flit payload, R13),
a byte, a 64-bit program word (R104) and a 256-bit vector register. -/
namespace Sys2Proof

/-- A byte of any memory (R9). -/
abbrev Byte := BitVec 8

/-- A 32-bit word: every register (R13), every g register, every flit payload. -/
abbrev Word := BitVec 32

/-- A 64-bit word: a program word (R104). -/
abbrev DWord := BitVec 64

/-- A vector register: eight 32-bit lanes (R85). -/
abbrev VecReg := BitVec 256

end Sys2Proof
end

