-- ==== Sys2Proof/Syntax.lean ====
section
/-! DEFINITION. The commands of the part: one constructor per row of the opcode table, with the operands that come from outside. -/
namespace Sys2Proof

/-- Who makes a register access: the PF of a HED, a VF of a HED, or the Steward (R556, R625). -/
inductive Fn where
  | pf (h : Fin 4)
  | vf (h : Fin 4) (k : Fin 4)
  | steward
deriving DecidableEq, Repr

/-- Who makes a rim access of a MED window (R286, R288, R289). -/
inductive RimMaster where
  | dma (h : Fin 4) (b : Option (Fin 16))
  | pcie (f : Fn)
  | lexicon (h : Fin 4) (b : Fin 16)
  | steward
deriving DecidableEq, Repr

/-- A schedule entry (R317): a device entry or a board's entry. -/
inductive SchedEntry where
  | dev (e : Fin 16)
  | board (b : Fin 16) (e : Fin 8)
deriving DecidableEq, Repr

/-- The consumer of a device DMA read that failed (R565). -/
inductive DmaConsumer where
  | ring (h : Fin 4) (c : Fin 8)
  | load (b : Fin 16)
  | check (b : Fin 16)
  | slate
deriving DecidableEq, Repr

/-- What a card's SFDP table declares (R456): its density in bytes, 4-byte addressing, the bytes of a page program and of a sector
erase, erase suspend and resume, Quad SPI fast read. [DESIGN CHOICE log 62] -/
structure Sfdp where
  density : Nat := 0x20000000
  addr4 : Bool := true
  page : Nat := 256
  sector : Nat := 65536
  suspend : Bool := true
  quad : Bool := true
deriving DecidableEq, Repr

/-- The commands, one per row of the opcode table, in its order. Operands: x, y a logical brick (R10); t a tcyc of the brick's field;
b a board, h a HED, m a MED, c a text channel, f the accessor; the others are data from outside the step. -/
inductive Instr where
  /-- REGISTER_WRITE (R14). -/
  | registerWrite (f : Fn) (addr : Nat) (wide : Bool) (v : BitVec 64) (poison : Bool)
  /-- COUNTER_LO_READ (R625): a read of a counter's LO register; at another address, of the register there. -/
  | counterLoRead (f : Fn) (addr : Nat) (wide : Bool)
  /-- BRK_PMEM_LO_READ (R81). -/
  | brkPmemLoRead (f : Fn) (ap : Fin 16)
  /-- BRK_PMEM_HI_READ (R81). -/
  | brkPmemHiRead (f : Fn) (ap : Fin 16)
  /-- BRK_PMEM_LO_WRITE (R81). -/
  | brkPmemLoWrite (f : Fn) (ap : Fin 16) (v : Word)
  /-- BRK_PMEM_HI_WRITE (R81). -/
  | brkPmemHiWrite (f : Fn) (ap : Fin 16) (v : Word)
  /-- BRK_SRAM_DATA_READ (R82). -/
  | brkSramDataRead (f : Fn) (ap : Fin 16) (t : Nat)
  /-- BRK_SRAM_DATA_WRITE (R82). -/
  | brkSramDataWrite (f : Fn) (ap : Fin 16) (t : Nat) (v : Word)
  /-- IDENT_GRID_SEL (R50). -/
  | identGridSel (f : Fn) (v : Word)
  /-- BRK_RT_SEL (R206). -/
  | brkRtSel (f : Fn) (ap : Fin 16) (v : Word)
  /-- BRK_ST_SEL (R252). -/
  | brkStSel (f : Fn) (ap : Fin 16) (v : Word)
  /-- BRK_EQ_SEL (R348). -/
  | brkEqSel (f : Fn) (ap : Fin 16) (v : Word)
  /-- BRK_CC_SEL (R454). -/
  | brkCcSel (f : Fn) (ap : Fin 16) (v : Word)
  /-- BRK_RPT_POS_READ (R141). -/
  | brkRptPosRead (f : Fn) (ap : Fin 16) (n : Fin 4)
  /-- BRD_BAR_SEL (R323). -/
  | brdBarSel (f : Fn) (b : Fin 16) (v : Word)
  /-- MED_FLT_SEL (R296). -/
  | medFltSel (f : Fn) (m : Fin 8) (b : Fin 16) (v : Word)
  /-- RIM_PATH_SEL (R297). -/
  | rimPathSel (f : Fn) (v : Word)
  /-- CLK_FIELD_SEL (R530). -/
  | clkFieldSel (f : Fn) (v : Word)
  /-- PWR_FIELD_SEL (R552). -/
  | pwrFieldSel (f : Fn) (v : Word)
  /-- FAULT_QUAR_SEL (R628). -/
  | faultQuarSel (f : Fn) (v : Word)
  /-- STESY_LSEL (R607). -/
  | stesyLsel (f : Fn) (h : Fin 4) (k : Fin 4) (v : Word)
  /-- STESY_CSEL (R608). -/
  | stesyCsel (f : Fn) (h : Fin 4) (v : Word)
  /-- STESY_FSEL (R608). -/
  | stesyFsel (f : Fn) (h : Fin 4) (v : Word)
  /-- GW_SSEL (R391). -/
  | gwSsel (f : Fn) (h : Fin 4) (c : Fin 8) (v : Word)
  /-- TILEWIN_XY_WRITE (R562). -/
  | tilewinXyWrite (f : Fn) (v : Word)
  /-- SLATE_WINDOW_READ (R481). -/
  | slateWindowRead (f : Fn) (ofs : Nat)
  /-- MED_CPL_READ (R295). -/
  | medCplRead (f : Fn) (m : Fin 8) (b : Fin 16)
  /-- DISPATCH (R57). -/
  | dispatch (x : Fin 1104) (y : Fin 560) (t : Nat)
  /-- MOV (R116). -/
  | mov (x : Fin 1104) (y : Fin 560) (t : Nat)
  /-- ADD (R118). -/
  | add (x : Fin 1104) (y : Fin 560) (t : Nat)
  /-- SUB (R118). -/
  | sub (x : Fin 1104) (y : Fin 560) (t : Nat)
  /-- MUL (R118). -/
  | mul (x : Fin 1104) (y : Fin 560) (t : Nat)
  /-- MULH (R116). -/
  | mulh (x : Fin 1104) (y : Fin 560) (t : Nat)
  /-- MULHU (R116). -/
  | mulhu (x : Fin 1104) (y : Fin 560) (t : Nat)
  /-- AND (R116). -/
  | and (x : Fin 1104) (y : Fin 560) (t : Nat)
  /-- OR (R116). -/
  | or (x : Fin 1104) (y : Fin 560) (t : Nat)
  /-- XOR (R116). -/
  | xor (x : Fin 1104) (y : Fin 560) (t : Nat)
  /-- ANDN (R116). -/
  | andn (x : Fin 1104) (y : Fin 560) (t : Nat)
  /-- SHL (R116). -/
  | shl (x : Fin 1104) (y : Fin 560) (t : Nat)
  /-- SHR (R116). -/
  | shr (x : Fin 1104) (y : Fin 560) (t : Nat)
  /-- SRA (R116). -/
  | sra (x : Fin 1104) (y : Fin 560) (t : Nat)
  /-- ROTL (R116). -/
  | rotl (x : Fin 1104) (y : Fin 560) (t : Nat)
  /-- MIN (R116). -/
  | min (x : Fin 1104) (y : Fin 560) (t : Nat)
  /-- MAX (R116). -/
  | max (x : Fin 1104) (y : Fin 560) (t : Nat)
  /-- MINU (R116). -/
  | minu (x : Fin 1104) (y : Fin 560) (t : Nat)
  /-- MAXU (R116). -/
  | maxu (x : Fin 1104) (y : Fin 560) (t : Nat)
  /-- CLZ (R116). -/
  | clz (x : Fin 1104) (y : Fin 560) (t : Nat)
  /-- POPC (R116). -/
  | popc (x : Fin 1104) (y : Fin 560) (t : Nat)
  /-- BFX (R117). -/
  | bfx (x : Fin 1104) (y : Fin 560) (t : Nat)
  /-- BFI (R117). -/
  | bfi (x : Fin 1104) (y : Fin 560) (t : Nat)
  /-- SEL (R119). -/
  | sel (x : Fin 1104) (y : Fin 560) (t : Nat)
  /-- CMPEQ (R120). -/
  | cmpeq (x : Fin 1104) (y : Fin 560) (t : Nat)
  /-- CMPNE (R120). -/
  | cmpne (x : Fin 1104) (y : Fin 560) (t : Nat)
  /-- CMPLT (R120). -/
  | cmplt (x : Fin 1104) (y : Fin 560) (t : Nat)
  /-- CMPLE (R120). -/
  | cmple (x : Fin 1104) (y : Fin 560) (t : Nat)
  /-- CMPLTU (R120). -/
  | cmpltu (x : Fin 1104) (y : Fin 560) (t : Nat)
  /-- CMPLEU (R120). -/
  | cmpleu (x : Fin 1104) (y : Fin 560) (t : Nat)
  /-- TSTNZ (R120). -/
  | tstnz (x : Fin 1104) (y : Fin 560) (t : Nat)
  /-- PAND (R120). -/
  | pand (x : Fin 1104) (y : Fin 560) (t : Nat)
  /-- POR (R120). -/
  | por (x : Fin 1104) (y : Fin 560) (t : Nat)
  /-- PXOR (R120). -/
  | pxor (x : Fin 1104) (y : Fin 560) (t : Nat)
  /-- PNULL (R121). -/
  | pnull (x : Fin 1104) (y : Fin 560) (t : Nat)
  /-- PGET (R120). -/
  | pget (x : Fin 1104) (y : Fin 560) (t : Nat)
  /-- PPUT (R120). -/
  | pput (x : Fin 1104) (y : Fin 560) (t : Nat)
  /-- NOP (R125). -/
  | nop (x : Fin 1104) (y : Fin 560) (t : Nat)
  /-- REPI (R127). -/
  | repi (x : Fin 1104) (y : Fin 560) (t : Nat)
  /-- REPG (R68). -/
  | repg (x : Fin 1104) (y : Fin 560) (t : Nat)
  /-- MARK (R129). -/
  | mark (x : Fin 1104) (y : Fin 560) (t : Nat)
  /-- HALT (R69). -/
  | halt (x : Fin 1104) (y : Fin 560) (t : Nat)
  /-- LDW (R123). -/
  | ldw (x : Fin 1104) (y : Fin 560) (t : Nat)
  /-- STW (R123). -/
  | stw (x : Fin 1104) (y : Fin 560) (t : Nat)
  /-- SEND (R132). -/
  | send (x : Fin 1104) (y : Fin 560) (t : Nat)
  /-- SENDP (R132). -/
  | sendp (x : Fin 1104) (y : Fin 560) (t : Nat)
  /-- ARRIVE (R300). -/
  | arrive (x : Fin 1104) (y : Fin 560) (t : Nat)
  /-- WAITB (R302). -/
  | waitb (x : Fin 1104) (y : Fin 560) (t : Nat)
  /-- CASTLE (R236). -/
  | castle (x : Fin 1104) (y : Fin 560) (t : Nat)
  /-- VFADD (R149). -/
  | vfadd (x : Fin 1104) (y : Fin 560) (t : Nat)
  /-- VFSUB (R149). -/
  | vfsub (x : Fin 1104) (y : Fin 560) (t : Nat)
  /-- VFMUL (R149). -/
  | vfmul (x : Fin 1104) (y : Fin 560) (t : Nat)
  /-- VFMA (R149). -/
  | vfma (x : Fin 1104) (y : Fin 560) (t : Nat)
  /-- VFMIN (R149). -/
  | vfmin (x : Fin 1104) (y : Fin 560) (t : Nat)
  /-- VFMAX (R149). -/
  | vfmax (x : Fin 1104) (y : Fin 560) (t : Nat)
  /-- VFABS (R149). -/
  | vfabs (x : Fin 1104) (y : Fin 560) (t : Nat)
  /-- VFNEG (R149). -/
  | vfneg (x : Fin 1104) (y : Fin 560) (t : Nat)
  /-- VFCMPEQ (R149). -/
  | vfcmpeq (x : Fin 1104) (y : Fin 560) (t : Nat)
  /-- VFCMPLT (R149). -/
  | vfcmplt (x : Fin 1104) (y : Fin 560) (t : Nat)
  /-- VFCMPLE (R149). -/
  | vfcmple (x : Fin 1104) (y : Fin 560) (t : Nat)
  /-- VEXP2 (R150). -/
  | vexp2 (x : Fin 1104) (y : Fin 560) (t : Nat)
  /-- VLOG2 (R150). -/
  | vlog2 (x : Fin 1104) (y : Fin 560) (t : Nat)
  /-- VRCP (R150). -/
  | vrcp (x : Fin 1104) (y : Fin 560) (t : Nat)
  /-- VRSQRT (R150). -/
  | vrsqrt (x : Fin 1104) (y : Fin 560) (t : Nat)
  /-- VMOV (R151). -/
  | vmov (x : Fin 1104) (y : Fin 560) (t : Nat)
  /-- VADD (R152). -/
  | vadd (x : Fin 1104) (y : Fin 560) (t : Nat)
  /-- VSUB (R152). -/
  | vsub (x : Fin 1104) (y : Fin 560) (t : Nat)
  /-- VMUL (R152). -/
  | vmul (x : Fin 1104) (y : Fin 560) (t : Nat)
  /-- VAND (R151). -/
  | vand (x : Fin 1104) (y : Fin 560) (t : Nat)
  /-- VOR (R151). -/
  | vor (x : Fin 1104) (y : Fin 560) (t : Nat)
  /-- VXOR (R151). -/
  | vxor (x : Fin 1104) (y : Fin 560) (t : Nat)
  /-- VANDN (R151). -/
  | vandn (x : Fin 1104) (y : Fin 560) (t : Nat)
  /-- VSHL (R152). -/
  | vshl (x : Fin 1104) (y : Fin 560) (t : Nat)
  /-- VSHR (R152). -/
  | vshr (x : Fin 1104) (y : Fin 560) (t : Nat)
  /-- VSRA (R152). -/
  | vsra (x : Fin 1104) (y : Fin 560) (t : Nat)
  /-- VMIN (R152). -/
  | vmin (x : Fin 1104) (y : Fin 560) (t : Nat)
  /-- VMAX (R152). -/
  | vmax (x : Fin 1104) (y : Fin 560) (t : Nat)
  /-- VCMPEQ (R151). -/
  | vcmpeq (x : Fin 1104) (y : Fin 560) (t : Nat)
  /-- VCMPLT (R152). -/
  | vcmplt (x : Fin 1104) (y : Fin 560) (t : Nat)
  /-- VSEL (R152). -/
  | vsel (x : Fin 1104) (y : Fin 560) (t : Nat)
  /-- VCVT (R154). -/
  | vcvt (x : Fin 1104) (y : Fin 560) (t : Nat)
  /-- VCVT4 (R155). -/
  | vcvt4 (x : Fin 1104) (y : Fin 560) (t : Nat)
  /-- VRED (R156). -/
  | vred (x : Fin 1104) (y : Fin 560) (t : Nat)
  /-- VPERM (R157). -/
  | vperm (x : Fin 1104) (y : Fin 560) (t : Nat)
  /-- VEXT (R157). -/
  | vext (x : Fin 1104) (y : Fin 560) (t : Nat)
  /-- VLANE (R157). -/
  | vlane (x : Fin 1104) (y : Fin 560) (t : Nat)
  /-- VTEST (R157). -/
  | vtest (x : Fin 1104) (y : Fin 560) (t : Nat)
  /-- VLD (R159). -/
  | vld (x : Fin 1104) (y : Fin 560) (t : Nat)
  /-- VST (R159). -/
  | vst (x : Fin 1104) (y : Fin 560) (t : Nat)
  /-- VINS (R160). -/
  | vins (x : Fin 1104) (y : Fin 560) (t : Nat)
  /-- VSEND (R161). -/
  | vsend (x : Fin 1104) (y : Fin 560) (t : Nat)
  /-- TMV (R166). -/
  | tmv (x : Fin 1104) (y : Fin 560) (t : Nat)
  /-- TMMA (R167). -/
  | tmma (x : Fin 1104) (y : Fin 560) (t : Nat)
  /-- TLDX (R168). -/
  | tldx (x : Fin 1104) (y : Fin 560) (t : Nat)
  /-- TSCL (R168). -/
  | tscl (x : Fin 1104) (y : Fin 560) (t : Nat)
  /-- TDRV (R169). -/
  | tdrv (x : Fin 1104) (y : Fin 560) (t : Nat)
  /-- TZERO (R170). -/
  | tzero (x : Fin 1104) (y : Fin 560) (t : Nat)
  /-- TSETR (R170). -/
  | tsetr (x : Fin 1104) (y : Fin 560) (t : Nat)
  /-- ACCUM_UPDATE_COMPLETE (R172). -/
  | accumUpdateComplete (x : Fin 1104) (y : Fin 560) (t : Nat)
  /-- SBASE (R224). -/
  | sbase (x : Fin 1104) (y : Fin 560) (t : Nat)
  /-- SLOOP (R225). -/
  | sloop (x : Fin 1104) (y : Fin 560) (t : Nat)
  /-- SSTRIDE (R224). -/
  | sstride (x : Fin 1104) (y : Fin 560) (t : Nat)
  /-- SBANK (R226). -/
  | sbank (x : Fin 1104) (y : Fin 560) (t : Nat)
  /-- EMIT (R227). -/
  | emit (x : Fin 1104) (y : Fin 560) (t : Nat)
  /-- LAND (R228). -/
  | land (x : Fin 1104) (y : Fin 560) (t : Nat)
  /-- SGATHER (R230). -/
  | sgather (x : Fin 1104) (y : Fin 560) (t : Nat)
  /-- SFAR (R238). -/
  | sfar (x : Fin 1104) (y : Fin 560) (t : Nat)
  /-- SFAR_FLIT (R238). -/
  | sfarFlit (x : Fin 1104) (y : Fin 560) (t : Nat) (k : Fin 4)
  /-- SGATE (R231). -/
  | sgate (x : Fin 1104) (y : Fin 560) (t : Nat)
  /-- SSTOP (R222). -/
  | sstop (x : Fin 1104) (y : Fin 560) (t : Nat)
  /-- FILL_ACTION (R235). -/
  | fillAction (x : Fin 1104) (y : Fin 560) (t : Nat) (k : Fin 4)
  /-- FLIT_FORWARD (R187). -/
  | flitForward (x : Fin 1104) (y : Fin 560) (t : Nat) (e0 : Fin 3) (e1 : Fin 3)
  /-- CREDIT_RETURN (R185). -/
  | creditReturn (x : Fin 1104) (y : Fin 560) (t : Nat) (e : Fin 3)
  /-- TIE_TRANSFER_SEND (R197). -/
  | tieTransferSend (x : Fin 1104) (y : Fin 560) (d : Fin 4) (t : Nat)
  /-- TIE_TRANSFER_RECEIVE (R198). -/
  | tieTransferReceive (x : Fin 1104) (y : Fin 560) (d : Fin 4) (err : BitVec 50)
  /-- TIE_RETURN_WORD (R199). -/
  | tieReturnWord (x : Fin 1104) (y : Fin 560) (d : Fin 4) (med : Bool) (t : Nat) (e : Fin 3)
  /-- TIE_LANDING_MOVE (R197). -/
  | tieLandingMove (x : Fin 1104) (y : Fin 560) (d : Fin 4) (sl : Fin 32) (t : Nat)
  /-- EDGE_FLIT_ACCEPT (R202). -/
  | edgeFlitAccept (x : Fin 1104) (south : Bool) (lane : Fin 2) (err : BitVec 50) (now : Nat)
  /-- EDGE_INJECT_RELEASE (R203). -/
  | edgeInjectRelease (x : Fin 1104) (south : Bool) (lane : Fin 2) (t : Nat)
  /-- EDGE_LANDING_MOVE (R203). -/
  | edgeLandingMove (x : Fin 1104) (south : Bool) (sl : Fin 32) (t : Nat)
  /-- RECORD_ACCEPT (R265). -/
  | recordAccept (m : Fin 8)
  /-- ENGINE_BEAT (R277). -/
  | engineBeat (m : Fin 8) (e : Fin 4)
  /-- COMPLETION_ISSUE (R279). -/
  | completionIssue (m : Fin 8) (e : Fin 4) (b : Fin 16) (slot : Fin 16)
  /-- DESC_GO (R275). -/
  | descGo (f : Fn) (m : Fin 8) (b : Fin 16) (v : Word)
  /-- RESUME (R281). -/
  | resume (f : Fn) (m : Fin 8) (b : Fin 16) (v : Word)
  /-- PT_COMMIT (R273). -/
  | ptCommit (f : Fn) (m : Fin 8) (b : Fin 16) (v : Word)
  /-- EGRESS_FORWARD (R267). -/
  | egressForward (x : Fin 1104) (south : Bool) (lane : Fin 2) (slot : Fin 32)
  /-- STESY_EGRESS_FORWARD (R592). -/
  | stesyEgressForward (x : Fin 1104) (south : Bool) (lane : Fin 2) (slot : Fin 32)
  /-- WAFER_WINDOW_WRITE (R268). -/
  | waferWindowWrite (mst : RimMaster) (m : Fin 8) (ofs : Nat) (recs : List (BitVec 64))
  /-- DRAM_WINDOW_ACCESS (R289). -/
  | dramWindowAccess (mst : RimMaster) (m : Fin 8) (ofs : Nat) (wr : Option (List Byte)) (len : Nat)
  /-- SCRUB (R259). -/
  | scrub (m : Fin 8) (word : Nat)
  /-- ENGINE_QUIESCENT (R285). -/
  | engineQuiescent (m : Fin 8) (e : Fin 4) (b : Fin 16)
  /-- RIM_BURST (R290). -/
  | rimBurst (mst : Fin 21) (tgt : Fin 18) (ctx : Option (Fin 16)) (ofs : Nat) (beats : Nat) (be : BitVec 8) (wr : Option (List Byte)) (waiting : List (Fin 21)) (e : Fin 3)
  /-- RIM_RESPONSE (R291). -/
  | rimResponse (tgt : Fin 18) (mst : Fin 21) (e : Fin 3)
  /-- EQ_TAKE (R329). -/
  | eqTake (x : Fin 1104) (y : Fin 560) (t : Nat)
  /-- EQ_NOTICE (R336). -/
  | eqNotice (x : Fin 1104) (y : Fin 560) (t : Nat) (q : Fin 4)
  /-- RING_REPLAY (R331). -/
  | ringReplay (x : Fin 1104) (y : Fin 560) (t : Nat) (q : Fin 4)
  /-- SCATTER_BEGIN (R333). -/
  | scatterBegin (x : Fin 1104) (y : Fin 560) (t : Nat)
  /-- SCATTER_FLIT (R333). -/
  | scatterFlit (x : Fin 1104) (y : Fin 560) (t : Nat)
  /-- ARRIVAL_COUNTED (R301). -/
  | arrivalCounted (b : Fin 16) (n : Nat) (t : Nat)
  /-- RELEASE_RECEIVED (R303). -/
  | releaseReceived (x : Fin 1104) (y : Fin 560) (k : Fin 64) (t : Nat)
  /-- STALEMATE_DECLARE (R309). -/
  | stalemateDeclare (b : Fin 16)
  /-- STALEMATE_LIST_READY (R310). -/
  | stalemateListReady (b : Fin 16)
  /-- TIME_CTL_SET (R315). -/
  | timeCtlSet (f : Fn) (v : Word)
  /-- TIME_SET_APPLY (R315). -/
  | timeSetApply
  /-- SCHEDULE_ARM (R317). -/
  | scheduleArm (f : Fn) (ent : SchedEntry) (v : Word)
  /-- SCHEDULE_CANCEL (R319). -/
  | scheduleCancel (f : Fn) (ent : SchedEntry) (v : Word)
  /-- BOARD_START (R318). -/
  | boardStart (b : Fin 16) (e : Fin 8)
  /-- STREAM_START (R317). -/
  | streamStart (b : Fin 16) (e : Fin 8)
  /-- BARRIER_GATE (R317). -/
  | barrierGate (b : Fin 16) (e : Fin 8)
  /-- OP_CHANGE (R535). -/
  | opChange (e : Fin 16)
  /-- LOAD (R418). -/
  | load (f : Fn) (b : Fin 16)
  /-- LOAD_CHECK_PASS_END (R418). -/
  | loadCheckPassEnd (b : Fin 16) (list : Option (List Byte)) (img : List Byte) (pmap : Option (List Byte))
  /-- LOAD_WRITE_PASS_END (R418). -/
  | loadWritePassEnd (b : Fin 16) (img : List Byte)
  /-- START (R421). -/
  | start (f : Fn) (b : Fin 16)
  /-- FIELD_START (R421). -/
  | fieldStart (b : Fin 16) (fld : Fin 84) (t : Nat)
  /-- DRAIN (R422). -/
  | drain (f : Fn) (b : Fin 16)
  /-- DRAIN_HARD (R422). -/
  | drainHard (f : Fn) (b : Fin 16)
  /-- DRAIN_INPUTS_END (R422). -/
  | drainInputsEnd (b : Fin 16)
  /-- QUIESCENCE (R423). -/
  | quiescence (b : Fin 16)
  /-- DRAIN_LIMIT (R424). -/
  | drainLimit (b : Fin 16)
  /-- RESET (R425). -/
  | reset (f : Fn) (b : Fin 16)
  /-- RESET_COMPLETE (R425). -/
  | resetComplete (b : Fin 16)
  /-- FAULT_BOARD_RESET (R618). -/
  | faultBoardReset (b : Fin 16)
  /-- CHECK (R450). -/
  | check (f : Fn) (b : Fin 16)
  /-- CHECK_END (R452). -/
  | checkEnd (b : Fin 16) (rpt : List Byte)
  /-- TXT_DB (R567). -/
  | txtDb (f : Fn) (h : Fin 4) (c : Fin 8) (v : Word)
  /-- CPL_DB (R571). -/
  | cplDb (f : Fn) (h : Fin 4) (c : Fin 8) (v : Word)
  /-- RING_ENABLE (R572). -/
  | ringEnable (f : Fn) (h : Fin 4) (c : Fin 8) (v : Word)
  /-- RING_DISABLE (R572). -/
  | ringDisable (f : Fn) (h : Fin 4) (c : Fin 8) (v : Word)
  /-- RING_ENTRY_FETCHED (R567). -/
  | ringEntryFetched (h : Fin 4) (c : Fin 8) (entry : List Byte) (data : List Byte)
  /-- ENCODE_PRETOKEN (R361). -/
  | encodePretoken (h : Fin 4) (c : Fin 8)
  /-- ADMIT_REQUEST (R26). -/
  | admitRequest (h : Fin 4) (c : Fin 8)
  /-- ISSUE_WORD (R364). -/
  | issueWord (h : Fin 4) (c : Fin 8)
  /-- MASK_FLITS_WRITE (R387). -/
  | maskFlitsWrite (h : Fin 4) (c : Fin 8)
  /-- RETURN_TAKE (R24). -/
  | returnTake (b : Fin 16)
  /-- FINAL_COMPLETION (R29). -/
  | finalCompletion (h : Fin 4) (c : Fin 8)
  /-- CANCEL (R371). -/
  | cancel (f : Fn) (h : Fin 4) (c : Fin 8) (v : Word)
  /-- HOLDOFF_EXPIRY (R574). -/
  | holdoffExpiry (h : Fin 4) (c : Fin 8)
  /-- FLR_VF (R575). -/
  | flrVf (h : Fin 4) (k : Fin 4)
  /-- FLR_PF (R575). -/
  | flrPf (h : Fin 4)
  /-- PERST_ASSERT (R493). -/
  | perstAssert (h : Fin 4)
  /-- HOT_RESET (R575). -/
  | hotReset (h : Fin 4)
  /-- LINK_DOWN (R575). -/
  | linkDown (h : Fin 4)
  /-- BUS_MASTER_ENABLE (R558). -/
  | busMasterEnable (f : Fn) (on : Bool)
  /-- UNSUPPORTED_REQUEST (R564). -/
  | unsupportedRequest (f : Fn)
  /-- DMA_READ_FAILED (R565). -/
  | dmaReadFailed (cons : DmaConsumer)
  /-- OPEN (R475). -/
  | slateOpen (f : Fn) (v : Word)
  /-- ERASE (R475). -/
  | slateErase (f : Fn) (v : Word)
  /-- PROGRAM (R475). -/
  | slateProgram (f : Fn) (v : Word) (data : Option (List Byte))
  /-- CLOSE (R475). -/
  | slateClose (f : Fn) (v : Word)
  /-- ABORT (R475). -/
  | slateAbort (f : Fn) (v : Word)
  /-- JOURNAL (R475). -/
  | slateJournal (f : Fn) (v : Word)
  /-- PAGE_PROGRAM_DONE (R479). -/
  | pageProgramDone (ok : Bool)
  /-- SECTOR_ERASE_DONE (R479). -/
  | sectorEraseDone (ok : Bool)
  /-- DEFECT_COMMIT (R477). -/
  | defectCommit
  /-- CARD_REMOVAL (R483). -/
  | cardRemoval
  /-- COLD_START (R490). -/
  | coldStart
  /-- MODULE_RESET (R491). -/
  | moduleReset
  /-- POWER_LOSS (R486). -/
  | powerLoss
  /-- RESTART (R490). -/
  | restart (f : Fn) (v : Word)
  /-- VIGIL_LOSS (R495). -/
  | vigilLoss
  /-- VSTBY_LOSS (R494). -/
  | vstbyLoss
  /-- VSTBY_RETURN (R494). -/
  | vstbyReturn
  /-- BOOT (R487). -/
  | boot
  /-- BOOT_STEP_END (R487). -/
  | bootStepEnd (ok : Bool)
  /-- FLOW_OK_RISE (R487). -/
  | flowOkRise
  /-- CELL_CHECK (R501). -/
  | cellCheck (mv : Nat)
  /-- REF_GOOD (R510). -/
  | refGood (r : Fin 2)
  /-- REF_LOST (R510). -/
  | refLost (r : Fin 2)
  /-- REF_SWITCH_REQUEST (R513). -/
  | refSwitchRequest (f : Fn) (v : Word)
  /-- SWITCH_CLEAN (R514). -/
  | switchClean
  /-- SWITCH_FORCE (R515). -/
  | switchForce (edges : Nat)
  /-- MESH_LOCKED (R505). -/
  | meshLocked (fld : Fin 84)
  /-- REPHASE_END (R517). -/
  | rephaseEnd (fld : Fin 84)
  /-- GOVERNOR_LOOP (R538). -/
  | governorLoop (p : Nat) (pf : List Nat)
  /-- TARGET_WRITE (R534). -/
  | targetWrite (f : Fn) (v : Word)
  /-- M_STEP (R536). -/
  | mStep (fld : Fin 84)
  /-- VOLTAGE_READ (R536). -/
  | voltageRead (fld : Fin 84) (mv : Nat)
  /-- CONFIRM_TIMEOUT (R537). -/
  | confirmTimeout (fld : Fin 84)
  /-- DROOP_TRIGGER (R540). -/
  | droopTrigger (fld : Fin 84)
  /-- STRETCH_STEP (R540). -/
  | stretchStep (fld : Fin 84)
  /-- THERMAL_SAMPLE (R541). -/
  | thermalSample (sens : Fin 360) (tc : Int)
  /-- FLOW_OK_LOW (R542). -/
  | flowOkLow
  /-- RAIL_ALERT (R542). -/
  | railAlert
  /-- BACKSTOP (R539). -/
  | backstop (w : Nat)
  /-- STEWARD_GO (R545). -/
  | stewardGo (f : Fn) (v : Word)
  /-- WATCHDOG_EXPIRY (R545). -/
  | watchdogExpiry
  /-- FAULT_STEWARD (R545). -/
  | faultSteward
  /-- STEWARD_RETURN (R546). -/
  | stewardReturn
  /-- FLOOR_ENGAGE (R547). -/
  | floorEngage
  /-- COOLANT_REQUEST (R544). -/
  | coolantRequest (ack : Bool)
  /-- TRAY_READ (R640). -/
  | trayRead (flow : Option Nat) (tin : Option Int)
  /-- SUB_INTERVAL_END (R549). -/
  | subIntervalEnd
  /-- ENERGY_PUBLISH (R550). -/
  | energyPublish (meas : List Nat) (edge : Nat)
  /-- CALIBRATION (R550). -/
  | calibration (cur : List Nat)
  /-- ALIGN_LOCK (R583). -/
  | alignLock (h : Fin 4) (k : Fin 4)
  /-- HELLO_SEND (R583). -/
  | helloSend (h : Fin 4) (k : Fin 4)
  /-- HELLO_RECEIVE (R584). -/
  | helloReceive (h : Fin 4) (k : Fin 4) (u : List Byte) (fec : Fin 3) (first : Bool)
  /-- RETRAIN (R589). -/
  | retrain (h : Fin 4) (k : Fin 4)
  /-- RETRAIN_TIMEOUT (R583). -/
  | retrainTimeout (h : Fin 4) (k : Fin 4)
  /-- UNIT_SEND (R587). -/
  | unitSend (h : Fin 4) (k : Fin 4)
  /-- DATA_UNIT_RECEIVE (R588). -/
  | dataUnitReceive (h : Fin 4) (k : Fin 4) (u : List Byte) (fec : Fin 3) (first : Bool)
  /-- LINK_UNIT_RECEIVE (R606). -/
  | linkUnitReceive (h : Fin 4) (k : Fin 4) (u : List Byte) (fec : Fin 3) (first : Bool)
  /-- FLITS_SEND (R593). -/
  | flitsSend (b : Fin 16) (slot : Fin 256)
  /-- CREDIT_UNIT_SEND (R595). -/
  | creditUnitSend (b : Fin 16) (slot : Fin 256)
  /-- INJECTOR_WRITE (R594). -/
  | injectorWrite (b : Fin 16) (slot : Fin 256)
  /-- LOADED_NOTICE (R601). -/
  | loadedNotice (b : Fin 16)
  /-- RECORD_NOTICE (R601). -/
  | recordNotice (b : Fin 16)
  /-- START_NOTICE (R429). -/
  | startNotice (b : Fin 16)
  /-- ARM_NOTICE (R601). -/
  | armNotice (b : Fin 16)
  /-- DRAIN_NOTICE (R430). -/
  | drainNotice (b : Fin 16)
  /-- QUIET_NOTICE (R602). -/
  | quietNotice (b : Fin 16)
  /-- STALEMATE_NOTICE (R430). -/
  | stalemateNotice (b : Fin 16)
  /-- REFUSE_NOTICE (R411). -/
  | refuseNotice (b : Fin 16)
  /-- SIDEBAND_POLL (R619). -/
  | sidebandPoll (fld : Fin 84) (silent : List (Nat × Nat))
  /-- FAULT_REPORT (R612). -/
  | faultReport
  /-- TIMESTAMP_TICK (R312). -/
  | timestampTick
  /-- VIGIL_OSCILLATOR_PERIOD (R313). -/
  | vigilOscillatorPeriod
  /-- STALL_TCYC (R442). -/
  | stallTcyc (x : Fin 1104) (y : Fin 560) (t : Nat) (q : Fin 3)
  /-- STILL_TCYC (R308). -/
  | stillTcyc (b : Fin 16)
  /-- RESULT_RELEASE (R113). -/
  | resultRelease (x : Fin 1104) (y : Fin 560) (t : Nat)
  /-- CARD_INSERTION (R483). -/
  | cardInsertion (card : List (Nat × Byte)) (sfdp : Option Sfdp)
  /-- PERST_DEASSERT (R489). -/
  | perstDeassert (h : Fin 4)
  /-- LINK_TRAINED (R489). -/
  | linkTrained (h : Fin 4) (gen : Fin 6)
  /-- TCK_EDGE (R643). -/
  | tckEdge (rising : Bool) (tms : Bool) (tdi : Bool) (trstn : Bool)
deriving DecidableEq, Repr

end Sys2Proof
end

