-- ==== Sys2Proof/Decode.lean ====
section
/-! DEFINITION. The commands that words spell. The opcode table gives no row any bits: a command is an access, an event or a step
of one of the part's engines, and no word spells it. -/
namespace Sys2Proof

/-- The command that a word spells by the table's bits: none does. [DESIGN CHOICE log 6] -/
def decodeTableWord (_nbits _w : Nat) : Option Instr := none

end Sys2Proof
end

