-- ==== Sys2Proof/Config.lean ====
section
/-! DEFINITION. What one part fixes and the spec leaves open: keys and serial number in fuses and mask ROM, the signature
check, and the free values. None has a body, so nothing can be proved of a value they take. -/
namespace Sys2Proof.Config

/-- Byte n of the sequence of open values (assumption log 3). [DESIGN CHOICE log 3] -/
opaque freeByte : Nat → Byte

/-- Word n of the sequence of open values (assumption log 3). [DESIGN CHOICE log 3] -/
opaque freeWord : Nat → Word

/-- Ed25519 of RFC 8032: key, message, signature (R458, R460, R465). [DESIGN CHOICE log 62] -/
opaque ed25519 : List Byte → List Byte → List Byte → Bool

/-- Falrel's identity key, in HED0's mask ROM (R460). [DESIGN CHOICE log 62] -/
opaque identityKey : List Byte

/-- The module serial in HED0's fuses (R460, R482). [DESIGN CHOICE log 62] -/
opaque moduleSerial : BitVec 64

end Sys2Proof.Config
end

