-- ==== Sys2Proof/Machine/Bits.lean ====
section
/-! DEFINITION. Bit fields, sign extension, byte order (R8, R9): the helpers every unit uses. -/
namespace Sys2Proof.Machine

/-- Field [lo+len-1 : lo] of a word, as a number (R8). -/
def fld {n : Nat} (w : BitVec n) (lo len : Nat) : Nat := (w.toNat >>> lo) % 2 ^ len

/-- Field [lo+len-1 : lo] of a number. -/
def nfld (v lo len : Nat) : Nat := (v >>> lo) % 2 ^ len

/-- Bit i of a word (R8). -/
def bitAt {n : Nat} (w : BitVec n) (i : Nat) : Bool := w.getLsbD i

/-- A Bool as a bit. -/
def b2n (b : Bool) : Nat := if b then 1 else 0

/-- The number whose fields (low bit, width, value) are given; a value is cut to its width. -/
def packNat : List (Nat × Nat × Nat) → Nat
  | [] => 0
  | (lo, len, v) :: r => ((v % 2 ^ len) <<< lo) ||| packNat r

/-- The 32-bit word whose fields (low bit, width, value) are given. -/
def packW (fs : List (Nat × Nat × Nat)) : Word := BitVec.ofNat 32 (packNat fs)

/-- `w` with field [lo+len-1 : lo] replaced by the low bits of `v`. -/
def setFld (w : Word) (lo len v : Nat) : Word :=
  let mask : Word := BitVec.ofNat 32 ((2 ^ len - 1) <<< lo)
  (w &&& ~~~mask) ||| (BitVec.ofNat 32 ((v % 2 ^ len) <<< lo))

/-- The low `bits` bits of `v` read as two's complement. -/
def sx (bits v : Nat) : Int :=
  let u := v % 2 ^ bits
  if u < 2 ^ (bits - 1) then (u : Int) else (u : Int) - (2 ^ bits : Nat)

/-- An integer reduced modulo 2^bits. -/
def wrapNat (bits : Nat) (v : Int) : Nat := (v % ((2 ^ bits : Nat) : Int)).toNat

/-- The 32-bit word of an integer, modulo 2^32. -/
def wrapW (v : Int) : Word := BitVec.ofNat 32 (wrapNat 32 v)

/-- The `n` bytes of a number, least significant first (R9). -/
def bytesLE : Nat → Nat → List Byte
  | 0, _ => []
  | n + 1, v => BitVec.ofNat 8 v :: bytesLE n (v / 256)

/-- The number whose bytes, least significant first, are given (R9). -/
def ofBytesLE : List Byte → Nat
  | [] => 0
  | b :: r => b.toNat + 256 * ofBytesLE r

/-- Every bit outside the fields given (low bit, width) is zero. -/
def onlyFields {n : Nat} (w : BitVec n) (fs : List (Nat × Nat)) : Bool :=
  let mask := fs.foldl (fun m f => m ||| ((2 ^ f.2 - 1) <<< f.1)) 0
  w.toNat ||| mask == mask

end Sys2Proof.Machine
end

