-- ==== Sys2Proof/Machine/Formats.lean ====
section
/-! DEFINITION. Number formats (R84-R98): decoding, the one rounding, encoding, exact arithmetic on decoded values. -/
namespace Sys2Proof.Machine

/-- The formats of R145, in code order. -/
inductive Fmt where
  | fp4 | e4m3 | e5m2 | bf16 | fp16 | fp32 | int4 | int8 | int32
deriving DecidableEq, Repr

/-- The 4-bit format code of R145; codes 0x9-0xF are reserved. -/
def fmtOf : Nat → Option Fmt
  | 0 => some .fp4 | 1 => some .e4m3 | 2 => some .e5m2 | 3 => some .bf16 | 4 => some .fp16
  | 5 => some .fp32 | 6 => some .int4 | 7 => some .int8 | 8 => some .int32 | _ => none

/-- Element width w in bits (R145). -/
def fmtW : Fmt → Nat
  | .fp4 | .int4 => 4
  | .e4m3 | .e5m2 | .int8 => 8
  | .bf16 | .fp16 => 16
  | .fp32 | .int32 => 32

/-- Integer formats. -/
def fmtInt : Fmt → Bool
  | .int4 | .int8 | .int32 => true
  | _ => false

/-- Exponent width, mantissa width and bias (R84's table); zeros for the integer formats. -/
def fmtParams : Fmt → Nat × Nat × Nat
  | .fp4 => (2, 1, 1)
  | .e4m3 => (4, 3, 7)
  | .e5m2 => (5, 2, 15)
  | .bf16 => (8, 7, 127)
  | .fp16 => (5, 10, 15)
  | .fp32 => (8, 23, 127)
  | _ => (0, 0, 0)

/-- The code of the largest finite magnitude (R86). -/
def fmtMax : Fmt → Nat
  | .fp4 => 0x7 | .e4m3 => 0x7E | .e5m2 => 0x7B | .bf16 => 0x7F7F | .fp16 => 0x7BFF | .fp32 => 0x7F7FFFFF
  | _ => 0

/-- The code of +infinity, where the format has one (R86). -/
def fmtInf : Fmt → Option Nat
  | .e5m2 => some 0x7C | .bf16 => some 0x7F80 | .fp16 => some 0x7C00 | .fp32 => some 0x7F800000
  | _ => none

/-- The canonical NaN (R86); FP4 has none. -/
def fmtNan : Fmt → Nat
  | .e4m3 => 0x7F | .e5m2 => 0x7F | .bf16 => 0x7FC0 | .fp16 => 0x7E00 | .fp32 => 0x7FC00000
  | _ => 0

/-- A decoded floating-point value: not a number, an infinity, or (−1)^neg × m × 2^e. -/
inductive FVal where
  | nan
  | inf (neg : Bool)
  | fin (neg : Bool) (m : Nat) (e : Int)
deriving DecidableEq, Repr

/-- The value of a code (R84, R86). -/
def fdec (f : Fmt) (c : Nat) : FVal :=
  let (ew, mw, bias) := fmtParams f
  let s := c.testBit (ew + mw)
  let ex := (c >>> mw) % 2 ^ ew
  let m := c % 2 ^ mw
  let special : Option FVal :=
    match f with
    | .e4m3 => if ex = 15 ∧ m = 7 then some .nan else none
    | .e5m2 | .bf16 | .fp16 | .fp32 =>
      if ex = 2 ^ ew - 1 then some (if m = 0 then .inf s else .nan) else none
    | _ => none
  match special with
  | some v => v
  | none =>
    if ex = 0 then .fin s m (1 - (bias : Int) - mw)
    else .fin s (2 ^ mw + m) ((ex : Int) - bias - mw)

/-- Magnitude m·2^e (a little above it when `sticky`) rounded once to mantissa width mw and least exponent emin, as the
magnitude code (exponent and mantissa fields), unbounded above (R90, R91). `rtz` rounds toward zero, else to nearest,
ties to even. -/
def roundMag (rtz : Bool) (mw : Nat) (emin : Int) (m : Nat) (e : Int) (sticky : Bool) : Nat :=
  if m = 0 then 0 else
  let q0 : Int := e + (Nat.log2 m : Int) - mw
  let q : Int := if q0 < emin then emin else q0
  let mant : Nat :=
    if q ≤ e then m <<< (e - q).toNat
    else
      let sh := (q - e).toNat
      let t := m >>> sh
      let r := m % 2 ^ sh
      let half := 2 ^ (sh - 1)
      if rtz then t
      else if half < r || (r == half && (sticky || t % 2 == 1)) then t + 1 else t
  (q - emin).toNat * 2 ^ mw + mant

/-- The code of a magnitude with a sign. -/
def signCode (f : Fmt) (neg : Bool) (c : Nat) : Nat :=
  if neg then 2 ^ (fmtW f - 1) + c else c

/-- A value encoded into a floating-point format under R93: one rounding, then overflow by mode and SAT; E4M3 and FP4
saturate always. -/
def fenc (f : Fmt) (rtz sat : Bool) (sticky : Bool) : FVal → Nat
  | .nan => fmtNan f
  | .inf s =>
    match fmtInf f with
    | some c => if sat then signCode f s (fmtMax f) else signCode f s c
    | none => signCode f s (fmtMax f)
  | .fin s m e =>
    let (_, mw, bias) := fmtParams f
    let c := roundMag rtz mw (1 - (bias : Int) - mw) m e sticky
    if fmtMax f < c then
      match fmtInf f with
      | some i => if sat || rtz then signCode f s (fmtMax f) else signCode f s i
      | none => signCode f s (fmtMax f)
    else signCode f s c

/-- The signed integer ±m. -/
def sInt (neg : Bool) (m : Nat) : Int := if neg then -(m : Int) else m

/-- An exact value from a signed integer and an exponent; a zero is +0. -/
def finOfInt (v : Int) (e : Int) : FVal := .fin (v < 0) v.natAbs e

/-- The exact sum, with IEEE 754's sign of an exact zero under round to nearest (R87, R96). -/
def fadd : FVal → FVal → FVal
  | .nan, _ => .nan
  | _, .nan => .nan
  | .inf s, .inf t => if s = t then .inf s else .nan
  | .inf s, _ => .inf s
  | _, .inf t => .inf t
  | .fin s m e, .fin t n g =>
    let q := if e ≤ g then e else g
    let v := sInt s (m <<< (e - q).toNat) + sInt t (n <<< (g - q).toNat)
    if v = 0 then .fin (s && t) 0 q else finOfInt v q

/-- Sign inversion. -/
def fneg : FVal → FVal
  | .nan => .nan
  | .inf s => .inf (!s)
  | .fin s m e => .fin (!s) m e

/-- The exact product; an infinity times zero is not a number. -/
def fmul : FVal → FVal → FVal
  | .nan, _ => .nan
  | _, .nan => .nan
  | .inf s, .inf t => .inf (s != t)
  | .inf s, .fin t n _ => if n = 0 then .nan else .inf (s != t)
  | .fin s m _, .inf t => if m = 0 then .nan else .inf (s != t)
  | .fin s m e, .fin t n g => .fin (s != t) (m * n) (e + g)

/-- Order of two values: none if one is not a number; else less, equal (−0 and +0 are equal, R87) or greater. -/
def fcmp : FVal → FVal → Option Ordering
  | .nan, _ => none
  | _, .nan => none
  | .inf s, .inf t => some (if s = t then .eq else if s then .lt else .gt)
  | .inf s, _ => some (if s then .lt else .gt)
  | _, .inf t => some (if t then .gt else .lt)
  | .fin s m e, .fin t n g =>
    let q := if e ≤ g then e else g
    some (compare (sInt s (m <<< (e - q).toNat)) (sInt t (n <<< (g - q).toNat)))

/-- A finite value scaled by 2^k. -/
def fscale (k : Int) : FVal → FVal
  | .fin s m e => .fin s m (e + k)
  | v => v

/-- A value rounded to an integer with the selected mode (R95); none for infinities and NaN. -/
def fround (rtz : Bool) (m : Nat) (e : Int) : Nat :=
  if 0 ≤ e then m <<< e.toNat
  else
    let sh := (-e).toNat
    let t := m >>> sh
    let r := m % 2 ^ sh
    let half := 2 ^ (sh - 1)
    if rtz then t else if half < r || (r == half && t % 2 == 1) then t + 1 else t

/-- An integer saturated to the range of `w` bits, two's complement. -/
def satS (w : Nat) (v : Int) : Int :=
  let lo : Int := -((2 ^ (w - 1) : Nat) : Int)
  let hi : Int := ((2 ^ (w - 1) : Nat) : Int) - 1
  if v < lo then lo else if hi < v then hi else v

/-- An integer saturated to 0 .. 2^w − 1. -/
def satU (w : Nat) (v : Int) : Int :=
  let hi : Int := ((2 ^ w : Nat) : Int) - 1
  if v < 0 then 0 else if hi < v then hi else v

/-- A floating-point value converted into an integer format of `w` bits (R95). -/
def ftoInt (w : Nat) (rtz : Bool) : FVal → Nat
  | .nan => 0
  | .inf s => wrapNat w (satS w (if s then -((2 ^ w : Nat) : Int) else ((2 ^ w : Nat) : Int)))
  | .fin s m e => wrapNat w (satS w (sInt s (fround rtz m e)))

/-- Element `c` converted from one format into another (R92-R95, R154); FP4 as a source carries its scale in `scale`. -/
def fconv (src dst : Fmt) (rtz sat : Bool) (scale : Nat) (c : Nat) : Nat :=
  if src = dst then c
  else if fmtInt src then
    let v := sx (fmtW src) c
    if fmtInt dst then wrapNat (fmtW dst) (satS (fmtW dst) v)
    else fenc dst rtz sat false (finOfInt v 0)
  else
    let v := if src = .fp4 then (if scale = 255 then FVal.nan else fscale ((scale : Int) - 127) (fdec .fp4 c))
             else fdec src c
    if fmtInt dst then ftoInt (fmtW dst) rtz v
    else fenc dst rtz sat false v

/-- Element i of a container in a format of width w (R85). -/
def elemAt (w : Nat) (v i : Nat) : Nat := (v >>> (w * i)) % 2 ^ w

/-- Elements packed from element `i` up (R85). -/
def packElems (w : Nat) : Nat → List Nat → Nat
  | _, [] => 0
  | i, c :: r => ((c % 2 ^ w) <<< (w * i)) ||| packElems w (i + 1) r

/-- An integer square root, bit by bit from bit `b − 1` down. -/
def isqrtGo (n : Nat) : Nat → Nat → Nat
  | 0, r => r
  | b + 1, r => let t := r + 2 ^ b; if t * t ≤ n then isqrtGo n b t else isqrtGo n b r

/-- 1 / (m·2^e), m > 0: 64 or more quotient bits and whether they fall short of the exact value. -/
def recipMag (m : Nat) (e : Int) : Nat × Int × Bool :=
  let k := Nat.log2 m + 64
  (2 ^ k / m, -(k : Int) - e, 2 ^ k % m != 0)

/-- 1 / √(m·2^e), m > 0. -/
def rsqrtMag (m : Nat) (e : Int) : Nat × Int × Bool :=
  let odd := e % 2 != 0
  let m' := if odd then 2 * m else m
  let e' := if odd then e - 1 else e
  let k := Nat.log2 m' + 64
  let q := isqrtGo (2 ^ (2 * k) / m') (k + 1) 0
  (q, -(k : Int) - e' / 2, q * q * m' != 2 ^ (2 * k))

/-- ⌊ln 2 × 2^320⌋. -/
def ln2Fix : Nat := 1480553391661173448385607439722553250922680800745876974795605978609098082859138712941075737848984

/-- The exponential series on a fixed-point argument of 320 bits: `n` terms from term `i` on. -/
def expSeries (x : Nat) : Nat → Nat → Nat → Nat → Nat
  | 0, _, _, acc => acc
  | n + 1, i, term, acc =>
    let t := (term * x) >>> 320
    let t' := t / i
    expSeries x n (i + 1) t' (acc + t')

/-- 2^A for A = (−1)^s·m·2^e that is not an integer, |A| < 256: mantissa, exponent (the exact value lies a little above). [UNVERIFIED log 64] -/
def exp2Mag (s : Bool) (m : Nat) (e : Int) : Nat × Int :=
  let sh := (-e).toNat
  let v : Int := sInt s m
  let i : Int := v / ((2 ^ sh : Nat) : Int)
  let f : Nat := (v % ((2 ^ sh : Nat) : Int)).toNat
  let fx : Nat := if sh ≤ 320 then f <<< (320 - sh) else f >>> (sh - 320)
  let x := (fx * ln2Fix) >>> 320
  (expSeries x 80 1 (2 ^ 320) (2 ^ 320), i - 320)

/-- The binary digits of log2 of a fixed-point number y in [1, 2) of 512 bits, `n` of them. [UNVERIFIED log 64] -/
def log2Digits : Nat → Nat → Nat → Nat
  | 0, _, acc => acc
  | n + 1, y, acc =>
    let z := (y * y) >>> 512
    if 2 ^ 513 ≤ z then log2Digits n (z >>> 1) (2 * acc + 1) else log2Digits n z (2 * acc)

/-- VRCP, VRSQRT, VEXP2 and VLOG2 of one FP32 code (R150). -/
def vrcp (rtz : Bool) (c : Nat) : Nat :=
  match fdec .fp32 c with
  | .nan => fmtNan .fp32
  | .inf s => signCode .fp32 s 0
  | .fin s m e =>
    if m = 0 then signCode .fp32 s 0x7F800000
    else let (q, g, st) := recipMag m e; fenc .fp32 rtz false st (.fin s q g)

/-- VRSQRT of one FP32 code (R150). -/
def vrsqrt (rtz : Bool) (c : Nat) : Nat :=
  match fdec .fp32 c with
  | .nan => fmtNan .fp32
  | .inf s => if s then fmtNan .fp32 else 0
  | .fin s m e =>
    if m = 0 then signCode .fp32 s 0x7F800000
    else if s then fmtNan .fp32
    else let (q, g, st) := rsqrtMag m e; fenc .fp32 rtz false st (.fin false q g)

/-- VEXP2 of one FP32 code (R150). [UNVERIFIED log 64] -/
def vexp2 (rtz : Bool) (c : Nat) : Nat :=
  match fdec .fp32 c with
  | .nan => fmtNan .fp32
  | .inf s => if s then 0 else 0x7F800000
  | .fin s m e =>
    let big := fcmp (.fin false m e) (.fin false 256 0)
    if m = 0 then 0x3F800000
    else if big != some .lt then
      (if s then 0 else fenc .fp32 rtz false false (.fin false 1 256))
    else if 0 ≤ e || m % 2 ^ (-e).toNat = 0 then
      let i : Int := sInt s (if 0 ≤ e then m <<< e.toNat else m >>> (-e).toNat)
      fenc .fp32 rtz false false (.fin false 1 i)
    else let (q, g) := exp2Mag s m e; fenc .fp32 rtz false true (.fin false q g)

/-- VLOG2 of one FP32 code (R150). [UNVERIFIED log 64] -/
def vlog2 (rtz : Bool) (c : Nat) : Nat :=
  match fdec .fp32 c with
  | .nan => fmtNan .fp32
  | .inf s => if s then fmtNan .fp32 else 0x7F800000
  | .fin s m e =>
    if m = 0 then 0xFF800000
    else if s then fmtNan .fp32
    else
      let l := Nat.log2 m
      let ex : Int := e + l
      if m = 2 ^ l then fenc .fp32 rtz false false (finOfInt ex 0)
      else
        let d := log2Digits 160 (m <<< (512 - l)) 0
        let v : Int := ex * ((2 ^ 160 : Nat) : Int) + d
        if 0 ≤ v then fenc .fp32 rtz false true (.fin false v.natAbs (-160))
        else fenc .fp32 rtz false true (.fin true (v.natAbs - 1) (-160))

end Sys2Proof.Machine
end

