-- ==== Sys2Proof/Machine/Isa.lean ====
section
/-! DEFINITION. The 64-bit instruction word: fields, opcodes, the encoding conditions of R104 that the word's own bits
decide, and what each instruction names (registers, ports, slots), by R104-R138 and R142-R170. -/
namespace Sys2Proof.Machine

/-- The instructions of the brick, one per opcode of R116-R170. -/
inductive BOp where
  | mov | add | sub | mul | mulh | mulhu | and | or | xor | andn | shl | shr | sra | rotl | min | max | minu | maxu
  | clz | popc | bfx | bfi | sel
  | cmpeq | cmpne | cmplt | cmple | cmpltu | cmpleu | tstnz | pand | por | pxor | pnull | pget | pput
  | nop | repi | repg | mark | halt
  | ldw | stw
  | send | sendp | arrive | waitb | castle
  | vfadd | vfsub | vfmul | vfma | vfmin | vfmax | vfabs | vfneg | vfcmpeq | vfcmplt | vfcmple
  | vexp2 | vlog2 | vrcp | vrsqrt
  | vmov | vadd | vsub | vmul | vand | vor | vxor | vandn | vshl | vshr | vsra | vmin | vmax | vcmpeq | vcmplt | vsel
  | vcvt | vcvt4 | vred | vperm | vext | vlane | vtest
  | vld | vst | vins | vsend
  | tmv | tmma | tldx | tscl | tdrv | tzero | tsetr
deriving DecidableEq, Repr

/-- The three issue queues. -/
inductive Que where
  | s | v | t
deriving DecidableEq, Repr

/-- Fields of the word (the table of "The instruction word"). -/
def iClass (w : DWord) : Nat := fld w 60 4
def iOp (w : DWord) : Nat := fld w 52 8
def iPN (w : DWord) : Bool := bitAt w 51
def iPSEL (w : DWord) : Nat := fld w 48 3
def iD (w : DWord) : Nat := fld w 42 6
def iA (w : DWord) : Nat := fld w 36 6
def iB (w : DWord) : Nat := fld w 30 6
def iMOD (w : DWord) : Nat := fld w 16 14
def iIMM (w : DWord) : Nat := fld w 0 16
/-- IMM sign-extended to 32 bits. -/
def iSIMM (w : DWord) : Word := wrapW (sx 16 (iIMM w))

/-- The opcode tables of R116, R120, R125, R122, R131, R148, R151, R153, R158, R164; all other codes are reserved. -/
def opOf : Nat → Nat → Option BOp
  | 1, 0x00 => some .mov | 1, 0x01 => some .add | 1, 0x02 => some .sub | 1, 0x03 => some .mul
  | 1, 0x04 => some .mulh | 1, 0x05 => some .mulhu | 1, 0x08 => some .and | 1, 0x09 => some .or
  | 1, 0x0A => some .xor | 1, 0x0B => some .andn | 1, 0x10 => some .shl | 1, 0x11 => some .shr
  | 1, 0x12 => some .sra | 1, 0x13 => some .rotl | 1, 0x18 => some .min | 1, 0x19 => some .max
  | 1, 0x1A => some .minu | 1, 0x1B => some .maxu | 1, 0x20 => some .clz | 1, 0x21 => some .popc
  | 1, 0x22 => some .bfx | 1, 0x23 => some .bfi | 1, 0x30 => some .sel
  | 2, 0x00 => some .cmpeq | 2, 0x01 => some .cmpne | 2, 0x02 => some .cmplt | 2, 0x03 => some .cmple
  | 2, 0x04 => some .cmpltu | 2, 0x05 => some .cmpleu | 2, 0x06 => some .tstnz | 2, 0x10 => some .pand
  | 2, 0x11 => some .por | 2, 0x12 => some .pxor | 2, 0x18 => some .pnull | 2, 0x20 => some .pget
  | 2, 0x21 => some .pput
  | 3, 0x00 => some .nop | 3, 0x10 => some .repi | 3, 0x11 => some .repg | 3, 0x20 => some .mark
  | 3, 0x3F => some .halt
  | 4, 0x00 => some .ldw | 4, 0x01 => some .stw
  | 5, 0x01 => some .send | 5, 0x02 => some .sendp | 5, 0x10 => some .arrive | 5, 0x11 => some .waitb
  | 5, 0x20 => some .castle
  | 6, 0x00 => some .vfadd | 6, 0x01 => some .vfsub | 6, 0x02 => some .vfmul | 6, 0x03 => some .vfma
  | 6, 0x04 => some .vfmin | 6, 0x05 => some .vfmax | 6, 0x08 => some .vfabs | 6, 0x09 => some .vfneg
  | 6, 0x10 => some .vfcmpeq | 6, 0x11 => some .vfcmplt | 6, 0x12 => some .vfcmple | 6, 0x20 => some .vexp2
  | 6, 0x21 => some .vlog2 | 6, 0x22 => some .vrcp | 6, 0x23 => some .vrsqrt
  | 7, 0x00 => some .vmov | 7, 0x01 => some .vadd | 7, 0x02 => some .vsub | 7, 0x03 => some .vmul
  | 7, 0x08 => some .vand | 7, 0x09 => some .vor | 7, 0x0A => some .vxor | 7, 0x0B => some .vandn
  | 7, 0x10 => some .vshl | 7, 0x11 => some .vshr | 7, 0x12 => some .vsra | 7, 0x18 => some .vmin
  | 7, 0x19 => some .vmax | 7, 0x20 => some .vcmpeq | 7, 0x21 => some .vcmplt | 7, 0x30 => some .vsel
  | 8, 0x00 => some .vcvt | 8, 0x01 => some .vcvt4 | 8, 0x08 => some .vred | 8, 0x10 => some .vperm
  | 8, 0x11 => some .vext | 8, 0x12 => some .vlane | 8, 0x18 => some .vtest
  | 9, 0x00 => some .vld | 9, 0x01 => some .vst | 9, 0x08 => some .vins | 9, 0x09 => some .vsend
  | 10, 0x00 => some .tmv | 10, 0x01 => some .tmma | 10, 0x08 => some .tldx | 10, 0x09 => some .tscl
  | 11, 0x00 => some .tdrv | 11, 0x01 => some .tzero | 11, 0x02 => some .tsetr
  | _, _ => none

/-- The instruction of a word, by class and opcode. -/
def iBOp (w : DWord) : Option BOp := opOf (iClass w) (iOp w)

/-- The queue a class names (the class table); classes 0x1-0x5 S, 0x6-0x9 V, 0xA-0xB T. -/
def queOf (w : DWord) : Que := if iClass w ≤ 5 then .s else if iClass w ≤ 9 then .v else .t

/-- The queue an instruction belongs to (REPEAT belongs to none and is given S). -/
def queOp : BOp → Que
  | .vfadd | .vfsub | .vfmul | .vfma | .vfmin | .vfmax | .vfabs | .vfneg | .vfcmpeq | .vfcmplt | .vfcmple
  | .vexp2 | .vlog2 | .vrcp | .vrsqrt
  | .vmov | .vadd | .vsub | .vmul | .vand | .vor | .vxor | .vandn | .vshl | .vshr | .vsra | .vmin | .vmax
  | .vcmpeq | .vcmplt | .vsel
  | .vcvt | .vcvt4 | .vred | .vperm | .vext | .vlane | .vtest | .vld | .vst | .vins | .vsend => .v
  | .tmv | .tmma | .tldx | .tscl | .tdrv | .tzero | .tsetr => .t
  | _ => .s

/-- Operand use of an instruction's A: none, or a select read as a source. -/
def usesA : BOp → Bool
  | .pand | .por | .pxor | .pnull | .pget | .nop | .repi | .repg | .mark | .halt
  | .arrive | .waitb | .castle | .vlane | .tmv | .tmma | .tldx | .tscl | .tdrv | .tzero | .tsetr => false
  | _ => true

/-- Does the instruction read a source select in B? -/
def usesB : BOp → Bool
  | .add | .sub | .mul | .mulh | .mulhu | .and | .or | .xor | .andn | .shl | .shr | .sra | .rotl
  | .min | .max | .minu | .maxu | .bfi | .sel
  | .cmpeq | .cmpne | .cmplt | .cmple | .cmpltu | .cmpleu | .tstnz
  | .stw | .sendp
  | .vfadd | .vfsub | .vfmul | .vfma | .vfmin | .vfmax | .vfcmpeq | .vfcmplt | .vfcmple
  | .vadd | .vsub | .vmul | .vand | .vor | .vxor | .vandn | .vshl | .vshr | .vsra | .vmin | .vmax
  | .vcmpeq | .vcmplt | .vsel | .vperm | .vlane | .vtest | .vst => true
  | _ => false

/-- Does the instruction use IMM as an extension field (R106, R146)? -/
def immExt : BOp → Bool
  | .bfx | .bfi | .pnull | .ldw | .stw | .send | .sendp | .arrive | .waitb | .castle | .mark | .repi | .repg
  | .vcvt | .vcvt4 | .vext | .vlane | .vtest | .vld | .vst | .vins | .vsend | .tmv | .tldx | .tscl => true
  | _ => false

/-- Does the instruction write a g register named by D (classes 0x1-0x5, R107)? -/
def writesG : BOp → Bool
  | .mov | .add | .sub | .mul | .mulh | .mulhu | .and | .or | .xor | .andn | .shl | .shr | .sra | .rotl
  | .min | .max | .minu | .maxu | .clz | .popc | .bfx | .bfi | .sel | .pget | .ldw => true
  | _ => false

/-- Does the instruction write a v register named by D? -/
def writesV : BOp → Bool
  | .vfadd | .vfsub | .vfmul | .vfma | .vfmin | .vfmax | .vfabs | .vfneg | .vfcmpeq | .vfcmplt | .vfcmple
  | .vexp2 | .vlog2 | .vrcp | .vrsqrt
  | .vmov | .vadd | .vsub | .vmul | .vand | .vor | .vxor | .vandn | .vshl | .vshr | .vsra | .vmin | .vmax
  | .vcmpeq | .vcmplt | .vsel | .vcvt | .vcvt4 | .vperm | .vlane | .vld | .vins | .tdrv => true
  | _ => false

/-- The transcendental opcodes (R148). -/
def isTrans : BOp → Bool
  | .vexp2 | .vlog2 | .vrcp | .vrsqrt => true
  | _ => false

/-- The low bit and width of each MOD field the instruction uses, in word bits. [DEDUCED log 12] -/
def modFields : BOp → List (Nat × Nat)
  | .add | .sub | .mul => [(28, 2)]
  | .sel => [(24, 4)]
  | .cmpeq | .cmpne | .cmplt | .cmple | .cmpltu | .cmpleu | .tstnz | .pnull => [(27, 3)]
  | .pand | .por | .pxor => [(19, 11)]
  | .repi | .repg => [(16, 11)]
  | .send | .sendp => [(29, 1)]
  | .vfadd | .vfsub | .vfmul | .vfma | .vexp2 | .vlog2 | .vrcp | .vrsqrt => [(25, 5)]
  | .vfmin | .vfmax | .vfabs | .vfneg | .vfcmpeq | .vfcmplt | .vfcmple => [(26, 4)]
  | .vadd | .vsub | .vmul => [(24, 6)]
  | .vmin | .vmax | .vcmplt => [(26, 4), (24, 1)]
  | .vmov | .vand | .vor | .vxor | .vandn | .vshl | .vshr | .vsra | .vcmpeq => [(26, 4)]
  | .vsel => [(26, 4), (16, 4)]
  | .vcvt => [(20, 10)]
  | .vcvt4 => [(21, 1)]
  | .vred => [(22, 8)]
  | .vtest => [(16, 3)]
  | .tmv => [(17, 13)]
  | .tmma => [(22, 8)]
  | .tldx => [(25, 5)]
  | .tscl => [(24, 6)]
  | .tdrv => [(19, 11)]
  | .tsetr => [(19, 3)]
  | _ => []

/-- The IMM bits an extension field uses. -/
def immFields : BOp → List (Nat × Nat)
  | .bfx | .bfi => [(8, 5), (0, 5)]
  | .pnull | .castle | .vext | .vlane => [(0, 3)]
  | .ldw | .stw | .mark | .repi | .vld | .vst => [(0, 16)]
  | .send | .sendp => [(15, 1), (0, 5)]
  | .arrive | .waitb => [(0, 6)]
  | .vcvt => [(0, 13)]
  | .vcvt4 => [(6, 7), (0, 1)]
  | .vins => [(0, 5)]
  | .vsend => [(15, 1), (0, 9)]
  | .tmv => [(0, 16)]
  | .tldx | .tscl => [(0, 11)]
  | _ => []

/-- A select that names a port. -/
def isPort (c : Nat) : Bool := decide (32 ≤ c ∧ c ≤ 39)

/-- FMT of classes 0x6, 0x7, 0x8's VRED and 0xB's TDRV: word bits [29:26]. -/
def iFMT (w : DWord) : Option Fmt := fmtOf (fld w 26 4)

/-- The format pairs of R165. -/
def pairOk (a b : Nat) : Bool :=
  (a == b && [0, 3, 4, 5, 6, 7].contains a) || ([1, 2].contains a && [1, 2].contains b)

/-- R of R169: rows read by TDRV per format. -/
def tdrvRows : Fmt → Nat
  | .fp32 | .int32 => 1
  | .bf16 | .fp16 => 2
  | .e4m3 | .e5m2 | .int8 => 4
  | _ => 0

/-- The selects each instruction allows in D, A and B (R104, R107, R142, R157, R158, R164). -/
def selectsOk (op : BOp) (w : DWord) : Bool :=
  let d := iD w; let a := iA w; let b := iB w
  let noImm := fun c => !(immExt op && (c == 41 || c == 42))
  let dOk := if writesG op then decide (d < 32)
    else match op with
    | .vred | .vext => decide (16 ≤ d ∧ d < 32)
    | .tmv | .tmma | .tzero | .tsetr => decide (d < 4)
    | _ => if writesV op then decide (d < 16) else d == 0
  let aOk := match op with
    | .vcvt4 | .tmma => [0, 4, 8, 12].contains a
    | .vld | .vst | .repg => decide (a < 32)
    | .vins => isPort a
    | .vsend | .tsetr => decide (a < 16)
    | .tdrv => decide (a < 4)
    | .tldx | .tscl => if bitAt w 29 then decide (a < 16) else a == 0
    | _ => if usesA op then noImm a else a == 0
  let bOk := match op with
    | .vperm => decide (16 ≤ b ∧ b < 32)
    | .vlane => decide (16 ≤ b) && noImm b
    | .vst => decide (b < 16)
    | .tmv => decide (b < 32)
    | .tmma => [0, 4, 8, 12].contains b
    | .tldx | .tscl => if bitAt w 29 then b == 0 else decide (b < 32)
    | _ => if usesB op then noImm b else b == 0
  dOk && aOk && bOk

/-- The instruction-specific conditions stated over a word's own fields. -/
def specialOk (op : BOp) (w : DWord) : Bool :=
  let sat := bitAt w 29; let uns := bitAt w 28
  let vsat := bitAt w 25; let vuns := bitAt w 24
  match op with
  | .add | .sub | .mul => sat || !uns
  | .bfx | .bfi => decide (fld w 0 5 + fld w 8 5 + 1 ≤ 32)
  | .repi | .repg => decide (1 ≤ fld w 16 11) && !iPN w && iPSEL w == 0
  | .halt => !iPN w && iPSEL w == 0
  | .send => !bitAt w 29 || isPort (iA w)
  | .sendp => (!bitAt w 29 || isPort (iA w) || isPort (iB w)) && decide (fld w 0 5 < 24)
  | .vfadd | .vfsub | .vfmul | .vfma | .vfmin | .vfmax | .vfabs | .vfneg | .vfcmpeq | .vfcmplt | .vfcmple =>
    [3, 4, 5].contains (fld w 26 4)
  | .vexp2 | .vlog2 | .vrcp | .vrsqrt => fld w 26 4 == 5
  | .vadd | .vsub | .vmul => [7, 8].contains (fld w 26 4) && (vsat || !vuns)
  | .vshl | .vshr | .vsra | .vmin | .vmax | .vcmpeq | .vcmplt => [7, 8].contains (fld w 26 4)
  | .vmov | .vand | .vor | .vxor | .vandn | .vsel => fld w 26 4 == 8
  | .vcvt =>
    match fmtOf (fld w 26 4), fmtOf (fld w 22 4) with
    | some fd, some fs =>
      fd != .fp4 && decide (fld w 0 3 < 32 / fmtW fs) && decide (fld w 3 3 < 32 / fmtW fd)
        && (fs == .fp4 || fld w 6 7 == 0) && !(bitAt w 20 && fmtInt fd)
    | _, _ => false
  | .vred =>
    match fmtOf (fld w 26 4) with
    | some f =>
      [.bf16, .fp16, .fp32, .int8, .int32].contains f && fld w 24 2 != 3
        && !(fmtInt f && bitAt w 23) && !(!fmtInt f && bitAt w 22)
    | none => false
  | .vins => fld w 0 2 != 3 && decide (fld w 2 3 + 2 ^ fld w 0 2 ≤ 8)
  | .vsend => !bitAt w 5 || (decide (fld w 6 3 ≤ 6) && decide (fld w 0 5 < 24))
  | .tmv => pairOk (fld w 26 4) (fld w 22 4)
  | .tmma => pairOk (fld w 26 4) (fld w 22 4)
  | .tldx | .tscl => !bitAt w 29 || (fld w 25 4 == 0 && fld w 0 11 == 0)
  | .tdrv =>
    match fmtOf (fld w 26 4) with
    | some f => decide (0 < tdrvRows f) && fld w 19 3 % tdrvRows f == 0 && !(fmtInt f && bitAt w 23)
    | none => false
  | _ => true

/-- Does IMM serve as a plain immediate (a select 41 or 42 that the instruction reads)? -/
def immPlain (op : BOp) (w : DWord) : Bool :=
  !immExt op && ((usesA op && (iA w == 41 || iA w == 42)) || (usesB op && (iB w == 41 || iB w == 42)))

/-- R104 as far as the word's own 64 bits decide it: the loader refuses a word that breaks it, the fetch unit faults. [DEDUCED log 12] -/
def wordOk (w : DWord) : Bool :=
  match iBOp w with
  | none => false
  | some op =>
    let immBits := if immPlain op w then [(0, 16)] else immFields op
    selectsOk op w && specialOk op w
      && onlyFields (BitVec.ofNat 30 w.toNat) (modFields op ++ immBits)

/-- The ports an instruction pops, in pop order (R109, R144, R160). -/
def popsOf (op : BOp) (w : DWord) : List Nat :=
  match op with
  | .vins => List.replicate (2 ^ fld w 0 2) (iA w - 32)
  | _ =>
    (if usesA op && isPort (iA w) then [iA w - 32] else [])
      ++ (if usesB op && isPort (iB w) then [iB w - 32] else [])

/-- The slot an instruction sends on and the credits it spends (R132, R161). -/
def sendsOf (op : BOp) (w : DWord) : Option (Nat × Nat) :=
  match op with
  | .send => some (fld w 0 5, 1)
  | .sendp => some (fld w 0 5, 2)
  | .vsend => some (fld w 0 5, if bitAt w 5 then 2 else 1)
  | _ => none

/-- Scoreboard names: g, p, v registers, the null flags, the scale file and the x latch (R55, R111, R162). -/
def rG (n : Nat) : Nat := n
def rP (n : Nat) : Nat := 32 + n
def rV (n : Nat) : Nat := 40 + n
def rNF (n : Nat) : Nat := 60 + n
def rWSC : Nat := 68
def rXL : Nat := 69

/-- The registers a source select reads in a class (R142; NFV reads every null flag, R111). -/
def selRegs (cls c : Nat) : List Nat :=
  if c < 32 then (if cls ≤ 5 then [rG c] else if c < 16 then [rV c] else [rG c])
  else if c = 45 then (List.range 8).map rNF else []

/-- Four consecutive v registers. -/
def v4 (n : Nat) : List Nat := [rV n, rV (n + 1), rV (n + 2), rV (n + 3)]

/-- The registers an instruction reads (R114, R147, R163, R166-R170). [DEDUCED log 13] -/
def srcsOf (op : BOp) (w : DWord) : List Nat :=
  let cls := iClass w; let a := iA w; let b := iB w; let d := iD w
  let pred := if iPSEL w = 0 then [] else [rP (iPSEL w)]
  let ops := match op with
    | .sel => selRegs cls a ++ selRegs cls b ++ (if fld w 25 3 = 0 then [] else [rP (fld w 25 3)])
    | .pand | .por | .pxor =>
      (if fld w 24 3 = 0 then [] else [rP (fld w 24 3)]) ++ (if fld w 20 3 = 0 then [] else [rP (fld w 20 3)])
    | .pnull => [rNF (fld w 0 3)]
    | .pget => (List.range 7).map (fun i => rP (i + 1))
    | .vfma => selRegs cls a ++ selRegs cls b ++ [rV d]
    | .vsel => selRegs cls a ++ selRegs cls b ++ [rV (fld w 16 4)]
    | .vcvt => selRegs cls a ++ [rV d] ++ (if fld w 22 4 = 0 then [rG (fld w 8 5)] else [])
    | .vcvt4 => v4 a ++ [rV d, rG (fld w 8 5)]
    | .vlane => selRegs cls b ++ [rV d]
    | .vld => [rG a]
    | .vst => [rG a, rV b]
    | .vins => [rV d]
    | .vsend => [rV a]
    | .tmv => [rG b, rXL] ++ (if fld w 26 4 = 0 then [rWSC] else [])
    | .tmma => v4 a ++ v4 b ++ (if fld w 26 4 = 0 then [rWSC] else [])
    | .tldx => if bitAt w 29 then [rV a] else [rG b]
    | .tscl => if bitAt w 29 then [rV a] else [rG b]
    | .tsetr => [rV a]
    | _ => (if usesA op then selRegs cls a else []) ++ (if usesB op then selRegs cls b else [])
  pred ++ ops

/-- The registers an instruction writes at its latency, the null flags of its pops aside. [DEDUCED log 13] -/
def dstsOf (op : BOp) (w : DWord) : List Nat :=
  let d := iD w
  match op with
  | .cmpeq | .cmpne | .cmplt | .cmple | .cmpltu | .cmpleu | .tstnz | .pand | .por | .pxor | .pnull =>
    if fld w 27 3 = 0 then [] else [rP (fld w 27 3)]
  | .vtest => if fld w 16 3 = 0 then [] else [rP (fld w 16 3)]
  | .pput => (List.range 7).map (fun i => rP (i + 1))
  | .vred | .vext => [rG d]
  | .vcvt4 => [rV d, rG (fld w 8 5)]
  | .tldx => [rXL]
  | .tscl => [rWSC]
  | _ => if writesG op then [rG d] else if writesV op then [rV d] else []

/-- The registers that hold the address of a memory access. -/
def addrRegs (op : BOp) (w : DWord) : List Nat :=
  match op with
  | .ldw | .stw => selRegs (iClass w) (iA w)
  | .vld | .vst => [rG (iA w)]
  | .tmv => [rG (iB w)]
  | .tldx | .tscl => if bitAt w 29 then [] else [rG (iB w)]
  | _ => []

/-- The data-SRAM access of an instruction: its size in bytes and whether it writes. -/
def memOf (op : BOp) (w : DWord) : Option (Nat × Bool) :=
  match op with
  | .ldw => some (4, false)
  | .stw => some (4, true)
  | .vld => some (32, false)
  | .vst => some (32, true)
  | .tmv => some (32, false)
  | .tldx | .tscl => if bitAt w 29 then none else some (32, false)
  | _ => none

/-- Does the address come from a port? -/
def addrPort (op : BOp) (w : DWord) : Bool :=
  match op with
  | .ldw | .stw => isPort (iA w)
  | _ => false

/-- The latency L of R113: R116, R120, R122, R125, R148, R151, R153, R158, R168, R169. -/
def latOf (op : BOp) (w : DWord) : Nat :=
  match op with
  | .mul | .mulh | .mulhu => 2
  | .ldw => 3
  | .vfadd | .vfsub | .vfmul => 3
  | .vfma => 4
  | .vfmin | .vfmax | .vfcmpeq | .vfcmplt | .vfcmple => 2
  | .vexp2 | .vlog2 | .vrcp | .vrsqrt => 8
  | .vmul | .vcvt => 2
  | .vcvt4 | .vld => 3
  | .vred => if [3, 4, 5].contains (fld w 26 4) then 6 else 2
  | .tdrv => 2
  | _ => 1

/-- Tcyc for which a multiply-accumulate holds the array (R171). -/
def arrayHold (op : BOp) (w : DWord) : Nat :=
  let fp32 := fld w 26 4 = 5
  match op with
  | .tmv => if fp32 then 2 else 1
  | .tmma => if fp32 then 64 else 32
  | _ => 0

/-- Tcyc from issue to the completion of an accumulator update (R172). -/
def updLat (op : BOp) (w : DWord) : Nat :=
  match op with
  | .tmv => if fld w 26 4 = 5 then 7 else 6
  | .tmma => arrayHold .tmma w + 5
  | _ => 1

/-- The reduction length K of R165. -/
def kOf : Nat → Nat
  | 0 | 6 => 32
  | 1 | 2 | 7 => 16
  | 3 | 4 => 8
  | _ => 4

end Sys2Proof.Machine
end

