-- ==== Sys2Proof/Machine/SMap.lean ====
section
/-! DEFINITION. Sparse data by key: a list of (key, value) pairs in one canonical form (keys strictly rising, no pair
whose value is what an unlisted key reads as). Every memory and every register file of the model is one. -/
namespace Sys2Proof.Machine

/-- Sparse data by key. -/
abbrev SMap (α : Type) := List (Nat × α)

/-- The pair at a key, if one is listed. -/
def sfind {α : Type} : SMap α → Nat → Option α
  | [], _ => none
  | (j, v) :: r, k => if j = k then some v else sfind r k

/-- What a key reads as; an unlisted key reads as `d`. -/
def sget {α : Type} (d : α) (m : SMap α) (k : Nat) : α := (sfind m k).getD d

/-- The map without a key. -/
def sdel {α : Type} : SMap α → Nat → SMap α
  | [], _ => []
  | (j, v) :: r, k => if j = k then sdel r k else (j, v) :: sdel r k

/-- The map with a key listed at its place. -/
def sput {α : Type} : SMap α → Nat → α → SMap α
  | [], k, v => [(k, v)]
  | (j, u) :: r, k, v =>
    if j = k then (k, v) :: r else if k < j then (k, v) :: (j, u) :: r else (j, u) :: sput r k v

/-- A write; writing what an unlisted key reads as removes the pair. -/
def sset {α : Type} [DecidableEq α] (d : α) (m : SMap α) (k : Nat) (v : α) : SMap α :=
  if v = d then sdel m k else sput m k v

/-- A change of the value at one key. -/
def smod {α : Type} [DecidableEq α] (d : α) (m : SMap α) (k : Nat) (f : α → α) : SMap α :=
  sset d m k (f (sget d m k))

/-- Keys strictly rise, from above `lo`. -/
def srising {α : Type} : Option Nat → SMap α → Bool
  | _, [] => true
  | none, (j, _) :: r => srising (some j) r
  | some l, (j, _) :: r => decide (l < j) && srising (some j) r

/-- The canonical form: keys strictly rise and no value equals the default. -/
def swf {α : Type} [DecidableEq α] (d : α) (m : SMap α) : Bool :=
  srising none m && m.all (fun p => decide (p.2 ≠ d))

/-- The bytes of a byte memory at `a`, `a+1`, …. -/
def readBytes (d : BitVec 8) (m : SMap (BitVec 8)) (a : Nat) : Nat → List (BitVec 8)
  | 0 => []
  | n + 1 => sget d m a :: readBytes d m (a + 1) n

/-- Bytes written to a byte memory from `a` on. -/
def writeBytes (d : BitVec 8) (m : SMap (BitVec 8)) (a : Nat) : List (BitVec 8) → SMap (BitVec 8)
  | [] => m
  | b :: r => writeBytes d (sset d m a b) (a + 1) r

/-- The little-endian number of `n` bytes of a byte memory. -/
def readLE (m : SMap (BitVec 8)) (a n : Nat) : Nat :=
  (readBytes 0 m a n).foldr (fun b acc => b.toNat + 256 * acc) 0

end Sys2Proof.Machine
end

