-- ==== Sys2Proof/Machine/BrickState.lean ====
section
/-! DEFINITION. The state of one brick: fetch unit, queues, register files, memories, operand ports, tensor unit, router,
stream unit, castled buffers, expert queues, scatter engine, barrier endpoint, counters and registers. -/
namespace Sys2Proof.Machine

/-- The brick states of R71. -/
inductive BState where
  | stopped | loaded | running | draining | halted | faulted | quarantined
deriving DecidableEq, Repr

/-- The code of a brick state (R71). -/
def BState.code : BState → Nat
  | .stopped => 0 | .loaded => 1 | .running => 2 | .draining => 3 | .halted => 4 | .faulted => 5 | .quarantined => 6

/-- A flit, or a port entry: 32 payload bits and the two markers (R59, R181). `due` is the first tcyc in which it can be
popped or forwarded. [DESIGN CHOICE log 114] -/
structure Flit where
  data : Word := 0
  null : Bool := false
  eom : Bool := false
  due : Nat := 0
deriving DecidableEq, Repr

/-- An instruction in a queue: its place in program order, its word and the repeat indices taken at dispatch (R112).
`due` is the first tcyc in which it may issue. -/
structure QEntry where
  seq : Nat
  pc : Nat
  word : DWord
  ri0 : Word
  ri1 : Word
  due : Nat
deriving DecidableEq, Repr

/-- A level of the repeat stack (R127). -/
structure RptLevel where
  first : Nat
  last : Nat
  left : Nat
  idx : Nat
deriving DecidableEq, Repr

/-- A register write that an issued instruction makes at its latency. -/
inductive RW where
  | g (n : Nat) (v : Word)
  | p (n : Nat) (v : Bool)
  | v (n : Nat) (v : VecReg)
  | wsc (first : Nat) (bytes : List Byte)
  | xl (v : BitVec 128) (sc : Byte)
deriving DecidableEq, Repr

/-- An issued instruction whose destination is not released yet (R113): due tcyc, reserved registers, writes. -/
structure Flight where
  due : Nat
  regs : List Nat
  writes : List RW
deriving DecidableEq, Repr

/-- What an accumulator update does when it completes (R166, R167, R170); operands captured at issue. -/
inductive UpdOp where
  /-- TMV: format codes of W and XL, element 2j, the 32 weight bytes, XL, the scales of elements 2j and 2j+1, XSC. -/
  | tmv (fw fx : Nat) (e : Nat) (w : VecReg) (x : BitVec 128) (s0 s1 sx : Nat)
  /-- TMMA: format codes, the two 128-byte tiles, the first 16 scales. -/
  | tmma (fa fb : Nat) (a b : BitVec 1024) (sc : List Nat)
  | zero
  | setr (row : Nat) (v : VecReg)
deriving DecidableEq, Repr

/-- An accumulator update not yet completed (R172). -/
structure Upd where
  due : Nat
  acc : Nat
  op : UpdOp
deriving DecidableEq, Repr

/-- A credit on its way back to its holder: the buffer it frees (32·input+slot for a router buffer, 160+n for port n). [DESIGN CHOICE log 114] -/
structure CredFly where
  due : Nat
  loc : Nat
deriving DecidableEq, Repr

/-- An open loop of a stream context (R225); n = 0 is unbounded. -/
structure SLoop where
  first : Nat
  last : Nat
  n : Nat
  idx : Nat
  fill : Bool
  cb : Nat
deriving DecidableEq, Repr

/-- The phase of a stream context (R222, R253). -/
inductive CtxPhase where
  | idle | held | active | done | faulted
deriving DecidableEq, Repr

/-- A stream context (R221): address, strides, loop stack (innermost first), bank select, and what it is in the middle of:
the words of an SFAR still to be sent, or a loop end whose FILL action waits. -/
structure Ctx where
  phase : CtxPhase := .idle
  pc : Nat := 0
  addr : Nat := 0
  strides : SMap Word := []
  loops : List SLoop := []
  bankEn : Bool := false
  bankRot : Bool := false
  bankL : Nat := 0
  bankB : Nat := 0
  farSlot : Nat := 0
  farLeft : List Word := []
  /-- Levels whose iteration has ended and whose loop-end steps are still to be made (a FILL action waits). -/
  ending : Bool := false
  /-- The tcyc whose bank request was refused, plus one; 0 none. -/
  bankWait : Nat := 0
deriving DecidableEq, Repr

/-- A castled buffer (R235, R256): its read half (0 after reset, 1 from a load on; the other half is the fill half), DONE, one
more than the tcyc in which DONE last changed, and FILLING. -/
structure Cb where
  rd : Nat := 0
  done : Bool := false
  chg : Nat := 0
  filling : Bool := false
deriving DecidableEq, Repr

/-- A packet in reservation at an inbound port: slot (RING, FORWARD) or header tag (ACCUM, PLACE), words taken, and
whether its header was null. -/
structure EqOpen where
  slot : Nat := 0
  tag : Nat := 0
  taken : Nat := 0
  nullPkt : Bool := false
deriving DecidableEq, Repr

/-- A ring slot in reservation order: its number, whether its last flit is written, and the markers of its flits. -/
structure EqSlot where
  slot : Nat
  whole : Bool
  marks : List (Bool × Bool)
deriving DecidableEq, Repr

/-- An expert queue's live state (R330-R336). -/
structure EqState where
  free : List Nat := []
  order : List EqSlot := []
  opens : SMap EqOpen := []
  c0 : Nat := 0
  c1 : Nat := 0
  notices : Nat := 0
  /-- Halves whose notice waits for room in DPORT, oldest first. -/
  waiting : List Nat := []
  /-- Flits of the slot being replayed that are already placed. -/
  replayed : Nat := 0
  stopped : Bool := false
deriving DecidableEq, Repr

/-- The packet the scatter engine works on (R333): its queue and ring slot, DEST of its header while the table is still to be
read, the local slot of its table entry, the flits sent. [DESIGN CHOICE log 21] -/
structure ScPacket where
  q : Nat
  slot : Nat
  look : Option Nat := none
  dslot : Nat := 0
  sent : Nat := 0
deriving DecidableEq, Repr

/-- One brick. -/
structure Brick where
  st : BState := .stopped
  wrIgnored : Bool := false
  pc : Nat := 0
  haltDisp : Bool := false
  fetchStop : Bool := false
  rpt : List RptLevel := []
  pmem : SMap DWord := []
  pmemEcc : SMap Nat := []
  pmemAddr : Nat := 0
  pmemLoHold : Word := 0
  pmemHiShadow : Word := 0
  sram : SMap Byte := []
  sramEcc : SMap Nat := []
  sramAddr : Nat := 0
  g : SMap Word := []
  p : BitVec 8 := 0
  v : SMap VecReg := []
  acc : SMap Word := []
  wsc : SMap Byte := []
  xl : BitVec 128 := 0
  xsc : Byte := 0
  nf : BitVec 8 := 0
  ports : SMap (List Flit) := []
  qS : List QEntry := []
  qV : List QEntry := []
  qT : List QEntry := []
  seqNext : Nat := 0
  dispStall : Bool := false
  causeS : Nat := 0
  causeV : Nat := 0
  causeT : Nat := 0
  flights : List Flight := []
  updates : List Upd := []
  arrayFree : Nat := 0
  transFree : Nat := 0
  useT : Nat := 0
  used : List Nat := []
  cfg : SMap Word := []
  /-- Per slot that holds a Tirkan route word: the direction of its path's first hop plus one, and BRK_RT_TWX, as the last load
  made them (R217, R218, R220). -/
  twDir : SMap Nat := []
  twx : SMap Word := []
  obs : SMap Word := []
  cnt : SMap Nat := []
  fifos : SMap (List Flit) := []
  cred : SMap Nat := []
  sndCred : SMap Nat := []
  credFly : List CredFly := []
  rr : SMap Nat := []
  fseq : SMap Nat := []
  linkDed : BitVec 4 := 0
  bridgeDead : BitVec 4 := 0
  quarLinks : BitVec 4 := 0
  linkFaults : SMap Nat := []
  ctx : SMap Ctx := []
  stPtr : Nat := 0
  stStop : Bool := false
  cb : SMap Cb := []
  eq : SMap EqState := []
  eqPtr : Nat := 0
  scPtr : Nat := 0
  sc : Option ScPacket := none
  scStop : Bool := false
  scNulls : Nat := 0
  barOut : SMap Nat := []
  barNP : SMap Nat := []
  fltT : Nat := 0
  hist : List Nat := []
  dedWords : List Nat := []
  missed : Nat := 0
deriving DecidableEq, Repr

/-- A brick after reset: STOPPED, nothing listed. [DESIGN CHOICE log 4] -/
def Brick.reset : Brick := {}

end Sys2Proof.Machine
end

