-- ==== Sys2Proof/Machine/HedState.lean ====
section
/-! DEFINITION. The state of a host edge die: text channels, Lexicon unit, grammar walker, Stesy ports and channel slots,
boundary scan (R351-R391, R566-R608, R643). -/
namespace Sys2Proof.Machine

/-- A closed pre-token: text bytes, or a token number from a TOKENS entry (R358, R359). -/
inductive PreTok where
  | text (b : List Byte)
  | tok (n : Nat)
deriving DecidableEq, Repr

/-- A request from its first ring entry on: closed pre-tokens not yet encoded, the open pre-token, tokens made and not yet
issued (R19, R358). -/
structure Req where
  tag : Nat := 0
  order : Nat := 0
  closed : List PreTok := []
  open_ : List Byte := []
  toks : List Nat := []
  made : Nat := 0
  eop : Bool := false
  /-- 5: the request ends with ABORT when its turn comes; 9: it has ended, and its entries up to EOP are still to come. -/
  bad : Nat := 0
deriving DecidableEq, Repr

/-- The admitted request of a channel (R24-R32). END causes: 1 STOP, 2 LIMIT, 3 ACCEPT, 4 CANCEL, 5 ABORT. -/
structure Cur where
  issued : Nat := 0
  returned : Nat := 0
  abandoned : Nat := 0
  fly : List (Nat × Bool) := []
  nextSeq : Nat := 0
  promptDone : Bool := false
  feedback : Option Nat := none
  fed : Nat := 0
  limit : Nat := 0
  cause : Nat := 0
  grammar : Bool := false
  held : List Byte := []
  out : List Byte := []
deriving DecidableEq, Repr

/-- A text channel of a HED: Slate placement, rings, Lexicon binding, requests, grammar walker. -/
structure Chan where
  en : Bool := false
  cached : Bool := false
  med : Nat := 0
  board : Nat := 0
  regOfs : Nat := 0
  regLen : Nat := 0
  /-- Ring registers by offset (R576), and the indices of R567 and R571. -/
  ring : SMap Word := []
  txtHead : Nat := 0
  txtProd : Nat := 0
  cplTail : Nat := 0
  cplCons : Nat := 0
  phase : Bool := false
  dbErr : Bool := false
  entryErr : Bool := false
  fetchErr : Bool := false
  /-- A TEXT record has signalled within HOLDOFF; one waits for its end (R574). -/
  hold : Bool := false
  holdPend : Bool := false
  bound : Bool := false
  alg : Nat := 0
  vsize : Nat := 0
  vbase : Nat := 0
  cfg : Word := 0
  stops : List Nat := []
  limit : Nat := 0
  inMed : Nat := 0
  inCol : Nat := 0
  inLane : Nat := 0
  inSlot : Nat := 0
  lastEnd : Nat := 0
  emptyPrompt : Bool := false
  tok : Nat := 0
  gen : Nat := 0
  reqs : List Req := []
  cur : Option Cur := none
  gBound : Bool := false
  gMed : Nat := 0
  gBase : Nat := 0
  gEnable : Bool := false
  gStart : Nat := 0
  gState : Nat := 0
  gStack : List Nat := []
  gPhase : Nat := 0
  gCause : Nat := 0
  gRejV : Bool := false
  gRej : Nat := 0
  masks : Nat := 0
  ssel : Word := 0
  sdata : Word := 0
deriving DecidableEq, Repr

/-- A mask begun (R384-R387): its channel, the SEQ of its word (none until a first SAMPLE word's SEQ is known), its W words,
PERMITTED, and how many of its flits are written. -/
structure MaskRun where
  chan : Nat
  seq : Option Nat
  bits : List Word
  permitted : Nat
  sent : Nat
deriving DecidableEq, Repr

/-- A data unit above the FEC (R581, R582): its header without LSEQ, and W2 to W7. -/
structure DUnit where
  typ : Nat
  lseq : Nat := 0
  hop : Nat := 0
  svc : Bool := false
  lc : Nat := 0
  dwafer : Nat := 0
  dhed : Nat := 0
  dslot : Nat := 0
  epoch : Nat := 0
  body : List Word := []
deriving DecidableEq, Repr

/-- A Stesy port (R583-R589, R606, R607). Lane 64 is the service lane. -/
structure Port where
  enable : Bool := false
  st : Nat := 0
  wasActive : Bool := false
  /-- In RETRAIN: lock on all four lanes, so HELLOs pass again. -/
  aligned : Bool := false
  peer : Option (Nat × Nat × Nat) := none
  helloLast : Option (Nat × Nat × Nat) := none
  hellos : Nat := 0
  evt : Word := 0
  retry : Nat := 0
  fecCe : Nat := 0
  fecUe : Nat := 0
  txq : SMap (List DUnit) := []
  txCred : SMap Nat := []
  lastTot : SMap Nat := []
  rx : SMap (List DUnit) := []
  retTot : SMap Nat := []
  repTot : SMap Nat := []
  repPtr : Nat := 0
  lanePtr : Nat := 0
  nextSeq : Nat := 0
  replay : List DUnit := []
  again : List DUnit := []
  expect : Nat := 0
  nakOut : Bool := false
  nakDue : Bool := false
  ackDue : Bool := false
  nakSeq : Option Nat := none
  nakCount : Nat := 0
  /-- Unit positions still to pass before the next LINK unit (R587). -/
  linkWait : Nat := 0
  lsel : Word := 0
  llive : Word := 0
deriving DecidableEq, Repr

/-- A channel slot (R590-R595, R603). -/
structure Slot where
  used : Bool := false
  dirIn : Bool := false
  opened : Bool := false
  closed : Bool := false
  board : Nat := 0
  epoch : Nat := 0
  chan : Nat := 0
  peer : Nat := 0
  pWafer : Nat := 0
  pHed : Nat := 0
  pSlot : Nat := 0
  pEpoch : Nat := 0
  credits : Nat := 0
  ring : List Flit := []
  ret : Nat := 0
  inMed : Nat := 0
  inCol : Nat := 0
  inLane : Nat := 0
  inSlot : Nat := 0
deriving DecidableEq, Repr

/-- A host edge die. -/
structure Hed where
  sram : SMap Byte := []
  /-- Health of SRAM words, as for DRAM. -/
  sramEcc : SMap Nat := []
  /-- Health of the words that the cache holds of tables in DRAM (R354, R373), keyed 2^45·board + VA/8. [DEDUCED log 37] -/
  cacheEcc : SMap Nat := []
  chans : SMap Chan := []
  encPtr : Nat := 0
  fetchNo : Nat := 0
  ports : SMap Port := []
  slots : SMap Slot := []
  slotPtr : Nat := 0
  fwd : List (Word × Word) := []
  /-- The notice store (R604): the board and words W2 to W7 of each notice, oldest first. -/
  notices : List (Nat × List Word) := []
  noroute : Nat := 0
  ttl : Nat := 0
  stale : Nat := 0
  csel : Word := 0
  cA : Word := 0
  cB : Word := 0
  cC : Word := 0
  fsel : Word := 0
  f0 : Word := 0
  f1 : Word := 0
deriving DecidableEq, Repr

/-- The TAP states of IEEE 1149.1. -/
inductive TapSt where
  | reset | idle | selDR | capDR | shDR | ex1DR | paDR | ex2DR | upDR | selIR | capIR | shIR | ex1IR | paIR | ex2IR | upIR
deriving DecidableEq, Repr

/-- The boundary-scan chain of the four HEDs (R642-R644): controller state, instruction per HED (an unlisted one is BYPASS, 0xFF),
the shift paths from TDI to TDO, the update latches of the 334 boundary cells, TDO (none: high impedance). -/
structure TapState where
  st : TapSt := .reset
  ir : SMap Nat := []
  irShift : List Bool := []
  dr : List Bool := []
  latch : List Bool := []
  tdo : Option Bool := none
deriving DecidableEq, Repr

end Sys2Proof.Machine
end

