-- ==== Sys2Proof/Machine/BoardState.lean ====
section
/-! DEFINITION. The state of one board: definition, sequences, barriers, stalemate detector, contract check, fault record,
notices of other pieces. -/
namespace Sys2Proof.Machine

/-- The board states of R415. -/
inductive BoardPhase where
  | undefined | empty | loading | loaded | running | draining | halted | stalemate | resetting
deriving DecidableEq, Repr

/-- The code of a board state (R415). -/
def BoardPhase.code : BoardPhase → Nat
  | .undefined => 0 | .empty => 1 | .loading => 2 | .loaded => 3 | .running => 4 | .draining => 5
  | .halted => 6 | .stalemate => 7 | .resetting => 8

/-- An arrival in the combining tree (R300, R304): barrier, parity, the field it comes from and the tcyc of its issue. -/
structure Arrival where
  bar : Nat
  par : Nat
  fld : Nat
  at_ : Nat
deriving DecidableEq, Repr

/-- A release on its way to a participant (R301, R304): its barrier, the brick, and for a barrier that lies in one field
the tcyc at which it takes effect. -/
structure Release where
  bar : Nat
  x : Nat
  y : Nat
  due : Option Nat
deriving DecidableEq, Repr

/-- A drain in progress (R422): step 1 waits for the request's end, step 2 runs the pipeline empty. -/
structure Drain where
  hard : Bool
  abort : Bool
  step : Nat
deriving DecidableEq, Repr

/-- A loaded notice of another piece (R427, R601): its sender, how many RECORD notices follow it, and W5 and W6 of those
received. -/
structure LoadedNote where
  piece : Nat
  count : Nat
  records : List (Word × Word)
deriving DecidableEq, Repr

/-- One board. -/
structure Board where
  st : BoardPhase := .undefined
  x0 : Nat := 0
  x1 : Nat := 0
  y0 : Nat := 0
  y1 : Nat := 0
  stesyCh : Nat := 0
  cmdIgnored : Bool := false
  home : Bool := false
  assembled : Bool := false
  lastDrain : Nat := 0
  loadFailed : Bool := false
  faultDrain : Bool := false
  drainPending : Bool := false
  waiting : Nat := 0
  /-- 0 no load; 1 check pass; 2 write pass. -/
  loadPass : Nat := 0
  loadFn : Nat := 0
  loadArgs : List Word := []
  /-- BRD_LOAD_PROG (R435): image bytes read in the current pass, and PASS. -/
  progBytes : Nat := 0
  progPass : Bool := false
  /-- What the check pass leaves for the write pass: the header and section table, and the frames of the pages that the
  loader writes (MED, page, PFN). -/
  loadHead : List Byte := []
  loadPages : List (Nat × Nat × Nat) := []
  imageId : Nat := 0
  piece : Nat := 0
  pieces : Nat := 0
  startTs : Nat := 0
  startPending : Bool := false
  /-- A STREAM_START of the start's own tick: contexts with START = 1 begin with their bricks (R317). -/
  streamsToo : Bool := false
  drain : Option Drain := none
  /-- RW registers and captures of the BRD block, by offset. -/
  regs : SMap Word := []
  barDecl : SMap Word := []
  barGen : SMap Nat := []
  barC : SMap Nat := []
  barGate : SMap Nat := []
  arrivals : List Arrival := []
  releases : List Release := []
  still : Nat := 0
  moved : Bool := false
  smDeclared : Bool := false
  smReady : Bool := false
  smCause : Nat := 0
  armIn : Bool := false
  words : Nat := 0
  samples : Nat := 0
  depTot : Nat := 0
  abandonedWords : Bool := false
  abandonedDesc : Bool := false
  checking : Bool := false
  checkArgs : List Word := []
  checkFn : Nat := 0
  checkDone : Bool := false
  checkOutcome : Nat := 0
  checkIgnored : Bool := false
  depBricks : Nat := 0
  fltValid : Bool := false
  fltHard : Bool := false
  fltQuar : Bool := false
  fltJournaled : Bool := false
  fltLost : Bool := false
  fltCode : Nat := 0
  fltCount : Nat := 0
  fltBrick : Bool := false
  fltX : Nat := 0
  fltY : Nat := 0
  fltPX : Nat := 0
  fltDetail : Word := 0
  fltTick : Nat := 0
  notes : List LoadedNote := []
  pieceMap : List Word := []
  stesyRecs : List (List Byte) := []
  quietFrom : List Nat := []
  pieceHome : Nat := 0
  /-- The START notice held until assembly (R601). -/
  startHeld : Bool := false
  /-- HARD and ABORT of the DRAIN notices that came while the START notice was held (R430). -/
  heldDrain : Option (Bool × Bool) := none
  /-- REFUSE_PIECE has been reported for several pieces: the piece stays LOADED with ASSEMBLED clear (R411, R428). -/
  pieceBad : Bool := false
  /-- FAULT_BOARD_RESET has been raised for the reset in progress (R425). -/
  resetLate : Bool := false
  finalDrain : Bool := false
  finalW : Nat := 0
  finalS : Nat := 0
  /-- Frame quota per MED, in the layout of MED_BRD_QUOTA. -/
  quota : SMap Word := []
  /-- Mask channel (R376): MED, column, lane, slot; W. -/
  maskOn : Bool := false
  maskMed : Nat := 0
  maskCol : Nat := 0
  maskLane : Nat := 0
  maskSlot : Nat := 0
  maskW : Nat := 0
  /-- Masks begun and not yet sent whole, in SEQ order (R386). -/
  maskQ : List MaskRun := []
  limitUs : Nat := 10000
  energyFJ : Nat := 0
  energy : Nat := 0
  fields : List Nat := []
deriving DecidableEq, Repr

end Sys2Proof.Machine
end

