-- ==== Sys2Proof/Machine/DevState.lean ====
section
/-! DEFINITION. The state of the device around the wafer: time and schedules, clocks, power, boot, vigil domain, Slate, faults,
functions of the endpoints. -/
namespace Sys2Proof.Machine

/-- A schedule entry (R325): its tick, the RW fields of ACT, STATE (0 IDLE, 1 ARMED, 2 EXECUTED, 3 CANCELLED), lateness. -/
structure SchedEnt where
  tLo : Word := 0
  tHi : Word := 0
  act : Word := 0
  st : Nat := 0
  late : Bool := false
  lateness : Nat := 0
deriving DecidableEq, Repr

/-- Global time (R312-R320, R324). `frac` counts 1/128 ticks of holdover. -/
structure TimeSt where
  continuity : Bool := false
  holdover : Bool := false
  holdSeen : Bool := false
  frac : Nat := 0
  setLo : Word := 0
  setHi : Word := 0
  setPend : Bool := false
  /-- What this tick's examination executes and has not executed yet, in order (R318): device entry e, board b's entry e as
  16 + 8b + e. -/
  due : List Nat := []
  dev : SMap SchedEnt := []
  brd : SMap SchedEnt := []
deriving DecidableEq, Repr

/-- References, switch and clock enables (R510-R531). `sticky` holds SRC_DEAD, A_LOST, B_LOST, WAITED, REQ_REFUSED in bits 27
to 23. [DESIGN CHOICE log 113] -/
structure ClkSt where
  aGood : Bool := false
  bGood : Bool := false
  selected : Bool := false
  sel : Bool := false
  waiting : Bool := false
  /-- A reference is back, and meshes are still to pass RELOCK: the wait has not ended yet (R520). -/
  resuming : Bool := false
  switching : Bool := false
  sticky : Word := 0
  lastSwitch : Nat := 0
  waitLen : Nat := 0
  waitStart : Nat := 0
  en : SMap Word := []
  fieldSel : Word := 0
  fieldStat : Word := 0
deriving DecidableEq, Repr

/-- Power at device level (R534-R554): the Steward, floor governor, stop, events, caps, coefficients, energy counters in µJ
with their carried fJ, the tray's readings. -/
structure PwrSt where
  /-- The Steward runs the governor (PWR_STAT.STEWARD). -/
  steward : Bool := false
  /-- A Steward reset is in progress. -/
  inReset : Bool := false
  floor : Bool := false
  /-- The field the floor governor commands next, 84 when it has finished. -/
  floorAt : Nat := 84
  stopped : Bool := false
  event : Word := 0
  capW : Nat := 0
  waferW : Nat := 0
  coef : SMap Word := []
  request : Nat := 0
  coolSeq : Nat := 0
  nackAgain : Bool := false
  unasgFJ : Nat := 0
  unasg : Nat := 0
  edgeMeas : Nat := 0
  dramFJ : Nat := 0
  dram : Nat := 0
  sens : SMap Int := []
  hot : List Nat := []
  calib : List Nat := []
  regs : SMap Word := []
  /-- The Steward's firmware store (R545). -/
  store : List Byte := []
  flow : Nat := 0
  tin : Int := 0
  trayOk : Bool := false
deriving DecidableEq, Repr

/-- Boot (R487, R500). -/
structure BootSt where
  done : Bool := false
  failed : Bool := false
  running : Bool := false
  step : Nat := 1
  kind : Nat := 0
  ms : Nat := 0
  startT : Nat := 0
deriving DecidableEq, Repr

/-- The vigil domain (R494, R495, R499, R501), with the page program it holds (R479). -/
structure VigilSt where
  lost : Bool := true
  cellLow : Bool := false
  programDone : Bool := false
  /-- The supply has fallen below 1.60 V since the previous boot. -/
  fell : Bool := true
  /-- The first reference edge of this boot's step 1 sets the timestamp to 0 (R495). -/
  zeroT : Bool := false
  /-- The page program that the vigil domain holds: its address on the card and its bytes (R479). -/
  page : Option (Nat × List Byte) := none
  vstby : Bool := true
  last : Nat := 0
  seen : Nat := 0
  stopTime : Nat := 0
deriving DecidableEq, Repr

/-- A defect commit that is queued or running (R477): physical place, code, board, imported, tick, logical place. -/
structure DefectJob where
  X : Nat
  Y : Nat
  code : Nat
  board : Nat
  imported : Bool
  tick : Nat
  x : Nat
  y : Nat
deriving DecidableEq, Repr

/-- The mailbox command that runs (R475): ERASE and PROGRAM proceed sector by sector or page by page; the data of a PROGRAM
are what the DMA has read so far. -/
inductive SlateJob where
  | open_
  | close
  | abort
  | erase (ofs left : Nat)
  | program (ofs left : Nat) (data : List Byte)
  | journal
deriving DecidableEq, Repr

/-- The Slate (R456-R483): the card (an erased byte reads 0xFF), the boot's findings, the mailbox, the defect commits. -/
structure SlateSt where
  present : Bool := true
  card : SMap Byte := []
  booted : Bool := false
  bootFail : Nat := 0
  fallback : Bool := false
  runB : Bool := false
  journalLost : Bool := false
  voidSeen : Bool := false
  runSeq : Nat := 0
  life : Nat := 0
  defUsed : Nat := 0
  defValid : Nat := 0
  /-- The preferred copy of R471 is A. -/
  prefA : Bool := true
  argOfs : Word := 0
  argLen : Word := 0
  argLo : Word := 0
  argHi : Word := 0
  busy : Bool := false
  openSeq : Option Nat := none
  result : Nat := 0
  bytes : Nat := 0
  job : Option SlateJob := none
  /-- The sector being erased, and whether the erase is suspended for a defect commit. -/
  sector : Option Nat := none
  suspended : Bool := false
  queue : List DefectJob := []
  /-- The defect commit in progress, its step of R477, and the slots of its life and defect records. -/
  commit : Option (DefectJob × Nat × Nat × Nat) := none
  win : Word := 0
  /-- What boot step 5 has read of the running copy, until step 6 applies it (R472). -/
  held : SMap Byte := []
  /-- What the card's SFDP table declares; none if it cannot be read (R456). [DESIGN CHOICE log 62] -/
  sfdp : Option Sfdp := some {}
  /-- Bytes that the command in progress has erased or programmed. -/
  count : Nat := 0
  uid : List Byte := []
  fwKey : List Byte := []
deriving DecidableEq, Repr

/-- An entry of FAULT_QUAR (R616, R628). -/
structure QuarEnt where
  a : Word
  b : Word
deriving DecidableEq, Repr

/-- The FAULT block (R614-R628): event counters of violations are keyed by board, 16 for the device. -/
structure FaultSt where
  dev : Word := 0
  busErr : Word := 0
  splitUnit : Word := 0
  splitView : Word := 0
  splitTime : Nat := 0
  splitCount : Nat := 0
  quar : List QuarEnt := []
  quarCount : Nat := 0
  quarSel : Word := 0
  quarA : Word := 0
  quarB : Word := 0
  viol : SMap Nat := []
deriving DecidableEq, Repr

/-- A function of an endpoint, or the Steward (index 20): bus mastering, MSI-X table (words by offset; the mask bit is held
inverted, so that a vector is masked until unmasked) and pending bits, TILEWIN, the HI shadows of R625 (the word plus one).
PF of HEDh is 5h, its VF k is 5h + 1 + k. -/
structure FnSt where
  bme : Bool := false
  msix : SMap Word := []
  pba : SMap Nat := []
  tileSel : Word := 0
  tiles : SMap Word := []
  shadows : SMap Nat := []
  /-- Errors logged under AER: Completer Abort, Unsupported Request, poisoned. -/
  aer : SMap Nat := []
deriving DecidableEq, Repr

/-- The PCI Express endpoint of a HED (R489, R555). [DESIGN CHOICE log 112] -/
structure EndSt where
  perst : Bool := true
  training : Bool := false
  up : Bool := false
  gen : Nat := 0
  vfEnable : Bool := false
deriving DecidableEq, Repr

end Sys2Proof.Machine
end

