-- ==== Sys2Proof/Machine/MedState.lean ====
section
/-! DEFINITION. The state of a memory edge die and of the rim matrix (R258-R297). -/
namespace Sys2Proof.Machine

/-- The state of an open descriptor (Books of "Memory edge dies and the rim matrix"). -/
inductive DPhase where
  | queued | running | faulted | error | closing
deriving DecidableEq, Repr

/-- An open descriptor: the transfer of R239 and R274, how far it is, and how it ends. -/
structure Desc where
  phase : DPhase := .queued
  kind : Nat := 1
  /-- Element size in bytes. -/
  esz : Nat := 4
  ack : Bool := false
  rslot : Nat := 0
  dslot : Nat := 0
  rlane : Nat := 0
  tag : Nat := 0
  va : Nat := 0
  n0 : Nat := 1
  n1 : Nat := 1
  n2 : Nat := 1
  n3 : Nat := 1
  s1 : Int := 0
  s2 : Int := 0
  s3 : Int := 0
  col : Nat := 0
  /-- The lane the request came on. -/
  lane : Nat := 0
  host : Bool := false
  irq : Bool := false
  /-- The other-side address of KIND 3 to 5. -/
  other : Nat := 0
  /-- Elements that have left DRAM or a receive store, and elements delivered (R276). -/
  issued : Nat := 0
  delivered : Nat := 0
  cause : Nat := 0
  /-- STATUS of R242. -/
  status : Nat := 0
  /-- The completion record is already in the log (R279). -/
  logged : Bool := false
  /-- Acceptance order. -/
  acc : Nat := 0
deriving DecidableEq, Repr

/-- A flit in an injection store; `tag` names the descriptor whose element it is part of and whether it is the element's
last flit. -/
structure InjEntry where
  flit : Flit
  tag : Option (Nat × Bool) := none
deriving DecidableEq, Repr

/-- A received record that waits for acceptance: the MED cycle of its eighth flit, its slot, its words. -/
structure Rec where
  now : Nat
  key : Nat
  words : List Word
deriving DecidableEq, Repr

/-- A board's window in a MED (R295, R296): RW registers and captures by offset, the completion log, SUBMIT, faulted
descriptors oldest first. -/
structure MedWin where
  regs : SMap Word := []
  cpl : List Word := []
  lost : Bool := false
  submit : Nat := 0
  last : Nat := 0
  faults : List Nat := []
deriving DecidableEq, Repr

/-- One MED. Stores are keyed (2·column + lane)·32 + slot; descriptors 256·engine + 16·board + slot. -/
structure Med where
  dram : SMap Byte := []
  /-- Health of a 64-bit word: 0 good, 1 a single-bit error, 2 uncorrectable. -/
  ecc : SMap Nat := []
  /-- Receive roles: 0 UNUSED, 1 REQUEST, 2 DATA, 3 EGRESS (R263). -/
  role : SMap Nat := []
  /-- Injection roles: 0 UNUSED, 1 RETURN, 2 INJECT. -/
  injRole : SMap Nat := []
  /-- The Stesy channel slot of an EGRESS receive slot or an INJECT slot, plus one; 0 none. -/
  chan : SMap Nat := []
  rx : SMap (List Flit) := []
  inj : SMap (List InjEntry) := []
  asm : SMap (List Flit) := []
  recs : List Rec := []
  discard : List Nat := []
  discardN : SMap Nat := []
  desc : SMap Desc := []
  accNext : Nat := 0
  rrBoard : SMap Nat := []
  rrSlot : SMap Nat := []
  /-- Per engine, the boards with a beat in flight: the complement of QUIESCENT. -/
  busy : SMap Nat := []
  wins : SMap MedWin := []
  ce : Nat := 0
  eccLast : Word := 0
  selfRefresh : Bool := false
deriving DecidableEq, Repr

/-- A rim command that waits for its response, in command order of its path: whether it is a read, with the bytes its response
carries, or ROOM and FULL of a wafer-window write (R268). -/
structure RimCmd where
  ctx : Option Nat
  ofs : Nat
  beats : Nat
  read : Bool := false
  data : List Byte := []
  room : Option (Nat × Bool) := none
deriving DecidableEq, Repr

/-- The rim matrix: register slices, corrected beats and outstanding commands per path (32·master + target), the master last
granted per target, the captured path. -/
structure Rim where
  slices : SMap Nat := []
  ce : SMap Nat := []
  cmds : SMap (List RimCmd) := []
  last : SMap Nat := []
  sel : Word := 0
  stat : Word := 0
deriving DecidableEq, Repr

end Sys2Proof.Machine
end

