-- ==== Sys2Proof/Machine/MeshState.lean ====
section
/-! DEFINITION. The state between bricks: segment maps, tie bridges, edge bridges. -/
namespace Sys2Proof.Machine

/-- A segment (R34-R41): its defects from the three lists, the defect set its applied map was made from, PENDING. -/
structure Seg where
  factory : BitVec 96 := 0
  journal : BitVec 96 := 0
  quar : BitVec 96 := 0
  mapDef : BitVec 96 := 0
  pending : Bool := false
deriving DecidableEq, Repr

/-- A transfer on a tie (R195): its sequence number, its slot at the receiving input and its flit. -/
structure Xfer where
  seq : Nat
  slot : Nat
  flit : Flit
deriving DecidableEq, Repr

/-- The acknowledgement of a return word (R196). -/
inductive Ack where
  | none
  | ack (n : Nat)
  | nak (n : Nat)
deriving DecidableEq, Repr

/-- A return word (R196): the landing-store slot freed, if any, and the acknowledgement. -/
structure RetWord where
  credit : Option Nat
  ak : Ack
deriving DecidableEq, Repr

/-- One direction of a tie, with its sending and receiving bridge (R195-R200). Keyed by the receiving brick's logical
place and input: 4·(1104·y + x) + d. -/
structure Tie where
  /-- Flits forwarded into the tie and not yet sent as a transfer. -/
  out : List Xfer := []
  /-- The first tcyc of the sending field in which the tie can take its next transfer. [DESIGN CHOICE log 122] -/
  busyT : Nat := 0
  nextSeq : Nat := 0
  /-- Transfers sent and not covered by an ACK, oldest first. -/
  replay : List Xfer := []
  /-- Transfers of the replay store still to be sent again. -/
  again : List Xfer := []
  /-- Transfers on the wires: beat 0 and beat 1 of each. -/
  wire : List (BitVec 25 × BitVec 25) := []
  lastSend : Nat := 0
  expect : Nat := 0
  nakOut : Bool := false
  fails : Nat := 0
  landing : SMap (List Flit) := []
  /-- Slots of the receiving router input for which a buffer is taken: credits spent by the bridge. -/
  spent : SMap Nat := []
  moveT : Nat := 0
  /-- Landing-store slots freed and acknowledgements, not yet on a return word; one more than the tcyc of the last one. -/
  retCred : List Nat := []
  retAck : List Ack := []
  retT : Nat := 0
  retries : Nat := 0
  retriesRead : Nat := 0
  dead : Bool := false
deriving DecidableEq, Repr

/-- One direction of an edge bridge: transfers as on a tie, each in one beat on the wires of its lane (R204). -/
structure Crossing where
  nextSeq : Nat := 0
  /-- Transfers not covered by an ACK, oldest first, each with its lane. -/
  replay : List (Nat × Xfer) := []
  /-- Transfers on the wires, with their lanes. -/
  wire : List (Nat × BitVec 50) := []
  expect : Nat := 0
  nakOut : Bool := false
  fails : Nat := 0
  /-- Acknowledgements on their way back. -/
  ret : List Ack := []
deriving DecidableEq, Repr

/-- The edge bridge of one column end (R202-R204), keyed 2·column + (1 for south): its outward and inward crossing, the
landing store per slot, credits spent toward the router input and by the MED, the slot last served per lane. -/
structure EdgeBr where
  out : Crossing := {}
  inn : Crossing := {}
  landing : SMap (List Flit) := []
  spent : SMap Nat := []
  medSpent : SMap Nat := []
  lastSlot : SMap Nat := []
  moveT : Nat := 0
  moved : List Nat := []
  relT : SMap Nat := []
  retries : Nat := 0
  retriesRead : Nat := 0
  dead : Bool := false
deriving DecidableEq, Repr

end Sys2Proof.Machine
end

