-- ==== Sys2Proof/Machine/State.lean ====
section
/-! DEFINITION. The state of the part, the reasons a step can stop, and the state after reset. -/
namespace Sys2Proof.Machine

/-- Why a step faults. No command of this part faults: each has an effect the spec states, waits, or is answered on the bus. -/
inductive Fault where
  /-- Raised by no step; the part stops for nothing. Safe. -/
  | stuck
deriving DecidableEq, Repr

/-- Why a step is refused. -/
inductive Refusal where
  /-- A command that has no meaning yet; answered by the dispatch alone. Safe. -/
  | notModelled (mnemonic : String)
deriving DecidableEq, Repr

/-- What the last command answered: nothing yet, done, held (its conditions do not hold; nothing else changed), ignored, a
value or bytes read, ROOM and FULL of a wafer-window write (R268), a violation (R621), a Completer Abort or Steward bus fault (R622), an Unsupported Request (R564). [DESIGN CHOICE log 2] -/
inductive Resp where
  | none
  | done
  | held
  | ignored
  | value (v : Word)
  | value64 (v : DWord)
  | bytes (l : List Byte)
  | room (free : Nat) (full : Bool)
  | violation
  | busError
  | unsupported
deriving DecidableEq, Repr

/-- The state of a field's mesh (R504). -/
inductive Mesh where
  | off | stopped | locking | locked | relock | rephase
deriving DecidableEq, Repr

/-- A field: mesh, operating points and sequencer, droop, energy (R502-R508, R532-R552). PHASE: 0 idle, 1 voltage or confirm,
2 frequency, 3 frozen. Activity counts are keyed 16·board + class. [DESIGN CHOICE log 113] -/
structure FieldSt where
  mesh : Mesh := .off
  m : Nat := 0
  target : Nat := 0
  granted : Nat := 0
  current : Nat := 0
  wcap : Nat := 0
  fcap : Nat := 0
  therm : Nat := 0
  fcapW : Nat := 0
  phase : Nat := 0
  /-- The transition: its destination, and the direction. -/
  dest : Nat := 0
  up : Bool := false
  voltCmd : Nat := 0
  volt : Nat := 0
  /-- A command that the confirmation has not answered yet. -/
  voltWait : Bool := false
  stretch : Nat := 0
  /-- A change of M has fallen in the switch of references in progress (R517). -/
  swM : Bool := false
  droop : Nat := 0
  act : SMap Nat := []
  v0 : Nat := 0
  t0 : Int := 0
  modelFJ : Nat := 0
  model : Nat := 0
  meas : Nat := 0
  unasgFJ : Nat := 0
  unasg : Nat := 0
deriving DecidableEq, Repr

/-- A fault raised and not yet reported (R612). -/
structure Raised where
  code : Nat
  board : Option Nat
  brick : Option (Nat × Nat)
  phys : Nat
  detail : Word
  tick : Nat
  /-- For a FAULT_DED: its word had failed before (R614). -/
  again : Bool
  /-- Judged by the management path (R619, R620). -/
  mgmt : Bool := false
  /-- The brick's own record holds this fault (R611). -/
  kept : Bool := false
deriving DecidableEq, Repr

/-- What the device writes to the host: an MSI-X message of a function, or the record in slot n of a channel's completion
ring. -/
inductive HostMsg where
  | irq (fn vec : Nat)
  | cpl (hed chan slot : Nat) (rec : List Byte)
deriving DecidableEq, Repr

/-- The part. `pending`, `resp`, `freeCtr` and `toHost` are the model's own: the queue of commands, the answer to the last
one, the count of open values taken, and what has gone to the host, oldest first. -/
structure State where
  pending : List Instr := []
  resp : Resp := .none
  freeCtr : Nat := 0
  toHost : List HostMsg := []
  bricks : SMap Brick := []
  segs : SMap Seg := []
  mapsReady : Bool := false
  gridSel : Word := 0
  grid : SMap Word := []
  ties : SMap Tie := []
  edges : SMap EdgeBr := []
  boards : SMap Board := []
  fields : SMap FieldSt := []
  meds : SMap Med := []
  rim : Rim := {}
  heds : SMap Hed := []
  wafer : Nat := 0
  fns : SMap FnSt := []
  ends : SMap EndSt := []
  /-- The timestamp (R312). -/
  now : Nat := 0
  time : TimeSt := {}
  clk : ClkSt := {}
  pwr : PwrSt := {}
  boot : BootSt := {}
  vigil : VigilSt := {}
  slate : SlateSt := {}
  flt : FaultSt := {}
  raised : List Raised := []
  flowOk : Bool := false
  tap : TapState := {}
deriving DecidableEq, Repr

/-- The part after reset: every board undefined, every brick STOPPED, every field OFF, boot at step 1 and not begun, the vigil
domain as after a vigil loss. [DESIGN CHOICE log 4, DESIGN CHOICE log 5] [DESIGN CHOICE log 4] -/
def State.reset : State := {}

end Sys2Proof.Machine
end

