-- ==== Sys2Proof/Machine/Ops.lean ====
section
/-! DEFINITION. The named operations over the state: bricks by logical place, maps, boards, event counters, data SRAM and its
check bits, router entries and channels, and raising a fault of a brick. -/
namespace Sys2Proof.Machine

/-! ### Answers -/

/-- The outcome of a command: the state it makes, answering `done`; a command whose conditions do not hold waits: it
answers `held` and changes nothing else. [DESIGN CHOICE log 2] -/
def answer (s : State) (o : Option State) : Host.Outcome State Fault Refusal :=
  match o with
  | some s' => .next { s' with resp := .done }
  | none => .next { s with resp := .held }

/-- The outcome of a command that does not act while the device waits for a reference (R521). [DESIGN CHOICE log 2] -/
def answerRun (s : State) (o : Option State) : Host.Outcome State Fault Refusal :=
  answer s (if s.clk.waiting then none else o)

/-- The outcome of a command that sets its own answer. [DESIGN CHOICE log 2] -/
def reply (s : State) (o : Option State) : Host.Outcome State Fault Refusal :=
  match o with
  | some s' => .next s'
  | none => .next { s with resp := .held }

/-- The same for a command that does not act while the device waits for a reference (R521). [DESIGN CHOICE log 2] -/
def replyRun (s : State) (o : Option State) : Host.Outcome State Fault Refusal :=
  reply s (if s.clk.waiting then none else o)

/-! ### Maps (R33-R41) -/

/-- Key of a segment: field column and row. -/
def segKey (c y : Nat) : Nat := 560 * c + y

def getSeg (s : State) (c y : Nat) : Seg := sget {} s.segs (segKey c y)
def setSeg (s : State) (c y : Nat) (g : Seg) : State := { s with segs := sset {} s.segs (segKey c y) g }

/-- The defective positions of a segment: the three lists of ch. "Fields, joints and the logical grid". -/
def segDefects (g : Seg) : BitVec 96 := g.factory ||| g.journal ||| g.quar

/-- Set bits among positions below n. -/
def popBelow (d : BitVec 96) : Nat → Nat
  | 0 => 0
  | n + 1 => popBelow d n + b2n (d.getLsbD n)

/-- Exhausted: 5 or more defective bricks (R38). -/
def exhausted (d : BitVec 96) : Bool := decide (5 ≤ popBelow d 96)

/-- The position of the (k+1)-th non-defective brick at or after position p, with n positions left (R34). -/
def posFrom (d : BitVec 96) : Nat → Nat → Nat → Option Nat
  | 0, _, _ => none
  | n + 1, p, k =>
    if d.getLsbD p then posFrom d n (p + 1) k
    else match k with
      | 0 => some p
      | k' + 1 => posFrom d n (p + 1) k'

/-- The position that backs logical column k under the map made from defect set d: none if the map is empty. -/
def mapPos (d : BitVec 96) (k : Nat) : Option Nat := if exhausted d then none else posFrom d 96 0 k

/-- Does position p back a logical brick under the map made from d (R51)? -/
def posUsed (d : BitVec 96) (p : Nat) : Bool :=
  !exhausted d && !d.getLsbD p && decide (p < 96) && decide (p - popBelow d p < 92)

/-- An open 48-bit count. [DESIGN CHOICE log 3] -/
def freeCount (n : Nat) : Nat := (Config.freeWord n).toNat + 2 ^ 32 * fld (Config.freeWord (n + 1)) 0 16

/-- The physical column of logical (x, y) under the applied map (R34); none before boot has made the maps. -/
def physX (s : State) (x y : Nat) : Option Nat :=
  if s.mapsReady then (mapPos (getSeg s (x / 92) y).mapDef (x % 92)).map (fun p => 96 * (x / 92) + p) else none

/-- Key of a physical brick. -/
def brickKey (X y : Nat) : Nat := 1152 * y + X

/-- The key of a logical brick. -/
def keyOf (s : State) (x y : Nat) : Option Nat := (physX s x y).map (fun X => brickKey X y)

def getB (s : State) (k : Nat) : Brick := sget Brick.reset s.bricks k
def setB (s : State) (k : Nat) (b : Brick) : State := { s with bricks := sset Brick.reset s.bricks k b }
def modB (s : State) (k : Nat) (f : Brick → Brick) : State := setB s k (f (getB s k))

/-- The logical column of a physical brick under the applied map, if it backs one. -/
def logX (s : State) (X y : Nat) : Option Nat :=
  let d := (getSeg s (X / 96) y).mapDef
  if s.mapsReady && posUsed d (X % 96) then some (92 * (X / 96) + (X % 96 - popBelow d (X % 96))) else none

/-- The field of a logical brick (R11): 12·r + c. -/
def fieldOf (x y : Nat) : Nat := 12 * (y / 80) + x / 92

def getField (s : State) (f : Nat) : FieldSt := sget {} s.fields f
def setField (s : State) (f : Nat) (v : FieldSt) : State := { s with fields := sset {} s.fields f v }

/-- A field's brick clocks run (R505, R517). [DEDUCED log 9] -/
def clkRuns (s : State) (f : Nat) : Bool :=
  (getField s f).mesh == .locked || (getField s f).mesh == .rephase

/-! ### Boards -/

def getBd (s : State) (b : Nat) : Board := sget {} s.boards b
def setBd (s : State) (b : Nat) (v : Board) : State := { s with boards := sset {} s.boards b v }
def modBd (s : State) (b : Nat) (f : Board → Board) : State := setBd s b (f (getBd s b))

/-- Does a board's rectangle contain a logical brick (R413)? -/
def inRect (bd : Board) (x y : Nat) : Bool :=
  bd.st != .undefined && decide (bd.x0 ≤ x ∧ x ≤ bd.x1 ∧ bd.y0 ≤ y ∧ y ≤ bd.y1)

/-- The defined board whose rectangle contains (x, y), if any. -/
def boardAt (s : State) (x y : Nat) : Option Nat :=
  (s.boards.find? (fun p => inRect p.2 x y)).map (·.1)

/-- A brick's OUT for barrier k as tcyc t sees it: a release due by t has taken effect at its start (R303). [DESIGN CHOICE log 22] -/
def outAt (s : State) (x y : Nat) (b : Brick) (k t : Nat) : Nat :=
  sget 0 b.barOut k - (match boardAt s x y with
    | some n => (getBd s n).releases.countP (fun r => r.bar == k && r.x == x && r.y == y && r.due.any (fun d => decide (d ≤ t)))
    | none => 0)

/-- Contract counters count while the board is RUNNING or DRAINING (R438). -/
def counting (s : State) (x y : Nat) : Bool :=
  match boardAt s x y with
  | some b => (getBd s b).st == .running || (getBd s b).st == .draining
  | none => false

/-- Something moved in the board of (x, y) since the detector's last tcyc (R307). -/
def touch (s : State) (x y : Nat) : State :=
  match boardAt s x y with
  | some b => modBd s b (fun bd => { bd with moved := true })
  | none => s

/-- A field's controller counts n units of an activity class for the board of (x, y) (R548). -/
def activity (s : State) (x y cls n : Nat) : State :=
  match boardAt s x y with
  | some b =>
    let f := fieldOf x y
    let v := getField s f
    setField s f { v with act := smod 0 v.act (16 * b + cls) (· + n) }
  | none => s

/-! ### Event counters (R623): the count in bits [47:0], OVF above it -/

/-- `n` events on a 48-bit event counter. -/
def evAdd (c n : Nat) : Nat :=
  let v := c % 2 ^ 48 + n
  if v < 2 ^ 48 then (c / 2 ^ 48) * 2 ^ 48 + v else 2 ^ 49 - 1

/-- LO and HI words of an event counter. -/
def evLo (c : Nat) : Word := BitVec.ofNat 32 c
def evHi (c : Nat) : Word := packW [(0, 16, c / 2 ^ 32), (31, 1, c / 2 ^ 48)]

/-- Indices of a brick's counters: the contract counters at their index of R436, then the event counters. -/
def cRetry : Nat := 0x100
def cSecLink : Nat := 0x101
def cSecPmem : Nat := 0x102
def cSecSram : Nat := 0x103
def cElem (k : Nat) : Nat := 0x110 + k

def bump (b : Brick) (i n : Nat) : Brick := { b with cnt := smod 0 b.cnt i (fun c => evAdd c n) }

/-- A contract counter counts only while its board counts. -/
def bumpC (on : Bool) (b : Brick) (i n : Nat) : Brick := if on then bump b i n else b

/-! ### A brick's tcyc -/

/-- The brick at tcyc t of its field: the record of what its units did belongs to one tcyc. None if t has passed. [DESIGN CHOICE log 7] -/
def brickAt (b : Brick) (t : Nat) : Option Brick :=
  if t < b.useT then none else if b.useT = t then some b else some { b with useT := t, used := [] }

/-- Marks of a tcyc: queue issues 0-2, dispatch 3, banks 4-7, stream unit 8, expert queue 9, scatter engine 10, replays
11-14, notices 15-18, outputs granted 20-26, outputs examined 30-36, stalls charged 60-62, inputs 40+8·i and up. [DESIGN CHOICE log 7] -/
def marked (b : Brick) (m : Nat) : Bool := b.used.contains m
def mark (b : Brick) (m : Nat) : Brick := { b with used := m :: b.used }

/-- How many of the marks given a brick carries. [DESIGN CHOICE log 7] -/
def markCount (b : Brick) (ms : List Nat) : Nat := b.used.countP (fun m => ms.contains m)

/-- The activity that a step adds to its field's counts (R548), read off the marks it sets: V-queue issues, bank grants from
every unit, non-local outputs granted. -/
def countMarks (s : State) (x y k : Nat) (b : Brick) : State :=
  let a := getB s k
  let n := fun (ms : List Nat) => markCount a ms - markCount b ms
  activity (activity (activity s x y 4 (n [1])) x y 5 (n [4, 5, 6, 7])) x y 6 (n [20, 21, 22, 23, 25, 26])

/-- The common guard of a step in tcyc t: the brick exists, its field's clock runs, t has not passed. [DEDUCED log 9, DESIGN CHOICE log 114] -/
def tcycAct (s : State) (x y t : Nat) (f : Nat → Brick → Option State) : Option State :=
  match keyOf s x y with
  | none => none
  | some k =>
    if !clkRuns s (fieldOf x y) then none
    else match brickAt (getB s k) t with
      | none => none
      | some b' => (f k b').map (fun s' => countMarks s' x y k b')

/-- A step of a brick that is neither STOPPED nor QUARANTINED (R71). [DEDUCED log 9] -/
def brickAct (s : State) (x y t : Nat) (f : Nat → Brick → Option State) : Option State :=
  tcycAct s x y t (fun k b => if b.st == .stopped || b.st == .quarantined then none else f k b)

/-- Does the brick at (x, y) lie in a loaded board, so that its router serves that board (R193)? -/
def serves (s : State) (x y : Nat) : Bool :=
  match boardAt s x y with
  | some b =>
    let p := (getBd s b).st
    p == .loaded || p == .running || p == .draining || p == .halted || p == .stalemate
  | none => false

/-! ### Data SRAM (R64, R650) -/

/-- Bank of a byte address. -/
def bankOf (a : Nat) : Nat := a / 0x3000

/-- A valid access of n bytes. -/
def sramOk (a n : Nat) : Bool := decide (a < 0xC000) && a % n == 0

/-- The health of the 64-bit words that n bytes at a touch: single-bit errors found, and the first uncorrectable word. [DEDUCED log 15, DESIGN CHOICE log 109] -/
def sramHealth (b : Brick) (a n : Nat) : Nat × Option Nat :=
  (List.range ((n + 7) / 8)).foldl (fun (acc : Nat × Option Nat) i =>
    match sget 0 b.sramEcc (a / 8 + i), acc.2 with
    | 0, _ => acc
    | 1, _ => (acc.1 + 1, acc.2)
    | _, none => (acc.1, some (8 * (a / 8 + i)))
    | _, some _ => acc) (0, none)

/-- The little-endian value of n bytes at a. -/
def sramVal (b : Brick) (a n : Nat) : Nat := readLE b.sram a n

/-- The 32-bit word at a. -/
def sramWord (b : Brick) (a : Nat) : Word := BitVec.ofNat 32 (sramVal b a 4)

/-- A read of n bytes: corrected reads are counted; the uncorrectable word, if one is found. [DEDUCED log 15] -/
def sramRead (b : Brick) (a n : Nat) : Brick × Nat × Option Nat :=
  let h := sramHealth b a n
  (if h.1 = 0 then b else bump b cSecSram h.1, sramVal b a n, h.2)

/-- Fresh check bits for the words that n bytes at a touch. -/
def freshEcc (b : Brick) (a n : Nat) : Brick :=
  { b with sramEcc := (List.range ((n + 7) / 8)).foldl (fun m i => sset 0 m (a / 8 + i) 0) b.sramEcc }

/-- A write of bytes at a (R650): 8 bytes or more write whole words with fresh check bits; 4 bytes read, merge and write,
and are not made if the word read is uncorrectable (that word's address is answered). -/
def sramWrite (b : Brick) (a : Nat) (bytes : List Byte) : Brick × Option Nat :=
  let put := fun (b : Brick) => freshEcc { b with sram := writeBytes 0 b.sram a bytes } a bytes.length
  if 8 ≤ bytes.length then (put b, none)
  else
    let h := sramHealth b a bytes.length
    match h.2 with
    | some w => (b, some w)
    | none => (put (if h.1 = 0 then b else bump b cSecSram h.1), none)

/-! ### Register space of a brick: configuration by offset, observation by offset -/

def cfgW (b : Brick) (ofs : Nat) : Word := sget 0 b.cfg ofs
def obsW (b : Brick) (ofs : Nat) : Word := sget 0 b.obs ofs
def setCfg (b : Brick) (ofs : Nat) (v : Word) : Brick := { b with cfg := sset 0 b.cfg ofs v }
def setObs (b : Brick) (ofs : Nat) (v : Word) : Brick := { b with obs := sset 0 b.obs ofs v }

/-- BRK_PORT_CFG_Qn (R80). -/
def portEn (b : Brick) (n : Nat) : Bool := bitAt (cfgW b (0x200 + 4 * n)) 31
def portOwner (b : Brick) (n : Nat) : Nat := fld (cfgW b (0x200 + 4 * n)) 24 3

/-- Do the ports accept flits in this state (R71)? -/
def portsAccept (b : Brick) : Bool :=
  b.st == .loaded || b.st == .running || b.st == .draining || b.st == .halted

/-! ### Ports -/

def portQ (b : Brick) (n : Nat) : List Flit := sget [] b.ports n
def setPort (b : Brick) (n : Nat) (q : List Flit) : Brick := { b with ports := sset [] b.ports n q }

/-- Entries of a port that can be popped in tcyc t (R59). -/
def portReady (b : Brick) (n t : Nat) : Nat := ((portQ b n).filter (fun f => decide (f.due ≤ t))).length

/-- The null flags with NF[n] set to m (R62). -/
def setNF (b : Brick) (n : Nat) (m : Bool) : Brick :=
  { b with nf := if m then b.nf ||| (1#8 <<< n) else b.nf &&& ~~~(1#8 <<< n) }

/-- Frees a port entry: its credit reaches the feeding slot in t + 1 (R59). -/
def freePort (b : Brick) (n t : Nat) : Brick := { b with credFly := b.credFly ++ [⟨t + 1, 160 + n⟩] }

/-- Pops the head entry of a port in tcyc t, for any consumer: every pop sets NF[n] to the entry's null marker (R62). -/
def popRaw (on : Bool) (b : Brick) (n t : Nat) : Brick × Flit :=
  match portQ b n with
  | [] => (b, {})
  | f :: r => (setNF (bumpC on (freePort (setPort b n r) n t) (8 + n) 1) n f.null, f)

/-- Pops in order: the brick after them, and the entries (R62). -/
def popAll (on : Bool) (t : Nat) : List Nat → Brick → List Flit → Brick × List Flit
  | [], b, acc => (b, acc.reverse)
  | n :: r, b, acc => popAll on t r (popRaw on b n t).1 ((popRaw on b n t).2 :: acc)

/-- The value an entry delivers (R62). -/
def flitVal (f : Flit) : Word := if f.null then 0 else f.data

/-! ### Router entries and channels (R205, R211, R217) -/

/-- Offset of the entry of slot s of input i. -/
def rtOfs (i s : Nat) : Nat := 0x300 + 0x80 * i + 4 * s
def rtEntry (b : Brick) (i s : Nat) : Word := cfgW b (rtOfs i s)

/-- A branch: output direction (0 N, 1 E, 2 S, 3 W, 4 local, 5 EDGE0, 6 EDGE1) and next slot or port. -/
structure Branch where
  dir : Nat
  next : Nat
deriving DecidableEq, Repr

/-- The branches of an entry in slot s by its own bits: none if disabled; one for a Tirkan word (R217), whose NEXT is s. -/
def branches (e : Word) (s : Nat) : List Branch :=
  if !bitAt e 31 then []
  else if bitAt e 30 then
    if fld e 23 6 ≠ 0 then [⟨if bitAt e 29 then 3 else 1, s⟩]
    else if fld e 16 6 ≠ 0 then [⟨if bitAt e 22 then 2 else 0, s⟩]
    else [⟨4, fld e 13 3⟩]
  else
    let br := fun d n => Branch.mk d (if d = 4 then n % 8 else n)
    br (fld e 27 3) (fld e 22 5) :: (if bitAt e 21 then [br (fld e 18 3) (fld e 13 5)] else [])

/-- The branches of slot ix = 32·input + slot of a brick: a Tirkan route word that a load has translated leads where its path
begins (R217, R218). [DEDUCED log 123] -/
def slotBranches (b : Brick) (ix : Nat) : List Branch :=
  let e := rtEntry b (ix / 32) (ix % 32)
  if bitAt e 31 && bitAt e 30 && sget 0 b.twDir ix != 0 then
    let d := sget 0 b.twDir ix - 1
    [⟨d, if d = 4 then fld e 13 3 else ix % 32⟩]
  else branches e (ix % 32)

/-- The sender of a local-input entry (R205, R211). -/
def entrySrc (e : Word) : Nat := fld e 11 2

/-- The neighbour in a direction, if the grid has one. -/
def neighbour (x y d : Nat) : Option (Nat × Nat) :=
  match d with
  | 0 => if y = 0 then none else some (x, y - 1)
  | 1 => if x < 1103 then some (x + 1, y) else none
  | 2 => if y < 559 then some (x, y + 1) else none
  | 3 => if x = 0 then none else some (x - 1, y)
  | _ => none

/-- The input of the neighbour that faces direction d. -/
def facing (d : Nat) : Nat := (d + 2) % 4

/-- Do two neighbouring bricks lie on two sides of a joint? -/
def crossesJoint (x y d : Nat) : Bool :=
  match neighbour x y d with
  | some (x', y') => fieldOf x y != fieldOf x' y'
  | none => false

/-- Key of the tie direction that feeds input d of (x, y). -/
def tieKey (x y d : Nat) : Nat := 4 * (1104 * y + x) + d

def getTie (s : State) (k : Nat) : Tie := sget {} s.ties k
def setTie (s : State) (k : Nat) (v : Tie) : State := { s with ties := sset {} s.ties k v }

/-- Key of the edge bridge of a column end. -/
def edgeKey (x : Nat) (south : Bool) : Nat := 2 * x + b2n south
def getEdge (s : State) (k : Nat) : EdgeBr := sget {} s.edges k
def setEdge (s : State) (k : Nat) (v : EdgeBr) : State := { s with edges := sset {} s.edges k v }

/-- A leaf of a channel: an operand port, or a lane and receive slot of an edge port. -/
inductive Leaf where
  | port (x y n : Nat)
  | edge (x : Nat) (south : Bool) (lane slot : Nat)
  | broken (x y : Nat)
deriving DecidableEq, Repr

/-- The leaves of the channel whose first entry is slot s of input i of (x, y), and whether a joint is crossed on the way
to each; `fuel` hops are followed. -/
def leavesGo (s : State) : Nat → Nat → Nat → Nat → Nat → Bool → List (Leaf × Bool)
  | 0, x, y, _, _, j => [(.broken x y, j)]
  | fuel + 1, x, y, i, sl, j =>
    match keyOf s x y with
    | none => [(.broken x y, j)]
    | some k =>
      (slotBranches (getB s k) (32 * i + sl)).flatMap (fun br =>
        if br.dir = 4 then [(Leaf.port x y br.next, j)]
        else if br.dir = 5 ∨ br.dir = 6 then [(Leaf.edge x (y != 0) (br.dir - 5) br.next, j)]
        else match neighbour x y br.dir with
          | none => [(.broken x y, j)]
          | some (x', y') => leavesGo s fuel x' y' (facing br.dir) br.next (j || crossesJoint x y br.dir))

/-- The leaves of a channel. -/
def leaves (s : State) (x y i sl : Nat) : List (Leaf × Bool) := leavesGo s 4096000 x y i sl false

/-- The expert queue that a port is an inbound port of, if any (R328). -/
def eqOfPort (b : Brick) (n : Nat) : Option Nat :=
  (List.range 4).find? (fun q =>
    bitAt (cfgW b (0x240 + 0x10 * q)) 31 && (fld (cfgW b (0x244 + 0x10 * q)) 24 8).testBit n)

/-- Does the channel of local slot sl end at an inbound port of an expert queue (R339)? -/
def toExpert (s : State) (x y sl : Nat) : Bool :=
  (leaves s x y 4 sl).any (fun l => match l.1 with
    | .port x' y' n => (keyOf s x' y').any (fun k => (eqOfPort (getB s k) n).isSome)
    | _ => false)

/-! ### Faults of a brick (R72, R611, R626) -/

/-- Unit codes of BRK_FLT_STAT. -/
def uFetch : Nat := 0
def uQue : Que → Nat
  | .s => 1 | .v => 2 | .t => 3
def uStream : Nat := 4
def uExpert : Nat := 5
def uRouter : Nat := 6
def uMgmt : Nat := 7

/-- Fault codes of R609. -/
def fILLEGAL : Nat := 0x01
def fPC_RANGE : Nat := 0x02
def fREPEAT_DEPTH : Nat := 0x03
def fADDR : Nat := 0x04
def fCASTLE : Nat := 0x05
def fSTREAM : Nat := 0x06
def fEXPERT : Nat := 0x07
def fROUTE : Nat := 0x08
def fDED : Nat := 0x10
def fLINK : Nat := 0x11
def fSIDEBAND : Nat := 0x12
def fTIE : Nat := 0x13
def fEDGE : Nat := 0x14
def fMEM_DED : Nat := 0x15
def fRIM : Nat := 0x16
def fLEXICON : Nat := 0x17
def fTOKEN_RETURN : Nat := 0x20
def fFAR_FORMAT : Nat := 0x21
def fSTALEMATE : Nat := 0x28
def fGRAMMAR : Nat := 0x29
def fDEPARTURE : Nat := 0x2A
def fHOST_DMA : Nat := 0x2B
def fBOARD_RESET : Nat := 0x30
def fSTEWARD : Nat := 0x31

/-- A fault joins the list of faults waiting to be reported (R612). -/
def raiseAt (s : State) (code : Nat) (board : Option Nat) (detail : Word) : State :=
  { s with raised := s.raised ++ [
    { code := code, board := board, brick := none, phys := 0, detail := detail, tick := s.now, again := false }] }

/-- The PC field of the fault registers: the fetch position (R76). -/
def pcField (b : Brick) : Nat := b.pc % 2048

/-- The brick's own fault record: the first fault since load is kept; of faults detected in one tcyc, the lowest code. -/
def keepsFault (b : Brick) (code t : Nat) : Bool :=
  let old := obsW b 0xC00
  !(bitAt old 31 && !(b.fltT == t + 1 && decide (code < fld old 16 8)))

/-- The record after a fault. [DEDUCED log 117] -/
def recordFault (b : Brick) (code unit t : Nat) (detail : Word) : Brick :=
  if !keepsFault b code t then b
  else
    { setObs (setObs b 0xC00 (packW [(0, 11, pcField b), (12, 4, unit), (16, 8, code), (31, 1, 1)])) 0xC04 detail with
      fltT := t + 1 }

/-- The brick raises a fault in tcyc t: it records it, enters FAULTED (R72), and passes it on toward its board's record. -/
def faultBrick (s : State) (k x y : Nat) (b : Brick) (code unit t : Nat) (detail : Word) : State :=
  let ded := code = fDED
  let again := ded && b.dedWords.contains detail.toNat
  let b1 := recordFault b code unit t detail
  let b2 := if ded then
      { setObs b1 0xC08 (packW [(0, 16, detail.toNat), (30, 1, b2n (bitAt detail 31)), (31, 1, 1)]) with
        dedWords := if b.dedWords.contains detail.toNat then b.dedWords else detail.toNat :: b.dedWords }
    else b1
  let b3 := { b2 with st := if b2.st == .quarantined then .quarantined else .faulted }
  let s1 := setB s k b3
  { s1 with raised := s1.raised ++ [
    { code := code, board := boardAt s x y, brick := some (x, y), phys := k, detail := detail, tick := s.now, again := again
      mgmt := unit == uMgmt, kept := keepsFault b code t }] }

/-- An optional fault at the end of a brick's step. -/
def finishB (s : State) (k x y : Nat) (b : Brick) (unit t : Nat) : Option (Nat × Word) → State
  | none => setB s k b
  | some (code, detail) => faultBrick s k x y b code unit t detail

end Sys2Proof.Machine
end

