-- ==== Sys2Proof/Machine/Barrier.lean ====
section
/-! DEFINITION. Barriers: arrivals at the root, generations, releases (R298-R305). -/
namespace Sys2Proof.Machine

/-- The bricks of a board that the state lists: logical place and key. -/
def boardBricks (s : State) (n : Nat) : List (Nat × Nat × Nat) :=
  s.bricks.filterMap (fun p =>
    match logX s (p.1 % 1152) (p.1 / 1152) with
    | some x => if inRect (getBd s n) x (p.1 / 1152) then some (x, p.1 / 1152, p.1) else none
    | none => none)

/-- BRK_BAR_PART bit k (R321). -/
def barPart (b : Brick) (k : Nat) : Bool := bitAt (cfgW b (0x700 + 4 * (k / 32))) (k % 32)

/-- The participants of barrier k (R298). -/
def participants (s : State) (n k : Nat) : List (Nat × Nat × Nat) :=
  (boardBricks s n).filter (fun p => barPart (getB s p.2.2) k)

/-- Fields of BRD_BAR_DECL_k (R323). -/
def barDeclW (bd : Board) (k : Nat) : Word := sget 0 bd.barDecl k
def barOn (bd : Board) (k : Nat) : Bool := bitAt (barDeclW bd k) 31
def barTimed (bd : Board) (k : Nat) : Bool := bitAt (barDeclW bd k) 30
def barP (bd : Board) (k : Nat) : Nat := fld (barDeclW bd k) 0 20

/-- The root's field: the lowest field row, then the lowest field column, of the participants (R304). -/
def rootField (s : State) (n k : Nat) : Nat :=
  ((participants s n k).map (fun p => fieldOf p.1 p.2.1)).foldl Nat.min 84

/-- Do all participants lie in one field (R305)? -/
def oneField (s : State) (n k : Nat) : Bool :=
  (participants s n k).all (fun p => fieldOf p.1 p.2.1 == rootField s n k)

/-- Root counts are keyed 2·barrier + parity. -/
def barCKey (k q : Nat) : Nat := 2 * k + q

/-- The oldest open generation completes if its count is full and, for a TIMED barrier, a gate credit is held (R301); then
the next one is looked at. `at_` is the tcyc at which a local release takes effect (R304), none across fields. [DESIGN CHOICE log 22] -/
def completeGo (s : State) (n k : Nat) : Nat → Option Nat → State
  | 0, _ => s
  | fuel + 1, at_ =>
    let bd := getBd s n
    let gen := sget 0 bd.barGen k
    let ck := barCKey k (gen % 2)
    if barOn bd k && sget 0 bd.barC ck == barP bd k && (!barTimed bd k || decide (0 < sget 0 bd.barGate k)) then
      let rel := (participants s n k).map (fun p => (⟨k, p.1, p.2.1, at_⟩ : Release))
      completeGo (setBd s n { bd with
        barC := sset 0 bd.barC ck 0
        barGate := if barTimed bd k then smod 0 bd.barGate k (· - 1) else bd.barGate
        barGen := sset 0 bd.barGen k ((gen + 1) % 2 ^ 32)
        releases := bd.releases ++ rel
        moved := true }) n k fuel (at_.map (· + 2))
    else s

/-- ARRIVAL_COUNTED (R301, R304): arrival i of board n's tree reaches its root in tcyc t of the root's field. One from the root's
own field is counted 13 tcyc after its ARRIVE, and a completion of a barrier within one field releases 14 tcyc later; other fields'
arrivals take what they take. [DESIGN CHOICE log 22] -/
def arrivalCounted (n i t : Nat) (s : State) : Option State :=
  let bd := getBd s n
  match bd.arrivals[i]? with
  | none => none
  | some a =>
    let loc := a.fld == rootField s n a.bar
    let first := (bd.arrivals.take i).all (fun c => !(c.bar == a.bar && c.fld == a.fld))
    if !first || (loc && t != a.at_ + 13) || !clkRuns s (rootField s n a.bar) then none
    else
      let s1 := setBd s n { bd with
        arrivals := bd.arrivals.eraseIdx i
        barC := smod 0 bd.barC (barCKey a.bar a.par) (· + 1)
        moved := true }
      some (completeGo s1 n a.bar 3 (if oneField s n a.bar then some (t + 14) else none))

/-- The first release for (x, y) at barrier k that has arrived by tcyc t, and the others. -/
def takeRelease (x y k t : Nat) : List Release → Option (List Release)
  | [] => none
  | r :: l =>
    if r.bar = k ∧ r.x = x ∧ r.y = y then (if r.due.all (fun d => decide (d ≤ t)) then some l else none)
    else (takeRelease x y k t l).map (fun m => r :: m)

/-- RELEASE_RECEIVED (R302, R303): a release reaches brick (x, y) in tcyc t and takes 1 from its OUT, at the start of t: not after a
stall of the S queue has been charged in t. [DESIGN CHOICE log 22] -/
def releaseReceived (x y k t : Nat) (s : State) : Option State :=
  match boardAt s x y with
  | none => none
  | some n =>
    brickAct s x y t (fun key b =>
      match takeRelease x y k t (getBd s n).releases with
      | none => none
      | some l => if marked b 60 then none else some (modBd (setB s key { b with barOut := smod 0 b.barOut k (· - 1) }) n
          (fun bd => { bd with releases := l, moved := true })))

/-- ARRIVAL_COUNTED (R301). -/
def execArrivalCounted (b : Fin 16) (i t : Nat) (s : State) : Host.Outcome State Fault Refusal :=
  answerRun s (arrivalCounted b i t s)

/-- RELEASE_RECEIVED (R302). -/
def execReleaseReceived (x : Fin 1104) (y : Fin 560) (k : Fin 64) (t : Nat) (s : State) :
    Host.Outcome State Fault Refusal := answerRun s (releaseReceived x y k t s)

end Sys2Proof.Machine
end

