-- ==== Sys2Proof/Machine/Operands.lean ====
section
/-! DEFINITION. Operand forms: every select code of the table "Operand selects" and of R142-R143, the addresses of R122, R159
and R163, and the predicate of an instruction. -/
namespace Sys2Proof.Machine

/-- g, p and v registers. -/
def gReg (b : Brick) (n : Nat) : Word := sget 0 b.g n
def vReg (b : Brick) (n : Nat) : VecReg := sget 0 b.v n
/-- p0 always reads 1 (R67). -/
def pReg (b : Brick) (n : Nat) : Bool := n == 0 || b.p.getLsbD n
/-- p7..p0 as a number. -/
def pAll (b : Brick) : Nat := (b.p ||| 1#8).toNat

/-- Where a brick stands in its board: BX and BY (0 outside every board). -/
def boardRel (s : State) (x y : Nat) : Nat × Nat :=
  match boardAt s x y with
  | some n => (x - (getBd s n).x0, y - (getBd s n).y0)
  | none => (0, 0)

/-- What an operand evaluation needs of the instruction: its word, repeat indices, BX and BY, the null flags as they
stood before its pops (R111). -/
structure OpCtx where
  word : DWord
  ri0 : Word
  ri1 : Word
  bx : Nat
  by_ : Nat
  nf : BitVec 8

/-- The 32-bit value of a select code that is no v register; `f` is the entry popped for it, if it names a port. -/
def sel32 (b : Brick) (o : OpCtx) (c : Nat) (f : Flit) : Word :=
  if c < 32 then gReg b c
  else if c < 40 then flitVal f
  else if c = 40 then 0xFFFFFFFF
  else if c = 41 then iSIMM o.word
  else if c = 42 then BitVec.ofNat 32 (iIMM o.word <<< 16)
  else if c = 43 then BitVec.ofNat 32 o.bx
  else if c = 44 then BitVec.ofNat 32 o.by_
  else if c = 45 then BitVec.ofNat 32 o.nf.toNat
  else if c = 46 then o.ri0
  else if c = 47 then o.ri1
  else BitVec.ofNat 32 (c - 48)

/-- A 32-bit container in all eight lanes (R143). -/
def bcast (v : Word) : VecReg := BitVec.ofNat 256 (packElems 32 0 (List.replicate 8 v.toNat))

/-- The 256-bit value of a select code in classes 0x6 to 0x8 (R142, R143). -/
def sel256 (b : Brick) (o : OpCtx) (c : Nat) (f : Flit) : VecReg :=
  if c < 16 then vReg b c else bcast (sel32 b o c f)

/-- The entries popped for A and for B: A first, then B (R109). -/
def popsA (op : BOp) (w : DWord) (fs : List Flit) : Flit :=
  if usesA op && isPort (iA w) then fs.headD {} else {}
def popsB (op : BOp) (w : DWord) (fs : List Flit) : Flit :=
  if usesB op && isPort (iB w) then (if usesA op && isPort (iA w) then fs.tail else fs).headD {} else {}

/-- The predicate of an instruction: p[PSEL] XOR PN. -/
def predOf (b : Brick) (w : DWord) : Bool := pReg b (iPSEL w) != iPN w

/-- The multiplier s of a stride select (R163). -/
def strideSel : Nat → Nat
  | 0 => 0 | 1 => 1 | 2 => 2 | _ => 32

/-- The tensor address (R163). -/
def tensorAddr (b : Brick) (op : BOp) (e : QEntry) : Nat :=
  let w := e.word
  let s0 := if op = .tmv then fld w 19 2 else fld w 27 2
  let s1 := if op = .tmv then fld w 17 2 else fld w 25 2
  ((gReg b (iB w)).toNat
    + 32 * (fld w 0 11 + strideSel s0 * e.ri0.toNat + strideSel s1 * e.ri1.toNat)) % 2 ^ 32

/-- The byte address of an instruction's data-SRAM access; the address operand of LDW and STW may be the entry at the head
of its port. -/
def memAddr (b : Brick) (o : OpCtx) (op : BOp) (e : QEntry) : Nat :=
  let w := e.word
  match op with
  | .ldw | .stw =>
    let f := if isPort (iA w) then (portQ b (iA w - 32)).headD {} else {}
    (sel32 b o (iA w) f + iSIMM w).toNat
  | .vld | .vst => (gReg b (iA w) + iSIMM w).toNat
  | _ => tensorAddr b op e

/-- The operand context of a queue entry. -/
def opCtx (s : State) (x y : Nat) (b : Brick) (e : QEntry) : OpCtx :=
  let r := boardRel s x y
  ⟨e.word, e.ri0, e.ri1, r.1, r.2, b.nf⟩

end Sys2Proof.Machine
end

