-- ==== Sys2Proof/Machine/Flags.lean ====
section
/-! DEFINITION. Predicates: the compares and predicate logic of class 0x2 (R120), and writes of predicate registers (R67). -/
namespace Sys2Proof.Machine

/-- The result of a compare, of TSTNZ (R120). -/
def cmpRes (op : BOp) (a b : Word) : Bool :=
  match op with
  | .cmpeq => a == b
  | .cmpne => a != b
  | .cmplt => a.slt b
  | .cmple => a.sle b
  | .cmpltu => a.ult b
  | .cmpleu => a.ule b
  | _ => (a &&& b) != 0

/-- PAND, POR, PXOR of p[PA] XOR NA and p[PB] XOR NB (R120). -/
def predLogic (op : BOp) (b : Brick) (w : DWord) : Bool :=
  let u := pReg b (fld w 24 3) != bitAt w 23
  let v := pReg b (fld w 20 3) != bitAt w 19
  match op with
  | .pand => u && v
  | .por => u || v
  | _ => u != v

/-- A predicate register with a bit written; a write of p0 is discarded (R67). -/
def setP (p : BitVec 8) (n : Nat) (v : Bool) : BitVec 8 :=
  if n = 0 then p else if v then p ||| (1#8 <<< n) else p &&& ~~~(1#8 <<< n)

/-- The predicate writes of PPUT: p1..p7 take bits [7:1] of A. -/
def pputWrites (a : Word) : List RW := (List.range 7).map (fun i => RW.p (i + 1) (a.getLsbD (i + 1)))

end Sys2Proof.Machine
end

