-- ==== Sys2Proof/Machine/ScalarVal.lean ====
section
/-! DEFINITION. Results of the scalar instructions of class 0x1 (R116-R119). -/
namespace Sys2Proof.Machine

/-- Leading zeros of the low n bits of a number. -/
def clzNat (v : Nat) : Nat → Nat
  | 0 => 0
  | n + 1 => if v.testBit n then 0 else 1 + clzNat v n

/-- Set bits among the low n bits of a number. -/
def popNat (v : Nat) : Nat → Nat
  | 0 => 0
  | n + 1 => popNat v n + b2n (v.testBit n)

/-- An exact integer result under SAT and UNS in w bits (R118, R152): wrapped, or clamped as signed or unsigned. -/
def satRes (w : Nat) (sat uns : Bool) (v : Int) : Nat :=
  if !sat then wrapNat w v else if uns then wrapNat w (satU w v) else wrapNat w (satS w v)

/-- The integer a w-bit element stands for, signed or unsigned. -/
def asInt (w : Nat) (uns : Bool) (v : Nat) : Int := if uns then ((v % 2 ^ w : Nat) : Int) else sx w v

/-- ADD, SUB and MUL of w-bit elements. -/
def addRes (w : Nat) (sat uns : Bool) (a b : Nat) : Nat := satRes w sat uns (asInt w uns a + asInt w uns b)
def subRes (w : Nat) (sat uns : Bool) (a b : Nat) : Nat := satRes w sat uns (asInt w uns a - asInt w uns b)
def mulRes (w : Nat) (sat uns : Bool) (a b : Nat) : Nat := satRes w sat uns (asInt w uns a * asInt w uns b)

/-- Result D of a class 0x1 instruction; `sel` is p[PS] XOR PSN (R116-R119). -/
def aluRes (op : BOp) (w : DWord) (a b : Word) (sel : Bool) : Word :=
  let sat := bitAt w 29
  let uns := bitAt w 28
  let sh := b.toNat % 32
  match op with
  | .mov => a
  | .add => BitVec.ofNat 32 (addRes 32 sat uns a.toNat b.toNat)
  | .sub => BitVec.ofNat 32 (subRes 32 sat uns a.toNat b.toNat)
  | .mul => BitVec.ofNat 32 (mulRes 32 sat uns a.toNat b.toNat)
  | .mulh => wrapW ((a.toInt * b.toInt) / 2 ^ 32)
  | .mulhu => BitVec.ofNat 32 ((a.toNat * b.toNat) >>> 32)
  | .and => a &&& b
  | .or => a ||| b
  | .xor => a ^^^ b
  | .andn => a &&& ~~~b
  | .shl => a <<< sh
  | .shr => a >>> sh
  | .sra => a.sshiftRight sh
  | .rotl => a.rotateLeft sh
  | .min => if a.slt b then a else b
  | .max => if a.slt b then b else a
  | .minu => if a.ult b then a else b
  | .maxu => if a.ult b then b else a
  | .clz => BitVec.ofNat 32 (clzNat a.toNat 32)
  | .popc => BitVec.ofNat 32 (popNat a.toNat 32)
  | .bfx => BitVec.ofNat 32 ((a.toNat >>> fld w 0 5) % 2 ^ (fld w 8 5 + 1))
  | .bfi => setFld a (fld w 0 5) (fld w 8 5 + 1) b.toNat
  | .sel => if sel then a else b
  | _ => 0

end Sys2Proof.Machine
end

