-- ==== Sys2Proof/Machine/VectorVal.lean ====
section
/-! DEFINITION. Results of the vector instructions of classes 0x6 to 0x8 (R149-R157). -/
namespace Sys2Proof.Machine

/-- A two-operand function applied to every element position of width w (R142). -/
def mapElems (w : Nat) (f : Nat → Nat → Nat) (a b : VecReg) : VecReg :=
  BitVec.ofNat 256 (packElems w 0 ((List.range (256 / w)).map (fun i => f (elemAt w a.toNat i) (elemAt w b.toNat i))))

/-- A three-operand function applied to every element position. -/
def mapElems3 (w : Nat) (f : Nat → Nat → Nat → Nat) (a b c : VecReg) : VecReg :=
  BitVec.ofNat 256 (packElems w 0 ((List.range (256 / w)).map
    (fun i => f (elemAt w a.toNat i) (elemAt w b.toNat i) (elemAt w c.toNat i))))

/-- All ones or zero across an element (R149). -/
def allOnes (w : Nat) (c : Bool) : Nat := if c then 2 ^ w - 1 else 0

/-- Minimum or maximum of two codes (R96, R149): the non-NaN operand if one is NaN; −0 is below +0. -/
def fminmax (f : Fmt) (isMax : Bool) (a b : Nat) : Nat :=
  match fdec f a, fdec f b with
  | .nan, .nan => fmtNan f
  | .nan, _ => b
  | _, .nan => a
  | va, vb =>
    match fcmp va vb with
    | some .lt => if isMax then b else a
    | some .gt => if isMax then a else b
    | _ =>
      let aNeg := a.testBit (fmtW f - 1)
      if isMax then (if aNeg then b else a) else (if aNeg then a else b)

/-- Element result of a class 0x6 instruction of two operands or one (R149, R150). -/
def vfElem (op : BOp) (f : Fmt) (rtz : Bool) (a b : Nat) : Nat :=
  let w := fmtW f
  let va := fdec f a
  let vb := fdec f b
  match op with
  | .vfadd => fenc f rtz false false (fadd va vb)
  | .vfsub => fenc f rtz false false (fadd va (fneg vb))
  | .vfmul => fenc f rtz false false (fmul va vb)
  | .vfmin => fminmax f false a b
  | .vfmax => fminmax f true a b
  | .vfabs => if va = .nan then fmtNan f else a % 2 ^ (w - 1)
  | .vfneg =>
    if va = .nan then signCode f (!a.testBit (w - 1)) (fmtNan f)
    else signCode f (!a.testBit (w - 1)) (a % 2 ^ (w - 1))
  | .vfcmpeq => allOnes w (fcmp va vb == some .eq)
  | .vfcmplt => allOnes w (fcmp va vb == some .lt)
  | .vfcmple => allOnes w (fcmp va vb == some .lt || fcmp va vb == some .eq)
  | .vexp2 => vexp2 rtz a
  | .vlog2 => vlog2 rtz a
  | .vrcp => vrcp rtz a
  | .vrsqrt => vrsqrt rtz a
  | _ => 0

/-- Element result of VFMA: A × B + D with one rounding. -/
def vfmaElem (f : Fmt) (rtz : Bool) (a b d : Nat) : Nat :=
  fenc f rtz false false (fadd (fmul (fdec f a) (fdec f b)) (fdec f d))

/-- Element result of a class 0x7 instruction of width w (R151, R152). -/
def viElem (op : BOp) (w : Nat) (sat uns : Bool) (a b : Nat) : Nat :=
  match op with
  | .vadd => addRes w sat uns a b
  | .vsub => subRes w sat uns a b
  | .vmul => mulRes w sat uns a b
  | .vshl => (a <<< (b % w)) % 2 ^ w
  | .vshr => a >>> (b % w)
  | .vsra => wrapNat w (sx w a / ((2 ^ (b % w) : Nat) : Int))
  | .vmin => if asInt w uns a < asInt w uns b then a else b
  | .vmax => if asInt w uns a < asInt w uns b then b else a
  | .vcmpeq => allOnes w (a == b)
  | .vcmplt => allOnes w (decide (asInt w uns a < asInt w uns b))
  | _ => 0

/-- The whole-register result of a class 0x7 instruction; m is v[VM]. -/
def viRes (op : BOp) (w : DWord) (a b m : VecReg) : VecReg :=
  match op with
  | .vmov => a
  | .vand => a &&& b
  | .vor => a ||| b
  | .vxor => a ^^^ b
  | .vandn => a &&& ~~~b
  | .vsel => (a &&& m) ||| (b &&& ~~~m)
  | _ => mapElems (if fld w 26 4 = 7 then 8 else 32) (viElem op (if fld w 26 4 = 7 then 8 else 32) (bitAt w 25) (bitAt w 24)) a b

/-- The whole-register result of a class 0x6 instruction; d is the addend of VFMA. -/
def vfRes (op : BOp) (w : DWord) (a b d : VecReg) : VecReg :=
  let f := (iFMT w).getD .fp32
  let rtz := bitAt w 25
  match op with
  | .vfma => mapElems3 (fmtW f) (vfmaElem f rtz) a b d
  | _ => mapElems (fmtW f) (vfElem op f rtz) a b

/-- A register with the elements from index i on replaced. -/
def putElems (w : Nat) (d : VecReg) (i : Nat) (cs : List Nat) : VecReg :=
  let mask : VecReg := BitVec.ofNat 256 ((2 ^ (w * cs.length) - 1) <<< (w * i))
  (d &&& ~~~mask) ||| BitVec.ofNat 256 (packElems w i cs)

/-- Byte SB of a g register. -/
def gByte (v : Word) (sb : Nat) : Nat := fld v (8 * sb) 8

/-- VCVT (R154): group GS of A, in FMTS, into group GD of D, in FMTD. -/
def vcvtRes (w : DWord) (a d : VecReg) (g : Word) : VecReg :=
  match fmtOf (fld w 26 4), fmtOf (fld w 22 4) with
  | some fd, some fs =>
    let gs := fld w 0 3; let gd := fld w 3 3
    let cs := (List.range 8).map (fun i =>
      fconv fs fd (bitAt w 21) (bitAt w 20) (gByte g (fld w 6 2)) (elemAt (fmtW fs) a.toNat (8 * gs + i)))
    putElems (fmtW fd) d (8 * gd) cs
  | _, _ => d

/-- amax × 2^(127 − s) ≤ 6.0, for a finite magnitude m·2^e. -/
def scaleFits (m : Nat) (e : Int) (s : Nat) : Bool :=
  fcmp (.fin false m (e + 127 - s)) (.fin false 6 0) != some .gt

/-- The smallest s from `s` up with n steps left that fits (R94). -/
def findScale (m : Nat) (e : Int) : Nat → Nat → Nat
  | 0, s => s
  | n + 1, s => if scaleFits m e s then s else findScale m e n (s + 1)

/-- The larger of two magnitudes. -/
def magMax (a b : Nat × Int) : Nat × Int :=
  if fcmp (.fin false a.1 a.2) (.fin false b.1 b.2) == some .lt then b else a

/-- A block of 32 FP32 codes into 32 FP4 codes and a scale (R94). -/
def cvt4Block (rtz : Bool) (cs : List Nat) : List Nat × Nat :=
  let vs := cs.map (fdec .fp32)
  if vs.any (fun v => match v with | .fin .. => false | _ => true) then (cs.map (fun _ => 0), 255)
  else
    let amax := vs.foldl (fun acc v => match v with | .fin _ m e => magMax acc (m, e) | _ => acc) (0, 0)
    let s := findScale amax.1 amax.2 254 0
    (vs.map (fun v => fenc .fp4 rtz false false (fscale (127 - (s : Int)) v)), s)

/-- The pairwise tree of R102 over a list whose length is a power of two. -/
def treeGo (f : Nat → Nat → Nat) : Nat → List Nat → Nat
  | 0, l => l.headD 0
  | n + 1, l =>
    match l with
    | [] => 0
    | [c] => c
    | _ => treeGo f n (pairs f l)
where
  pairs (f : Nat → Nat → Nat) : List Nat → List Nat
    | a :: b :: r => f a b :: pairs f r
    | l => l

/-- VRED (R156): floating-point by the tree of R102 per lane and then over the lanes; integers exactly. -/
def vredRes (w : DWord) (a : VecReg) : Word :=
  match iFMT w with
  | some f =>
    let n := fmtW f
    let rop := fld w 24 2
    if fmtInt f then
      let vs := (List.range (256 / n)).map (fun i => asInt n (bitAt w 22) (elemAt n a.toNat i))
      match rop with
      | 0 => wrapW (vs.foldl (· + ·) 0)
      | 1 => wrapW (vs.tail.foldl (fun m v => if m < v then v else m) (vs.headD 0))
      | _ => wrapW (vs.tail.foldl (fun m v => if v < m then v else m) (vs.headD 0))
    else
      let g := fun p q => match rop with
        | 0 => vfElem .vfadd f (bitAt w 23) p q
        | 1 => fminmax f true p q
        | _ => fminmax f false p q
      let lane := fun l => treeGo g 4 ((List.range (32 / n)).map (fun i => elemAt n a.toNat (32 / n * l + i)))
      BitVec.ofNat 32 (treeGo g 4 ((List.range 8).map lane))
  | none => 0

/-- VPERM (R153): lane i takes the lane of A named by bits [3i+2:3i] of g[B]. -/
def vpermRes (a : VecReg) (g : Word) : VecReg :=
  BitVec.ofNat 256 (packElems 32 0 ((List.range 8).map (fun i => elemAt 32 a.toNat (fld g (3 * i) 3))))

/-- A lane of a vector register. -/
def laneOf (a : VecReg) (l : Nat) : Word := BitVec.ofNat 32 (elemAt 32 a.toNat l)

end Sys2Proof.Machine
end

