-- ==== Sys2Proof/Machine/TensorVal.lean ====
section
/-! DEFINITION. The tensor unit: dot products and their accumulation (R99-R101, R166, R167), draining (R169). -/
namespace Sys2Proof.Machine

/-- One fused step c ← round(c + a × b) in FP32, RNE (R100). -/
def fusedStep (fa fb : Fmt) (c a b : Nat) : Nat :=
  fenc .fp32 false false false (fadd (fdec .fp32 c) (fmul (fdec fa a) (fdec fb b)))

/-- An FP4 code as a signed number of halves (R86): magnitude × 2. -/
def fp4Halves (c : Nat) : Int :=
  let m := match c % 8 with
    | 0 => 0 | 1 => 1 | 2 => 2 | 3 => 3 | 4 => 4 | 5 => 6 | 6 => 8 | _ => 12
  if c.testBit 3 then -m else m

/-- One FP4 block pair (R101): the exact sum S in quarters, scaled by 2^(sa+sb−254), added with one rounding; a sum of zero
is +0; a scale of 0xFF gives NaN. -/
def fp4Step (c : Nat) (a b : Nat) (sa sb : Nat) : Nat :=
  if sa = 255 ∨ sb = 255 then fmtNan .fp32
  else
    let q := (List.range 32).foldl (fun acc k => acc + fp4Halves (elemAt 4 a k) * fp4Halves (elemAt 4 b k)) 0
    fenc .fp32 false false false (fadd (fdec .fp32 c) (finOfInt q ((sa : Int) + sb - 254 - 2)))

/-- One accumulator element updated by a row and a column of 16 bytes each (R99-R101), format codes fa and fb. -/
def macElem (fa fb : Nat) (sa sb : Nat) (c : Word) (a b : Nat) : Word :=
  match fmtOf fa, fmtOf fb with
  | some f, some g =>
    if fa = 0 then BitVec.ofNat 32 (fp4Step c.toNat a b sa sb)
    else if fmtInt f then
      let w := fmtW f
      wrapW ((List.range (kOf fa)).foldl (fun acc k => acc + sx w (elemAt w a k) * sx w (elemAt w b k)) c.toInt)
    else
      BitVec.ofNat 32 ((List.range (kOf fa)).foldl
        (fun acc k => fusedStep f g acc (elemAt (fmtW f) a k) (elemAt (fmtW g) b k)) c.toNat)
  | _, _ => c

/-- Index of element e of accumulator n in the brick's accumulator file. -/
def accIx (n e : Nat) : Nat := 64 * n + e
def accW (b : Brick) (n e : Nat) : Word := sget 0 b.acc (accIx n e)
def setAcc (b : Brick) (n e : Nat) (v : Word) : Brick := { b with acc := sset 0 b.acc (accIx n e) v }

/-- Sixteen bytes of a wide value, from byte 16·i. -/
def row16 {n : Nat} (v : BitVec n) (i : Nat) : Nat := fld v (128 * i) 128

/-- The effect of an accumulator update (R166, R167, R170). -/
def applyUpd (b : Brick) (n : Nat) : UpdOp → Brick
  | .tmv fw fx e w x s0 s1 sx =>
    let b1 := setAcc b n e (macElem fw fx s0 sx (accW b n e) (row16 w 0) x.toNat)
    setAcc b1 n (e + 1) (macElem fw fx s1 sx (accW b1 n (e + 1)) (row16 w 1) x.toNat)
  | .tmma fa fb ta tb sc =>
    (List.range 64).foldl (fun b i =>
      let m := i / 8; let c := i % 8
      setAcc b n i (macElem fa fb (sc.getD m 0) (sc.getD (8 + c) 0) (accW b n i) (row16 ta m) (row16 tb c))) b
  | .zero => (List.range 64).foldl (fun b i => setAcc b n i 0) b
  | .setr r v => (List.range 8).foldl (fun b c => setAcc b n (8 * r + c) (laneOf v c)) b

/-- The register TDRV writes (R169): rows converted from FP32 or INT32 into FMT. -/
def tdrvRes (w : DWord) (b : Brick) : VecReg :=
  match fmtOf (fld w 26 4) with
  | some f =>
    let r := tdrvRows f
    let src := if bitAt w 25 then Fmt.int32 else Fmt.fp32
    BitVec.ofNat 256 (packElems (fmtW f) 0 ((List.range (8 * r)).map (fun i =>
      fconv src f (bitAt w 24) (bitAt w 23) 0 (accW b (iA w) (8 * fld w 19 3 + i)).toNat)))
  | none => 0

/-- CLR of TDRV: the elements read are cleared. -/
def tdrvClear (w : DWord) (b : Brick) : Brick :=
  match fmtOf (fld w 26 4) with
  | some f => (List.range (8 * tdrvRows f)).foldl (fun b i => setAcc b (iA w) (8 * fld w 19 3 + i) 0) b
  | none => b

/-- Scale byte e of the scale file. -/
def wscB (b : Brick) (e : Nat) : Nat := (sget 0 b.wsc e).toNat

/-- Four registers as one 128-byte array, the first lowest (R167). -/
def tile (b : Brick) (n : Nat) : BitVec 1024 :=
  BitVec.ofNat 1024 (packElems 256 0 ((List.range 4).map (fun i => (vReg b (n + i)).toNat)))

end Sys2Proof.Machine
end

