-- ==== Sys2Proof/Machine/Issue.lean ====
section
/-! DEFINITION. Issue of a queue head: the causes that hold it (R55, R60, R65, R66, R70), its pops, credits and counts, its
effect, and the release of its results (R56, R62, R63, R72, R113, R172). -/
namespace Sys2Proof.Machine

def queGet (b : Brick) : Que → List QEntry
  | .s => b.qS | .v => b.qV | .t => b.qT
def queSet (b : Brick) (q : Que) (l : List QEntry) : Brick :=
  match q with
  | .s => { b with qS := l } | .v => { b with qV := l } | .t => { b with qT := l }
def queIx : Que → Nat
  | .s => 0 | .v => 1 | .t => 2

/-- The instructions that wait in queues, in no particular order. -/
def queued (b : Brick) : List QEntry := b.qS ++ b.qV ++ b.qT

/-- The op of a queue entry (a dispatched word always has one). -/
def opE (e : QEntry) : BOp := (iBOp e.word).getD .nop

/-- Registers an entry reads, and writes (null flags of its pops included, R111). -/
def rdE (e : QEntry) : List Nat := srcsOf (opE e) e.word
def wrE (e : QEntry) : List Nat := dstsOf (opE e) e.word ++ (popsOf (opE e) e.word).map rNF

def meets (l m : List Nat) : Bool := l.any (fun a => m.contains a)

/-- A register write pending in the scoreboard: reserved by an issued instruction, or to be written by one still queued. -/
def writePending (b : Brick) (r : Nat) : Bool :=
  b.flights.any (fun f => f.regs.contains r) || (queued b).any (fun e => (wrE e).contains r)

/-- The bank of an entry's access, when its address is valid. -/
def bankE (b : Brick) (o : OpCtx) (e : QEntry) : Option Nat :=
  match memOf (opE e) e.word with
  | none => none
  | some (n, _) => let a := memAddr b o (opE e) e; if sramOk a n then some (bankOf a) else none

/-- Is the address of a waiting access known: no earlier instruction still has to write its address register, and it does
not come from a port (R66)? [DEDUCED log 10] -/
def addrKnown (b : Brick) (e : QEntry) : Bool :=
  !addrPort (opE e) e.word
    && !(addrRegs (opE e) e.word).any (fun r =>
      b.flights.any (fun f => f.regs.contains r)
        || (queued b).any (fun e' => decide (e'.seq < e.seq) && (wrE e').contains r))

/-- R66 and R236 between a head and an earlier instruction still queued. [DEDUCED log 10] -/
def memHeld (s : State) (x y : Nat) (b : Brick) (h e : QEntry) : Bool :=
  let oh := opE h; let oe := opE e
  let me := memOf oe e.word
  match memOf oh h.word with
  | some (_, wh) =>
    oe == .castle ||
    (match me with
      | some (_, we) =>
        (wh || we) &&
          (!addrKnown b e ||
            (match bankE b (opCtx s x y b e) e, bankE b (opCtx s x y b h) h with
              | some p, some q => p == q
              | _, _ => false))
      | none => false)
  | none => oh == .castle && me.isSome

/-- The scoreboard holds a head (R55, R66, R69, R171-R173, R236). NF has no latency under R113: a pop writes NF at once, and a
head of another queue that selects NFV and issues later in the same tcyc reads it. [DESIGN CHOICE log 118] -/
def sbHeld (s : State) (x y : Nat) (b : Brick) (h : QEntry) (t : Nat) : Bool :=
  let op := opE h; let w := h.word
  let rd := rdE h; let wr := wrE h
  b.flights.any (fun f => meets f.regs (rd ++ wr))
  || (queued b).any (fun e => decide (e.seq < h.seq) &&
      (meets (wrE e) (rd ++ wr) || meets (rdE e) wr || memHeld s x y b h e))
  || (match op with
      | .tmv | .tmma => decide (t < b.arrayFree)
      | .tdrv => b.updates.any (fun u => u.acc == iA w)
      | .tzero | .tsetr => b.updates.any (fun u => u.acc == iD w)
      | .vexp2 | .vlog2 | .vrcp | .vrsqrt => decide (t < b.transFree)
      | .halt => !(b.qV.isEmpty && b.qT.isEmpty && b.flights.isEmpty && b.updates.isEmpty)
      | _ => false)

/-- DONE of a castled buffer as it stood at the start of tcyc t (R235). -/
def cbDoneAt (b : Brick) (n t : Nat) : Bool :=
  let c := sget {} b.cb n
  if c.chg ≤ t then c.done else !c.done

/-- Is castled buffer n declared (R250)? -/
def cbDecl (b : Brick) (n : Nat) : Bool := bitAt (cfgW b (0x620 + 8 * n)) 31

/-- The lowest cause code other than BANK that holds a head in tcyc t (R70); 0 if none. -/
def preCause (s : State) (x y : Nat) (b : Brick) (h : QEntry) (t : Nat) : Nat :=
  let op := opE h; let w := h.word
  let pops := popsOf op w
  if pops.any (fun n => decide (portReady b n t < (pops.filter (· == n)).length)) then 1
  else match sendsOf op w with
  | some (sl, n) =>
    if sget 0 b.sndCred sl < n then (if toExpert s x y sl then 3 else 2)
    else if sbHeld s x y b h t then 6 else 0
  | none =>
    match op with
    | .arrive => if 2 ≤ outAt s x y b (fld w 0 6) t then 4 else if sbHeld s x y b h t then 6 else 0
    | .waitb => if outAt s x y b (fld w 0 6) t ≠ 0 then 4 else if sbHeld s x y b h t then 6 else 0
    | .castle =>
      if cbDecl b (fld w 0 3) && !cbDoneAt b (fld w 0 3) t then 5 else if sbHeld s x y b h t then 6 else 0
    | _ => if sbHeld s x y b h t then 6 else 0

/-- The bank that a queue's head requests in tcyc t: only if every other condition of its issue holds (R65). [DEDUCED log 115] -/
def wantsBank (s : State) (x y : Nat) (b : Brick) (q : Que) (t : Nat) : Option Nat :=
  match queGet b q with
  | h :: _ =>
    if h.due ≤ t && !marked b (queIx q) && (b.st == .running || b.st == .draining)
        && preCause s x y b h t == 0 then bankE b (opCtx s x y b h) h else none
  | [] => none

/-- A bank is taken in tcyc t, or a queue earlier in the order of R65 requests it. [DEDUCED log 115] -/
def bankRefused (s : State) (x y : Nat) (b : Brick) (before : List Que) (bank t : Nat) : Bool :=
  marked b (4 + bank) || before.any (fun q => wantsBank s x y b q t == some bank)

/-- The queues ahead of a queue in the order of R65. [DEDUCED log 115] -/
def ahead : Que → List Que
  | .t => [] | .v => [.t] | .s => [.t, .v]

/-- The cause charged to a queue's head in tcyc t (R70); 0 if it can issue. -/
def headCause (s : State) (x y : Nat) (b : Brick) (q : Que) (h : QEntry) (t : Nat) : Nat :=
  let c := preCause s x y b h t
  if c ≠ 0 then c
  else match bankE b (opCtx s x y b h) h with
    | some bank => if bankRefused s x y b (ahead q) bank t then 7 else 0
    | none => 0

/-- What an instruction does beyond its pops, credits and counts. -/
structure Eff where
  writes : List RW := []
  b : Brick
  sends : List (Word × Bool × Bool) := []
  fault : Option (Nat × Word) := none

/-- A data-SRAM load of n bytes: value, or the fault of R123, R159, R163 or a DED. -/
def loadEff (b : Brick) (pred : Bool) (a n : Nat) (f : Brick → Nat → Eff) : Eff :=
  if !pred then { b := b }
  else if !sramOk a n then { b := b, fault := some (fADDR, BitVec.ofNat 32 a) }
  else
    let (b1, v, bad) := sramRead b a n
    match bad with
    | some w => { b := b1, fault := some (fDED, BitVec.ofNat 32 w) }
    | none => f b1 v

/-- A data-SRAM store. -/
def storeEff (b : Brick) (pred : Bool) (a : Nat) (bytes : List Byte) : Eff :=
  if !pred then { b := b }
  else if !sramOk a bytes.length then { b := b, fault := some (fADDR, BitVec.ofNat 32 a) }
  else
    match sramWrite b a bytes with
    | (b1, some w) => { b := b1, fault := some (fDED, BitVec.ofNat 32 w) }
    | (b1, none) => { b := b1 }

/-- The 32 bytes of a tensor source, as a register (R168). -/
def tensorSrc (b : Brick) (op : BOp) (e : QEntry) (pred : Bool) (f : Brick → VecReg → Eff) : Eff :=
  if bitAt e.word 29 then (if pred then f b (vReg b (iA e.word)) else { b := b })
  else loadEff b pred (tensorAddr b op e) 32 (fun b v => f b (BitVec.ofNat 256 v))

/-- The writes an instruction makes to registers, given its 32-bit operands; vector operands are read from b. `fs` are the
entries it popped; `b0` the brick before its pops, `b` the brick after them. -/
def effOf (op : BOp) (b0 b : Brick) (o : OpCtx) (e : QEntry) (fs : List Flit) (pred : Bool) (t : Nat) : Eff :=
  let w := e.word
  let fa := popsA op w fs
  let fb := popsB op w fs
  let a := sel32 b0 o (iA w) fa
  let bb := sel32 b0 o (iB w) fb
  let va := sel256 b0 o (iA w) fa
  let vb := sel256 b0 o (iB w) fb
  let d := iD w
  let reg := fun (r : List RW) => ({ writes := r, b := b } : Eff)
  match op with
  | .mov | .add | .sub | .mul | .mulh | .mulhu | .and | .or | .xor | .andn | .shl | .shr | .sra | .rotl
  | .min | .max | .minu | .maxu | .clz | .popc | .bfx | .bfi | .sel =>
    reg [.g d (aluRes op w a bb (pReg b0 (fld w 25 3) != bitAt w 24))]
  | .cmpeq | .cmpne | .cmplt | .cmple | .cmpltu | .cmpleu | .tstnz => reg [.p (fld w 27 3) (cmpRes op a bb)]
  | .pand | .por | .pxor => reg [.p (fld w 27 3) (predLogic op b0 w)]
  | .pnull => reg [.p (fld w 27 3) (o.nf.getLsbD (fld w 0 3))]
  | .pget => reg [.g d (BitVec.ofNat 32 (pAll b0))]
  | .pput => reg (pputWrites a)
  | .nop | .repi | .repg | .halt => { b := b }
  | .mark =>
    { b := if pred then setObs b 0x830 (packW [(0, 16, iIMM w), (16, 16, fld (obsW b 0x830) 16 16 + 1)]) else b }
  | .ldw => loadEff b pred (memAddr b0 o op e) 4 (fun b v => { writes := [.g d (BitVec.ofNat 32 v)], b := b })
  | .stw => storeEff b pred (memAddr b0 o op e) (bytesLE 4 bb.toNat)
  | .send =>
    let null := !pred || (bitAt w 29 && fa.null)
    { b := b, sends := [(if null then 0 else a, null, bitAt w 15)] }
  | .sendp =>
    let n1 := !pred || (bitAt w 29 && fa.null)
    let n2 := !pred || (bitAt w 29 && fb.null)
    { b := b, sends := [(if n1 then 0 else a, n1, false), (if n2 then 0 else bb, n2, bitAt w 15)] }
  | .arrive =>
    let k := fld w 0 6
    { b := if pred then { b with barOut := smod 0 b.barOut k (· + 1), barNP := smod 0 b.barNP k (fun v => 1 - v) } else b }
  | .waitb => { b := b }
  | .castle =>
    let n := fld w 0 3
    if !cbDecl b n then { b := b, fault := some (fCASTLE, BitVec.ofNat 32 n) }
    else
      { b := if pred then
          { b with cb := smod {} b.cb n (fun c => { rd := 1 - c.rd, done := false, chg := t + 1, filling := false }) }
        else b }
  | .vfadd | .vfsub | .vfmul | .vfma | .vfmin | .vfmax | .vfabs | .vfneg | .vfcmpeq | .vfcmplt | .vfcmple
  | .vexp2 | .vlog2 | .vrcp | .vrsqrt => reg [.v d (vfRes op w va vb (vReg b0 d))]
  | .vmov | .vadd | .vsub | .vmul | .vand | .vor | .vxor | .vandn | .vshl | .vshr | .vsra | .vmin | .vmax
  | .vcmpeq | .vcmplt | .vsel => reg [.v d (viRes op w va vb (vReg b0 (fld w 16 4)))]
  | .vcvt => reg [.v d (vcvtRes w va (vReg b0 d) (gReg b0 (fld w 8 5)))]
  | .vcvt4 =>
    let cs := (List.range 32).map (fun i => elemAt 32 (vReg b0 (iA w + i / 8)).toNat (i % 8))
    let (codes, sc) := cvt4Block (bitAt w 21) cs
    reg [.v d (putElems 4 (vReg b0 d) (32 * fld w 0 1) codes),
         .g (fld w 8 5) (setFld (gReg b0 (fld w 8 5)) (8 * fld w 6 2) 8 sc)]
  | .vred => reg [.g d (vredRes w va)]
  | .vperm => reg [.v d (vpermRes va (gReg b0 (iB w)))]
  | .vext => reg [.g d (laneOf va (fld w 0 3))]
  | .vlane => reg [.v d (putElems 32 (vReg b0 d) (fld w 0 3) [bb.toNat])]
  | .vtest => reg [.p (fld w 16 3) ((va &&& vb) != 0)]
  | .vld => loadEff b pred (memAddr b0 o op e) 32 (fun b v => { writes := [.v d (BitVec.ofNat 256 v)], b := b })
  | .vst => storeEff b pred (memAddr b0 o op e) (bytesLE 32 (vReg b0 (iB w)).toNat)
  | .vins => reg [.v d (putElems 32 (vReg b0 d) (fld w 2 3) (fs.map (fun f => (flitVal f).toNat)))]
  | .vsend =>
    let l := fld w 6 3
    let one := fun i eom => (if pred then laneOf (vReg b0 (iA w)) i else 0, !pred, eom)
    { b := b, sends := if bitAt w 5 then [one l false, one (l + 1) (bitAt w 15)] else [one l (bitAt w 15)] }
  | .tmv =>
    let j := (fld w 11 5 + (if bitAt w 21 then o.ri0.toNat else 0)) % 32
    loadEff b pred (memAddr b0 o op e) 32 (fun b v =>
      { b := { b with updates := b.updates ++
          [⟨t + updLat op w, d, .tmv (fld w 26 4) (fld w 22 4) (2 * j) (BitVec.ofNat 256 v) b0.xl
              (wscB b0 (2 * j)) (wscB b0 (2 * j + 1)) b0.xsc.toNat⟩] } })
  | .tmma =>
    { b := if pred then
        { b with updates := b.updates ++ [⟨t + updLat op w, d, .tmma (fld w 26 4) (fld w 22 4)
            (tile b0 (iA w)) (tile b0 (iB w)) ((List.range 16).map (wscB b0))⟩] }
      else b }
  | .tldx => tensorSrc b op e pred (fun b v =>
      { writes := [.xl (BitVec.ofNat 128 v.toNat) (BitVec.ofNat 8 (elemAt 8 v.toNat 16))], b := b })
  | .tscl => tensorSrc b op e pred (fun b v =>
      { writes := [.wsc (32 * fld w 24 1) (bytesLE 32 v.toNat)], b := b })
  | .tdrv => { writes := [.v d (tdrvRes w b0)], b := if pred && bitAt w 22 then tdrvClear w b else b }
  | .tzero => { b := if pred then { b with updates := b.updates ++ [⟨t + 1, d, .zero⟩] } else b }
  | .tsetr =>
    { b := if pred then { b with updates := b.updates ++ [⟨t + 1, d, .setr (fld w 19 3) (vReg b0 (iA w))⟩] } else b }

/-- Flits of a sender committed in tcyc t on a local slot: the first enters in t + 1, the second in t + 2 (R132); one credit
each; SENT counts them (R437). -/
def sendFlits (on : Bool) (b : Brick) (sl t : Nat) : Nat → List (Word × Bool × Bool) → Brick
  | _, [] => b
  | i, (v, n, m) :: r =>
    let b1 := { b with
      fifos := smod [] b.fifos (128 + sl) (fun l => l ++ [⟨v, n, m, t + 1 + i⟩])
      sndCred := smod 0 b.sndCred sl (fun c => c - 1) }
    sendFlits on (bumpC on b1 (0x10 + sl) 1) sl t (i + 1) r

/-- The arrival an ARRIVE with a true predicate sends into its board's tree (R300). -/
def sendArrival (s : State) (x y k par t : Nat) : State :=
  match boardAt s x y with
  | some n => modBd s n (fun bd => { bd with arrivals := bd.arrivals ++ [⟨k, par, fieldOf x y, t⟩], moved := true })
  | none => s

/-- The instruction at the head of its queue, if it is `op` and may issue in tcyc t. -/
def headReady (op : BOp) (s : State) (x y : Nat) (b : Brick) (t : Nat) : Option (Que × QEntry × List QEntry) :=
  let q := queOp op
  match queGet b q with
  | h :: r =>
    if opE h == op && (b.st == .running || b.st == .draining) && h.due ≤ t && !marked b (queIx q)
        && headCause s x y b q h t == 0 then some (q, h, r) else none
  | [] => none

/-- The brick in which the effect of a head starts: the head has left its queue, the issue and its bank are marked, its
entries are popped, and they follow (R56, R62). -/
def issueStart (op : BOp) (s : State) (x y : Nat) (b : Brick) (q : Que) (h : QEntry) (rest : List QEntry) (t : Nat) :
    Brick × List Flit :=
  let on := counting s x y
  let b1 := bumpC on (mark (queSet b q rest) (queIx q)) (queIx q) 1
  popAll on t (popsOf op h.word) (match bankE b (opCtx s x y b h) h with | some k => mark b1 (4 + k) | none => b1) []

/-- The flits of a sending instruction enter its slot. -/
def issueSend (on : Bool) (op : BOp) (w : DWord) (t : Nat) (f : Eff) : Brick :=
  match sendsOf op w with
  | some (sl, _) => sendFlits on f.b sl t 0 f.sends
  | none => f.b

/-- The destinations reserved until the latency has passed, with what will be written (R113). -/
def issueFlight (op : BOp) (w : DWord) (t : Nat) (ws : List RW) (b : Brick) : Brick :=
  if (dstsOf op w).isEmpty then b else { b with flights := b.flights ++ [⟨t + latOf op w, dstsOf op w, ws⟩] }

/-- The units held: the array (R171), the transcendental unit (R148). -/
def issueHold (op : BOp) (w : DWord) (t : Nat) (b : Brick) : Brick :=
  let b1 := if arrayHold op w = 0 then b else { b with arrayFree := t + arrayHold op w }
  if isTrans op then { b1 with transFree := t + 2 } else b1

/-- The cause of a queue is cleared by its issue (R70). -/
def clearCause (b : Brick) : Que → Brick
  | .s => { b with causeS := 0 } | .v => { b with causeV := 0 } | .t => { b with causeT := 0 }

/-- The end of an issue, given the instruction's effect: its writes stand only with a true predicate and no fault (R63, R72);
HALT halts the brick (R69). -/
def issueEnd (on : Bool) (op : BOp) (q : Que) (w : DWord) (t : Nat) (pred : Bool) (f : Eff) : Brick :=
  let b1 := issueFlight op w t (if pred && f.fault.isNone then f.writes else []) (issueSend on op w t f)
  let b2 := issueHold op w t b1
  clearCause (if op = .halt then { b2 with st := .halted } else b2) q

/-- The brick after the issue of head h of queue q in tcyc t, and the fault the issue raises, if any (R56, R62, R72, R115). -/
def issueB (op : BOp) (s : State) (x y : Nat) (b : Brick) (q : Que) (h : QEntry) (rest : List QEntry) (t : Nat) :
    Brick × Option (Nat × Word) :=
  let pred := predOf b h.word
  let b0 := issueStart op s x y b q h rest t
  let f := effOf op b b0.1 (opCtx s x y b h) h b0.2 pred t
  (issueEnd (counting s x y) op q h.word t pred f, f.fault)

/-- The energy class of the MAC beats of a multiply-accumulate, by the format of W (R165, R548). -/
def macClass (w : DWord) : Nat :=
  match fld w 26 4 with
  | 0 | 6 => 0
  | 1 | 2 | 7 => 1
  | 5 => 3
  | _ => 2

/-- The issue of instruction `op` by brick (x, y) in tcyc t: none while the head is not that instruction or is held. -/
def issueOp (op : BOp) (x y t : Nat) (s : State) : Option State :=
  brickAct s x y t (fun k b =>
    match headReady op s x y b t with
    | none => none
    | some (q, h, rest) =>
      let (b', fault) := issueB op s x y b q h rest t
      let s0 := touch (finishB s k x y b' (uQue q) t fault) x y
      let s1 := if arrayHold op h.word = 0 then s0 else activity s0 x y (macClass h.word) (arrayHold op h.word)
      some (if op = .arrive && predOf b h.word then
              sendArrival s1 x y (fld h.word 0 6) (sget 0 b.barNP (fld h.word 0 6)) t
            else s1))

/-- A register write takes effect; writes of p0 are discarded (R67). -/
def applyRW (b : Brick) : RW → Brick
  | .g n v => { b with g := sset 0 b.g n v }
  | .p n v => { b with p := setP b.p n v }
  | .v n v => { b with v := sset 0 b.v n v }
  | .wsc first bytes => { b with wsc := writeBytes 0 b.wsc first bytes }
  | .xl v sc => { b with xl := v, xsc := sc }

/-- The first flight due by tcyc t, and the others. [DEDUCED log 11] -/
def takeFlight (t : Nat) : List Flight → Option (Flight × List Flight)
  | [] => none
  | f :: r => if f.due ≤ t then some (f, r) else (takeFlight t r).map (fun p => (p.1, f :: p.2))

/-- RESULT_RELEASE: the oldest issued instruction whose latency has passed writes its result and releases its
destination (R113); it finishes also in a FAULTED brick (R72). [DEDUCED log 11] -/
def resultRelease (x y t : Nat) (s : State) : Option State :=
  brickAct s x y t (fun k b =>
    match takeFlight t b.flights with
    | none => none
    | some (f, r) => some (setB s k (f.writes.foldl applyRW { b with flights := r })))

/-- The first update due by tcyc t that no earlier update of its own accumulator precedes (R172), and the others; `wait` holds
the accumulators passed. [DEDUCED log 11] -/
def takeUpd (t : Nat) : List Nat → List Upd → Option (Upd × List Upd)
  | _, [] => none
  | wait, u :: r =>
    if u.due ≤ t && !wait.contains u.acc then some (u, r) else (takeUpd t (u.acc :: wait) r).map (fun p => (p.1, u :: p.2))

/-- ACCUM_UPDATE_COMPLETE: an accumulator's oldest update, once due, is applied; updates of one accumulator keep program
order and those of others do not wait for them (R172). [DEDUCED log 11] -/
def accumComplete (x y t : Nat) (s : State) : Option State :=
  brickAct s x y t (fun k b =>
    match takeUpd t [] b.updates with
    | none => none
    | some (u, r) => some (setB s k (applyUpd { b with updates := r } u.acc u.op)))

end Sys2Proof.Machine
end

