-- ==== Sys2Proof/Machine/Stream.lean ====
section
/-! DEFINITION. The stream unit: contexts, the program store, addresses, moves, gathers, far requests, castled-buffer fills
(R221-R247, R255-R257). -/
namespace Sys2Proof.Machine

/-- The stream instructions, EMIT and LAND being the two directions of SMOVE (R224). -/
inductive SOp where
  | sbase | sloop | sstride | sbank | emit | land | sgather | sfar | sgate | sstop
deriving DecidableEq, Repr

/-- The instruction of a stream word (R224); every other SOP is reserved. -/
def sopOf (w : Word) : Option SOp :=
  match fld w 28 4 with
  | 1 => some .sbase | 2 => some .sloop | 3 => some .sstride | 4 => some .sbank
  | 5 => some (if bitAt w 27 then .land else .emit)
  | 6 => some .sgather | 7 => some .sfar | 8 => some .sgate | 15 => some .sstop
  | _ => none

/-- BRK_ST_PROG word i. -/
def stProg (b : Brick) (i : Nat) : Word := cfgW b (0x680 + 4 * (i % 32))

def getCtx (b : Brick) (k : Nat) : Ctx := sget {} b.ctx k
def setCtx (b : Brick) (k : Nat) (c : Ctx) : Brick := { b with ctx := sset {} b.ctx k c }

/-- Words of 4 bytes that a move or gather takes (R227, R228, R230). -/
def sWords (op : SOp) (w : Word) : Nat :=
  match op with
  | .emit | .land => 2 ^ fld w 25 2
  | .sgather => if bitAt w 19 then 2 else 1
  | .sfar => 8
  | _ => 0

/-- The port a stream instruction pops and the entries it needs. -/
def sPort (op : SOp) (w : Word) : Option (Nat × Nat) :=
  match op with
  | .land => some (fld w 12 3, sWords op w)
  | .sgather => some (fld w 25 3, 1)
  | .sgate => some (fld w 25 3, 1)
  | _ => none

/-- The slot a stream instruction sends on and the credits it needs in its execution tcyc (R223). -/
def sSlot (op : SOp) (w : Word) : Option (Nat × Nat) :=
  match op with
  | .emit => some (fld w 12 5, sWords op w)
  | .sgather => some (fld w 20 5, sWords op w)
  | .sfar => some (fld w 16 5, 1)
  | _ => none

/-- The castled buffer of an SMOVE with CBR. -/
def sCbr (op : SOp) (w : Word) : Option Nat :=
  match op with
  | .emit | .land => if bitAt w 24 then some (fld w 21 3) else none
  | _ => none

/-- Bases and length of castled buffer n (R250). -/
def cbBase (b : Brick) (n half : Nat) : Nat :=
  if half = 0 then fld (cfgW b (0x620 + 8 * n)) 0 16 else fld (cfgW b (0x624 + 8 * n)) 16 16
def cbLen (b : Brick) (n : Nat) : Nat := fld (cfgW b (0x624 + 8 * n)) 0 16

/-- The index of an open level (0 if it is not open); levels count from the outermost. -/
def loopIdx (c : Ctx) (l : Nat) : Nat :=
  match c.loops.reverse[l]? with
  | some v => v.idx
  | none => 0

/-- The effective address with an offset added (R226, R230), and the lowest CAUSE of R257 among the limits it breaks
(0 none). -/
def effAddr (b : Brick) (c : Ctx) (cbr : Option Nat) (size extra : Nat) : Nat × Nat :=
  let off := c.addr + extra
  let (ea, lim) : Nat × Nat :=
    match cbr with
    | some n => (cbBase b n (1 - (sget {} b.cb n).rd) + off, if cbLen b n < off + size then 3 else 0)
    | none =>
      if c.bankEn then
        let bank := if c.bankRot then (c.bankB + loopIdx c c.bankL) % 4 else c.bankB
        (0x3000 * bank + off, if 0x3000 < off + size then 5 else 0)
      else (off, 0)
  (ea, if 0xC000 < ea + size then 1 else if ea % size ≠ 0 then 2 else lim)

/-! ### Stream programs as the contexts reach them -/

/-- The words that a context can reach, with their depth, and whether control goes wrong at a word (R225, R246): loops open
are kept as last word and whether unbounded, innermost first. Words that no enabled context reaches are not looked at. [DESIGN CHOICE log 131] -/
def stReach (b : Brick) : Nat → Nat → List (Nat × Bool) → List (Nat × Nat × Bool)
  | 0, _, _ => []
  | fuel + 1, pc, st =>
    if 32 ≤ pc then [(31, st.length, true)]
    else
      let w := stProg b pc
      match sopOf w with
      | none => [(pc, st.length, true)]
      | some .sstop => [(pc, st.length, false)]
      | some .sloop =>
        let len := fld w 23 5
        if len = 0 ∨ 31 < pc + len ∨ 4 ≤ st.length ∨ st.any (fun l => decide (l.1 < pc + len)) then [(pc, st.length, true)]
        else (pc, st.length, false) :: stReach b fuel (pc + 1) ((pc + len, fld w 0 16 == 0) :: st)
      | some _ =>
        let ended := st.takeWhile (fun l => l.1 == pc)
        (pc, st.length, false) ::
          (if ended.any (·.2) then [] else stReach b fuel (pc + 1) (st.drop ended.length))

/-- The reachable words of context k: word number, depth, wrong. -/
def ctxReach (b : Brick) (k : Nat) : List (Nat × Nat × Bool) :=
  if bitAt (cfgW b (0x600 + 4 * k)) 31 then stReach b 40 (fld (cfgW b (0x600 + 4 * k)) 0 5) [] else []

/-- The instructions that context k can reach. -/
def ctxOps (b : Brick) (k : Nat) : List (Nat × SOp × Word) :=
  (ctxReach b k).filterMap (fun p => (sopOf (stProg b p.1)).map (fun op => (p.1, op, stProg b p.1)))

/-! ### Effective addresses -/

/-- What a move, gather or far request does in this tcyc: its element's address, or a breach (cause, VALUE). A null gather
index reads nothing (address none). -/
inductive SAddr where
  | none
  | at_ (ea : Nat)
  | breach (cause value : Nat)
deriving DecidableEq, Repr

/-- The address, or breach, of a move, gather or far request (R226-R230, R247). VALUE of a gather whose element breaks a limit is
the low half of the element's address. [DEDUCED log 17, DEDUCED log 121] -/
def sAddr (b : Brick) (c : Ctx) (op : SOp) (w : Word) : SAddr :=
  let size := 4 * sWords op w
  match op with
  | .emit | .land | .sfar =>
    let (ea, cause) := effAddr b c (sCbr op w) size 0
    if cause ≠ 0 then .breach cause (ea % 65536) else .at_ ea
  | .sgather =>
    let (ea0, cause0) := effAddr b c Option.none size 0
    match (portQ b (fld w 25 3)).head? with
    | some f =>
      if f.null then (if cause0 ≠ 0 then .breach cause0 (ea0 % 65536) else .none)
      else if fld w 0 16 ≤ f.data.toNat then .breach 4 (f.data.toNat % 65536)
      else
        let (ea, cause) := effAddr b c Option.none size (f.data.toNat * size)
        if cause0 ≠ 0 ∧ (cause = 0 ∨ cause0 < cause) then .breach cause0 (ea0 % 65536)
        else if cause ≠ 0 then .breach cause (ea % 65536) else .at_ ea
    | Option.none => .none
  | _ => .none

/-- What a context waits for in tcyc t, as a STATE code of R253: 2 READY, 3 WAIT_PORT, 4 WAIT_CREDIT, 5 WAIT_CB; 0, 1, 7, 8
as its phase says. Of several things that lack, the first of port, credit and castled buffer shows. [DESIGN CHOICE log 119] -/
def ctxState (b : Brick) (c : Ctx) (t : Nat) : Nat :=
  match c.phase with
  | .idle => 0
  | .held => 1
  | .done => 7
  | .faulted => 8
  | .active =>
    if !c.farLeft.isEmpty then (if sget 0 b.sndCred c.farSlot = 0 then 4 else 2)
    else if c.ending then 5
    else
      let w := stProg b c.pc
      match sopOf w with
      | Option.none => 2
      | some op =>
        if (sPort op w).any (fun p => decide (portReady b p.1 t < p.2)) then 3
        else if (sSlot op w).any (fun p => decide (sget 0 b.sndCred p.1 < p.2)) then 4
        else if (sCbr op w).any (fun n => cbDoneAt b n t) then 5
        else 2

/-- Ready to execute its current instruction (R223). -/
def ctxReady (b : Brick) (c : Ctx) (t : Nat) : Bool :=
  c.phase == .active && c.farLeft.isEmpty && ctxState b c t == 2 && (sopOf (stProg b c.pc)).isSome

/-- The stream unit executes in these brick states (R222). -/
def streamRuns (b : Brick) : Bool :=
  (b.st == .running || b.st == .draining || b.st == .halted) && !b.stStop

/-- The context the unit takes in tcyc t: the first ready one at or after the pointer. A context whose FILL action was
made in this tcyc executes from the next one. [DESIGN CHOICE log 18] -/
def streamPick (b : Brick) (t : Nat) : Option Nat :=
  if !streamRuns b || marked b 8 then none
  else ((List.range 4).map (fun i => (b.stPtr + i) % 4)).find?
    (fun k => ctxReady b (getCtx b k) t && !marked b (70 + k))

/-- The bank a stream instruction requests in this tcyc. -/
def streamBankOf (b : Brick) (c : Ctx) (op : SOp) (w : Word) : Option Nat :=
  match sAddr b c op w with
  | .at_ ea => some (bankOf ea)
  | _ => none

/-- The bank the stream unit requests in tcyc t (R65). -/
def streamWantsBank (b : Brick) (t : Nat) : Option Nat :=
  match streamPick b t with
  | some k =>
    let c := getCtx b k
    let w := stProg b c.pc
    match sopOf w with
    | some op => streamBankOf b c op w
    | none => none
  | none => none

/-- The stride of a level, as a word. -/
def strideOf (c : Ctx) (d : Nat) : Word := sget 0 c.strides d

def addrPlus (a : Nat) (v : Int) : Nat := wrapNat 16 ((a : Int) + v)

/-- The castled buffer's DONE set in tcyc t (R235). Levels that end on one word and fill one buffer all act in that tcyc, because
DONE is read as it stood at its start. [DEDUCED log 120] -/
def cbSetDone (b : Brick) (n t : Nat) : Brick :=
  { b with cb := smod {} b.cb n (fun c => { c with done := true, chg := t + 1 }) }

/-- The loop-end steps after the word at c.pc has executed (R225), from the innermost level outward: FILL action (which may
have to wait), then step or close. `acted` skips the FILL action of the innermost level. -/
def loopEnd (t : Nat) : Nat → Bool → Brick → Ctx → Brick × Ctx
  | 0, _, b, c => (b, c)
  | n + 1, acted, b, c =>
    match c.loops with
    | [] => (b, { c with pc := (c.pc + 1) % 32, ending := false })
    | l :: r =>
      if l.last ≠ c.pc then (b, { c with pc := (c.pc + 1) % 32, ending := false })
      else if l.fill && !acted && cbDoneAt b l.cb t then (b, { c with ending := true })
      else
        let b1 := if l.fill && !acted then cbSetDone b l.cb t else b
        let st := (strideOf c r.length).toInt
        if l.n = 0 ∨ l.idx + 1 < l.n then
          (b1, { c with
            addr := addrPlus c.addr st
            loops := { l with idx := if l.n = 0 then (l.idx + 1) % 65536 else l.idx + 1 } :: r
            pc := l.first
            ending := false })
        else
          loopEnd t n false b1 { c with addr := addrPlus c.addr (-(((l.n : Int) - 1) * st)), loops := r }

/-- EOM of an EMIT (R229): every open level deeper than EOML is in its last iteration. -/
def emitEom (c : Ctx) (w : Word) : Bool :=
  bitAt w 20 && (c.loops.reverse.drop (fld w 18 2 + 1)).all (fun l => l.n != 0 && l.idx + 1 == l.n)

/-- A stream fault (R247): recorded if it is the first since load; the unit stops and the context is FAULTED. The STATE of the
others stays what they wait for. [DESIGN CHOICE log 119] -/
def streamFaultB (b : Brick) (k cause value : Nat) : Brick :=
  let c := getCtx b k
  let b1 := { setCtx b k { c with phase := .faulted } with stStop := true }
  if bitAt (obsW b1 0x8AC) 31 then b1
  else setObs b1 0x8AC (packW [(0, 16, value), (17, 5, c.pc), (22, 2, k), (24, 4, cause), (31, 1, 1)])

/-- A FAULT_STREAM of context k. -/
def streamFault (s : State) (key x y : Nat) (b : Brick) (k t cause value : Nat) : State :=
  let b1 := streamFaultB b k cause value
  faultBrick s key x y b1 fSTREAM uStream t
    (packW [(0, 16, value), (17, 5, (getCtx b k).pc), (22, 2, k), (24, 4, cause), (31, 1, 1)])

/-- Pops n entries of a port for the stream unit (R62). -/
def popN (on : Bool) (p t : Nat) : Nat → Brick → List Flit → Brick × List Flit
  | 0, b, acc => (b, acc.reverse)
  | n + 1, b, acc => popN on p t n (popRaw on b p t).1 ((popRaw on b p t).2 :: acc)

/-- The write of one entry of a LAND: with NKEEP a null entry leaves its word unchanged (R228). -/
def landWord (ea : Nat) (nkeep : Bool) (f : Flit) : List (Nat × List Byte) :=
  if nkeep && f.null then [] else [(ea, bytesLE 4 (flitVal f).toNat)]

/-- The writes of a LAND, one for each 64-bit word or part of one: entry j at ea + 4j. Two entries that cover a 64-bit word
write it whole (R228, R650). -/
def landParts (ea : Nat) (nkeep : Bool) : List Flit → List (Nat × List Byte)
  | [] => []
  | [f] => landWord ea nkeep f
  | f :: g :: r =>
    (if nkeep && (f.null || g.null) then landWord ea nkeep f ++ landWord (ea + 4) nkeep g
      else [(ea, bytesLE 4 (flitVal f).toNat ++ bytesLE 4 (flitVal g).toNat)]) ++ landParts (ea + 8) nkeep r

/-- The first uncorrectable 64-bit word among those that the writes cover in part and so read first (R650). -/
def partsBad (b : Brick) (ps : List (Nat × List Byte)) : Option Nat :=
  ps.findSome? (fun p => if 8 ≤ p.2.length then none else (sramHealth b p.1 p.2.length).2)

/-- The writes of one access: all of them, or none if one reads an uncorrectable word (R650). -/
def writeParts (b : Brick) (ps : List (Nat × List Byte)) : Brick × Option Nat :=
  match partsBad b ps with
  | some w => (b, some w)
  | none => (ps.foldl (fun b p => (sramWrite b p.1 p.2).1) b, none)

/-- The 32-bit words of a value, lowest first. -/
def wordsOf (n v : Nat) : List Word := (List.range n).map (fun i => BitVec.ofNat 32 (v >>> (32 * i)))

/-- The flits of an element: the EOM marker on the last one only. -/
def emitFlits (ws : List Word) (eom : Bool) : List (Word × Bool × Bool) :=
  ((List.range ws.length).zip ws).map (fun p => (p.2, false, eom && p.1 + 1 == ws.length))

/-- The end of an instruction of context k that has executed: loop ends, pointer, mark. [DEDUCED log 30] -/
def ctxDone (b : Brick) (k t : Nat) (c : Ctx) : Brick :=
  let (b1, c1) := loopEnd t 5 false b c
  { setCtx b1 k c1 with stPtr := (k + 1) % 4 }

/-- Context k executes its current instruction, `op`, in tcyc t; its bank is granted (R224-R230, R238). [DEDUCED log 16, DEDUCED log 30] -/
def streamExec (s : State) (key x y : Nat) (b : Brick) (k t : Nat) (op : SOp) : State :=
  let on := counting s x y
  let c := getCtx b k
  let w := stProg b c.pc
  let b := match streamBankOf b c op w with
    | some bank => mark (mark b 8) (4 + bank)
    | none => mark b 8
  let fin := fun (b : Brick) (c : Ctx) => touch (setB s key (ctxDone b k t c)) x y
  let ded := fun (b : Brick) (ea bad : Nat) =>
    faultBrick s key x y (streamFaultB b k 6 (ea % 65536)) fDED uStream t (BitVec.ofNat 32 bad)
  match op with
  | .sbase => fin b { c with addr := fld w 0 16 }
  | .sloop =>
    let c1 := { c with
      loops := ⟨c.pc + 1, c.pc + fld w 23 5, fld w 0 16, 0, bitAt w 22, fld w 19 3⟩ :: c.loops
      pc := (c.pc + 1) % 32 }
    touch (setB s key { setCtx b k c1 with stPtr := (k + 1) % 4 }) x y
  | .sstride => fin b { c with strides := sset 0 c.strides (fld w 26 2) (wrapW (4 * sx 16 (fld w 0 16))) }
  | .sbank => fin b { c with bankEn := bitAt w 27, bankRot := bitAt w 26, bankL := fld w 24 2, bankB := fld w 0 2 }
  | .sgate => fin (popN on (fld w 25 3) t 1 b []).1 c
  | .sstop => touch (setB s key { setCtx b k { c with phase := .done } with stPtr := (k + 1) % 4 }) x y
  | .emit =>
    match sAddr b c op w with
    | .at_ ea =>
      let n := sWords op w
      let (b1, v, bad) := sramRead b ea (4 * n)
      match bad with
      | some a => ded b1 ea a
      | none => fin (bump (sendFlits on b1 (fld w 12 5) t 0 (emitFlits (wordsOf n v) (emitEom c w))) (cElem k) 1) c
    | .breach cause v => streamFault s key x y b k t cause v
    | .none => fin b c
  | .land =>
    match sAddr b c op w with
    | .at_ ea =>
      let (b1, fs) := popN on (fld w 12 3) t (sWords op w) b []
      let parts := landParts ea (bitAt w 17) fs
      match writeParts b1 parts with
      | (b2, some a) => ded b2 ea a
      | (b2, none) =>
        let b3 := match sCbr op w with
          | some n => if parts.isEmpty then b2
              else { b2 with cb := smod {} b2.cb n (fun v => { v with filling := true }) }
          | none => b2
        fin (bump b3 (cElem k) 1) c
    | .breach cause v => streamFault s key x y b k t cause v
    | .none => fin b c
  | .sgather =>
    let n := sWords op w
    let b1 := (popN on (fld w 25 3) t 1 b []).1
    match sAddr b c op w with
    | .breach cause v => streamFault s key x y b1 k t cause v
    | .none =>
      fin (bump (sendFlits on b1 (fld w 20 5) t 0 (List.replicate n (0, true, false))) (cElem k) 1) c
    | .at_ ea =>
      let (b2, v, bad) := sramRead b1 ea (4 * n)
      match bad with
      | some a => ded b2 ea a
      | none => fin (bump (sendFlits on b2 (fld w 20 5) t 0 (emitFlits (wordsOf n v) false)) (cElem k) 1) c
  | .sfar =>
    match sAddr b c op w with
    | .at_ ea =>
      let (b1, v, bad) := sramRead b ea 32
      match bad with
      | some a => ded b1 ea a
      | none =>
        let ws := wordsOf 8 v
        let b2 := sendFlits on b1 (fld w 16 5) t 0 [(ws.headD 0, false, false)]
        touch (setB s key { mark (setCtx b2 k { c with farSlot := fld w 16 5, farLeft := ws.tail }) (70 + k) with
          stPtr := (k + 1) % 4 }) x y
    | .breach cause v => streamFault s key x y b k t cause v
    | .none => fin b c

/-- A stream instruction's step: the unit takes its context in tcyc t and executes it if it is `op` and its bank is granted;
a refused bank request is remembered for WAIT_BANK and nothing executes (R223). -/
def streamOp (op : SOp) (x y t : Nat) (s : State) : Option State :=
  brickAct s x y t (fun key b =>
    match streamPick b t with
    | none => none
    | some k =>
      let c := getCtx b k
      let w := stProg b c.pc
      if sopOf w != some op then none
      else
        let refused := match streamBankOf b c op w with
          | some bank => bankRefused s x y b [.t, .v, .s] bank t
          | none => false
        if refused then some { setB s key (setCtx b k { c with bankWait := t + 1 }) with resp := .held }
        else some { streamExec s key x y b k t op with resp := .done })

/-- SFAR_FLIT: context k sends the next flit of its request against a credit, at most one in a tcyc (R238); the eighth
carries EOM, and after it the context goes on. A faulted brick still completes the request (R247). -/
def sfarFlit (x y t k : Nat) (s : State) : Option State :=
  brickAct s x y t (fun key b =>
    let c := getCtx b k
    match c.farLeft with
    | [] => none
    | v :: r =>
      if marked b (70 + k) || sget 0 b.sndCred c.farSlot == 0
          || !(b.st == .running || b.st == .draining || b.st == .halted || b.st == .faulted) then none
      else
        let on := counting s x y
        let b1 := sendFlits on (mark b (70 + k)) c.farSlot t 0 [(v, false, r.isEmpty)]
        let c1 := { c with farLeft := r }
        let b2 := if r.isEmpty && c.phase == .active then
            (let (b', c') := loopEnd t 5 false b1 c1; setCtx b' k c')
          else setCtx b1 k c1
        some (touch (setB s key b2) x y))

/-- FILL_ACTION: the loop-end action of context k, which waited for DONE to clear, sets it, and the loop end goes on (R235). [DESIGN CHOICE log 18] -/
def fillAction (x y t k : Nat) (s : State) : Option State :=
  brickAct s x y t (fun key b =>
    let c := getCtx b k
    match c.loops with
    | l :: _ =>
      if c.ending && c.phase == .active && streamRuns b && !cbDoneAt b l.cb t then
        let b1 := cbSetDone (mark b (70 + k)) l.cb t
        let (b2, c2) := loopEnd t 5 true b1 { c with ending := false }
        some (touch (setB s key (setCtx b2 k c2)) x y)
      else none
    | [] => none)

/-- A context begins (R221): at its FIRST word, everything zero. -/
def beginCtx (b : Brick) (k : Nat) : Brick :=
  setCtx b k { phase := .active, pc := fld (cfgW b (0x600 + 4 * k)) 0 5 }

/-- SBASE (R224): SBASE sets a stream context's address register. -/
def execSbase (x : Fin 1104) (y : Fin 560) (t : Nat) (s : State) : Host.Outcome State Fault Refusal :=
  reply s (streamOp .sbase x y t s)

/-- SLOOP (R225): SLOOP opens a stream loop level. -/
def execSloop (x : Fin 1104) (y : Fin 560) (t : Nat) (s : State) : Host.Outcome State Fault Refusal :=
  reply s (streamOp .sloop x y t s)

/-- SSTRIDE (R224): SSTRIDE sets the stride of a loop level. -/
def execSstride (x : Fin 1104) (y : Fin 560) (t : Nat) (s : State) : Host.Outcome State Fault Refusal :=
  reply s (streamOp .sstride x y t s)

/-- SBANK (R226): SBANK sets the context's bank select. -/
def execSbank (x : Fin 1104) (y : Fin 560) (t : Nat) (s : State) : Host.Outcome State Fault Refusal :=
  reply s (streamOp .sbank x y t s)

/-- EMIT (R227): An SMOVE EMIT reads 4 or 8 bytes of SRAM and sends them as flits. -/
def execEmit (x : Fin 1104) (y : Fin 560) (t : Nat) (s : State) : Host.Outcome State Fault Refusal :=
  reply s (streamOp .emit x y t s)

/-- LAND (R228): An SMOVE LAND pops 1, 2 or 4 port entries and writes them to SRAM. -/
def execLand (x : Fin 1104) (y : Fin 560) (t : Nat) (s : State) : Host.Outcome State Fault Refusal :=
  reply s (streamOp .land x y t s)

/-- SGATHER (R230): SGATHER pops an index and sends the element it selects, or null flits for a null index. -/
def execSgather (x : Fin 1104) (y : Fin 560) (t : Nat) (s : State) : Host.Outcome State Fault Refusal :=
  reply s (streamOp .sgather x y t s)

/-- SFAR (R238): SFAR reads a request record and sends its first flit toward a MED. -/
def execSfar (x : Fin 1104) (y : Fin 560) (t : Nat) (s : State) : Host.Outcome State Fault Refusal :=
  reply s (streamOp .sfar x y t s)

/-- SGATE (R231): SGATE pops one entry and discards it. -/
def execSgate (x : Fin 1104) (y : Fin 560) (t : Nat) (s : State) : Host.Outcome State Fault Refusal :=
  reply s (streamOp .sgate x y t s)

/-- SSTOP (R222): SSTOP ends the context, which becomes DONE. -/
def execSstop (x : Fin 1104) (y : Fin 560) (t : Nat) (s : State) : Host.Outcome State Fault Refusal :=
  reply s (streamOp .sstop x y t s)

/-- SFAR_FLIT (R238): A later flit of an SFAR is sent when its credit is held. -/
def execSfarFlit (x : Fin 1104) (y : Fin 560) (t : Nat) (k : Fin 4) (s : State) :
    Host.Outcome State Fault Refusal :=
  answer s (sfarFlit x y t k s)

/-- FILL_ACTION (R235): The loop-end FILL action sets DONE of its castled buffer, waiting first while DONE is still set. -/
def execFillAction (x : Fin 1104) (y : Fin 560) (t : Nat) (k : Fin 4) (s : State) :
    Host.Outcome State Fault Refusal :=
  answer s (fillAction x y t k s)

end Sys2Proof.Machine
end

