-- ==== Sys2Proof/Machine/Expert.lean ====
section
/-! DEFINITION. Expert queues and the scatter engine (R326-R350). -/
namespace Sys2Proof.Machine

/-- Configuration of queue q (R347). -/
def eqA (b : Brick) (q : Nat) : Word := cfgW b (0x240 + 0x10 * q)
def eqB (b : Brick) (q : Nat) : Word := cfgW b (0x244 + 0x10 * q)
def eqEn (b : Brick) (q : Nat) : Bool := bitAt (eqA b q) 31
def eqKind (b : Brick) (q : Nat) : Nat := fld (eqA b q) 29 2
def eqScatter (b : Brick) (q : Nat) : Bool := bitAt (eqA b q) 28
def eqInt (b : Brick) (q : Nat) : Bool := bitAt (eqA b q) 27
def eqLen (b : Brick) (q : Nat) : Nat := fld (eqA b q) 21 6 + 1
def eqBase (b : Brick) (q : Nat) : Nat := fld (eqA b q) 0 16
def eqDport (b : Brick) (q : Nat) : Nat := fld (eqB b q) 20 3
def eqNS (b : Brick) (q : Nat) : Nat := fld (eqB b q) 0 12
def eqCount (b : Brick) (q : Nat) : Nat := fld (cfgW b (0x248 + 0x10 * q)) 0 16

/-- RING and FORWARD queues hold slots. -/
def eqSlots (b : Brick) (q : Nat) : Bool := eqKind b q == 0 || eqKind b q == 3

def getEq (b : Brick) (q : Nat) : EqState := sget {} b.eq q
def setEq (b : Brick) (q : Nat) (v : EqState) : Brick := { b with eq := sset {} b.eq q v }

/-- A queue as a load leaves it (R344): every slot free, counts cleared. -/
def eqFresh (b : Brick) (q : Nat) : EqState :=
  if eqEn b q && eqSlots b q then { free := List.range (eqNS b q) } else {}

/-- The expert-queue unit and the scatter engine run in these states (R344). -/
def expertRuns (b : Brick) : Bool := b.st == .running || b.st == .draining || b.st == .halted

/-- Can the unit take the head entry of port p in tcyc t (R329)? -/
def canTake (b : Brick) (p t : Nat) : Bool :=
  match eqOfPort b p with
  | none => false
  | some q =>
    let e := getEq b q
    !e.stopped && decide (0 < portReady b p t)
      && ((sfind e.opens p).isSome || !eqSlots b q || !e.free.isEmpty)

/-- The port whose head entry the unit takes in tcyc t. -/
def takePort (b : Brick) (t : Nat) : Option Nat :=
  if !expertRuns b || marked b 9 then none
  else ((List.range 8).map (fun i => (b.eqPtr + i) % 8)).find? (fun p => canTake b p t)

/-- Row and half of a tag (R335). -/
def rowOf (b : Brick) (q tag : Nat) : Nat := tag % eqNS b q
def halfOf (b : Brick) (q tag : Nat) : Nat := (tag / eqNS b q) % 2

/-- Address of payload word i for a tag (R335). -/
def targetAddr (b : Brick) (q tag i : Nat) : Nat :=
  eqBase b q + 4 * ((halfOf b q tag * eqNS b q + rowOf b q tag) * (eqLen b q - 1) + i - 1)

/-- Address of flit i of a slot. -/
def slotAddr (b : Brick) (q slot i : Nat) : Nat := eqBase b q + 4 * (slot * eqLen b q + i)

/-- The address the taking of an entry writes, if it writes. -/
def takeAddr (b : Brick) (q p : Nat) (f : Flit) : Option Nat :=
  let e := getEq b q
  match sfind e.opens p with
  | none => if eqSlots b q then e.free.head?.map (fun s => slotAddr b q s 0) else none
  | some o =>
    if eqSlots b q then some (slotAddr b q o.slot o.taken)
    else if o.nullPkt || (eqKind b q == 1 && f.null) then none
    else some (targetAddr b q o.tag o.taken)

/-- The bank the unit's take requests in tcyc t. -/
def eqWantsBank (b : Brick) (t : Nat) : Option Nat :=
  match takePort b t with
  | some p =>
    match eqOfPort b p with
    | some q => (takeAddr b q p ((portQ b p).headD {})).map bankOf
    | none => none
  | none => none

/-- A bank is taken in tcyc t or requested by a unit ahead of the expert-queue unit (R65). -/
def bankBusy (s : State) (x y : Nat) (b : Brick) (bank t : Nat) : Bool :=
  bankRefused s x y b [.t, .v, .s] bank t || streamWantsBank b t == some bank

/-- A FAULT_EXPERT (R346, R350): the first since load is kept. [DEDUCED log 16] -/
def expertFault (s : State) (k x y t : Nat) (b : Brick) (cause q port value : Nat) : State :=
  let w := packW [(0, 12, value), (23, 3, port), (26, 2, q), (28, 3, cause), (31, 1, 1)]
  let b1 := if bitAt (obsW b 0x8FC) 31 then b else setObs b 0x8FC w
  faultBrick s k x y b1 fEXPERT uExpert t w

/-- The word an entry leaves at its address: a slot's word, an accumulated word, a placed word. -/
def takeWord (b : Brick) (q a : Nat) (f : Flit) : Word :=
  if eqSlots b q then f.data
  else if eqKind b q = 1 then
    (if eqInt b q then sramWord b a + f.data
     else BitVec.ofNat 32 (fenc .fp32 false false false (fadd (fdec .fp32 (sramWord b a).toNat) (fdec .fp32 f.data.toNat))))
  else flitVal f

/-- A slot whose last flit is written becomes whole. -/
def markFlit (slot : Nat) (m : Bool × Bool) (last : Bool) (l : List EqSlot) : List EqSlot :=
  l.map (fun v => if v.slot = slot then { v with marks := v.marks ++ [m], whole := last } else v)

/-- The queue after it has taken flit number i of a packet from port p. The count of a half is cleared when it reaches COUNT, and
its notice then waits for room (R336). [DEDUCED log 16, DESIGN CHOICE log 19] -/
def takeState (b : Brick) (q p : Nat) (f : Flit) : EqState :=
  let e := getEq b q
  let len := eqLen b q
  match sfind e.opens p with
  | none =>
    if eqSlots b q then
      match e.free with
      | [] => e
      | sl :: r => { e with
          free := r
          order := e.order ++ [⟨sl, false, [(f.null, f.eom)]⟩]
          opens := sput e.opens p { slot := sl, taken := 1, nullPkt := f.null } }
    else { e with opens := sput e.opens p { tag := fld f.data 8 12, taken := 1, nullPkt := f.null } }
  | some o =>
    let last := o.taken + 1 = len
    let opens := if last then sdel e.opens p else sput e.opens p { o with taken := o.taken + 1 }
    if eqSlots b q then { e with opens := opens, order := markFlit o.slot (f.null, f.eom) last e.order }
    else if !last || o.nullPkt then { e with opens := opens }
    else
      let h := halfOf b q o.tag
      let n := (if h = 0 then e.c0 else e.c1) + 1
      let full := n = eqCount b q
      let c := if full then 0 else n
      let wt := if full then e.waiting ++ [h] else e.waiting
      if h = 0 then { e with opens := opens, c0 := c, waiting := wt } else { e with opens := opens, c1 := c, waiting := wt }

/-- EQ_TAKE (R329, R330, R335): one inbound entry in tcyc t. -/
def eqTake (x y t : Nat) (s : State) : Option State :=
  brickAct s x y t (fun k b =>
    match takePort b t with
    | none => none
    | some p =>
      match eqOfPort b p with
      | none => none
      | some q =>
        let f := (portQ b p).headD {}
        let ix := match sfind (getEq b q).opens p with | some o => o.taken | none => 0
        let on := counting s x y
        if f.eom != (ix + 1 == eqLen b q) then
          let b1 := mark (popRaw on b p t).1 9
          some (touch (expertFault s k x y t (setEq b1 q { getEq b1 q with stopped := true }) 1 q p 0) x y)
        else
          let addr := takeAddr b q p f
          if addr.any (fun a => bankBusy s x y b (bankOf a) t) then none
          else
            let b1 := { mark (popRaw on b p t).1 9 with eqPtr := (p + 1) % 8 }
            match addr with
            | none => some (touch (setB s k (setEq b1 q (takeState b q p f))) x y)
            | some a =>
              match sramWrite (mark b1 (4 + bankOf a)) a (bytesLE 4 (takeWord b q a f).toNat) with
              | (b2, some w) => some (touch (faultBrick s k x y b2 fDED uExpert t (BitVec.ofNat 32 w)) x y)
              | (b2, none) => some (touch (setB s k (setEq b2 q (takeState b q p f))) x y))

/-- A port has a free entry in tcyc t: one popped in t is free from t + 1. -/
def portRoom (b : Brick) (n t : Nat) : Bool :=
  decide ((portQ b n).length + b.credFly.countP (fun c => c.loc == 160 + n && c.due == t + 1) < 4)

/-- A flit placed in a delivery port in tcyc t can be popped from t + 1. -/
def placeFlit (b : Brick) (n t : Nat) (f : Flit) : Brick := setPort b n (portQ b n ++ [{ f with due := t + 1 }])

/-- EQ_NOTICE (R336): the oldest waiting notice of queue q enters DPORT. [DEDUCED log 20] -/
def eqNotice (x y t q : Nat) (s : State) : Option State :=
  brickAct s x y t (fun k b =>
    let e := getEq b q
    match e.waiting with
    | [] => none
    | h :: r =>
      if !expertRuns b || e.stopped || marked b (15 + q) || !portRoom b (eqDport b q) t then none
      else
        let n := (e.notices + 1) % 65536
        let b1 := placeFlit (mark (setEq b q { e with waiting := r, notices := n }) (15 + q)) (eqDport b q) t { data := packW [(0, 16, n), (16, 1, h)] }
        some (touch (setB s k b1) x y))

/-- The oldest ready slot: the oldest reserved one, once it is whole (R330). [DESIGN CHOICE log 19] -/
def readySlot (e : EqState) : Option EqSlot :=
  match e.order with
  | v :: _ => if v.whole then some v else none
  | [] => none

/-- Ready slots of queue q: whole ones in reservation order, less the one being replayed or sent, which its book counts apart. -/
def readyCount (b : Brick) (q : Nat) : Nat :=
  let e := getEq b q
  (e.order.takeWhile (·.whole)).length - b2n (decide (e.replayed ≠ 0) || b.sc.any (fun c => c.q == q))

/-- The slot at the head of the order is freed. -/
def freeHead (e : EqState) : EqState :=
  match e.order with
  | v :: r => { e with order := r, free := e.free ++ [v.slot], replayed := 0 }
  | [] => e

/-- Flit i of a slot as it was taken. -/
def slotFlit (v : EqSlot) (i data : Nat) : Flit :=
  let m := (v.marks[i]?).getD (false, false)
  { data := BitVec.ofNat 32 data, null := m.1, eom := m.2 }

/-- RING_REPLAY (R331): one flit of the oldest ready slot of queue q. -/
def ringReplay (x y t q : Nat) (s : State) : Option State :=
  brickAct s x y t (fun k b =>
    let e := getEq b q
    match readySlot e with
    | none => none
    | some v =>
      let a := slotAddr b q v.slot e.replayed
      if !expertRuns b || e.stopped || eqKind b q != 0 || marked b (11 + q) || !portRoom b (eqDport b q) t
          || bankBusy s x y b (bankOf a) t || eqWantsBank b t == some (bankOf a) then none
      else
        let (b1, w, bad) := sramRead (mark (mark b (11 + q)) (4 + bankOf a)) a 4
        match bad with
        | some adr => some (touch (faultBrick s k x y b1 fDED uExpert t (BitVec.ofNat 32 adr)) x y)
        | none =>
          let e1 := if e.replayed + 1 = eqLen b q then freeHead e else { e with replayed := e.replayed + 1 }
          some (touch (setB s k (placeFlit (setEq b1 q e1) (eqDport b q) t (slotFlit v e.replayed w))) x y))

/-- Does a RING queue of the brick still want this bank for its replay (R329: delivery reads before scatter reads)? -/
def replayWants (b : Brick) (bank t : Nat) : Bool :=
  (List.range 4).any (fun q =>
    eqEn b q && eqKind b q == 0 && !marked b (11 + q) && !(getEq b q).stopped && portRoom b (eqDport b q) t
      && (match readySlot (getEq b q) with
        | some v => bankOf (slotAddr b q v.slot (getEq b q).replayed) == bank
        | none => false))

/-- A bank the scatter engine cannot have in tcyc t. -/
def scBusy (s : State) (x y : Nat) (b : Brick) (bank t : Nat) : Bool :=
  bankBusy s x y b bank t || eqWantsBank b t == some bank || replayWants b bank t

def scTbase (b : Brick) : Nat := fld (cfgW b 0x280) 0 16
def scTsize (b : Brick) : Nat := fld (cfgW b 0x280) 16 12
def scEn (b : Brick) : Bool := bitAt (cfgW b 0x280) 31

/-- The queue whose oldest ready packet the engine begins. -/
def scPick (b : Brick) : Option Nat :=
  ((List.range 4).map (fun i => (b.scPtr + i) % 4)).find? (fun q =>
    eqEn b q && eqKind b q == 3 && !(getEq b q).stopped && (readySlot (getEq b q)).isSome)

/-- The engine stops on a fault of its current packet (R333, R346): cause 2 DEST, 3 SLOT. -/
def scFault (s : State) (k x y t : Nat) (b : Brick) (c : ScPacket) (cause dest : Nat) : State :=
  touch (expertFault s k x y t { b with sc := some c, scStop := true } cause c.q 0 dest) x y

/-- The engine looks up its current packet's DEST in tcyc t: the brick has read the header, or this is a later tcyc (R332, R333).
With the table's bank refused the packet waits for it. [DESIGN CHOICE log 21] -/
def scLook (s : State) (k x y t : Nat) (b : Brick) (c : ScPacket) (dest : Nat) : State :=
  let ta := scTbase b + 4 * dest
  if scTsize b ≤ dest then scFault s k x y t b c 2 dest
  else if scBusy s x y b (bankOf ta) t then setB s k { b with sc := some { c with look := some dest } }
  else
    let (b1, tw, bad) := sramRead (mark b (4 + bankOf ta)) ta 4
    let sl := nfld tw 0 5
    let ent := rtEntry b 4 sl
    match bad with
    | some adr => touch (faultBrick s k x y { b1 with sc := some c } fDED uExpert t (BitVec.ofNat 32 adr)) x y
    | none =>
      if nfld tw 31 1 = 0 then scFault s k x y t b1 c 2 dest
      else if !bitAt ent 31 || entrySrc ent ≠ 3 then scFault s k x y t b1 { c with dslot := sl } 3 dest
      else touch (setB s k { b1 with sc := some { c with look := none, dslot := sl } }) x y

/-- SCATTER_BEGIN (R333): the engine begins a packet with the read of its header and then of its table entry, in one tcyc where
both banks are free and differ, else in two; or it frees a null packet. [DESIGN CHOICE log 21] -/
def scatterBegin (x y t : Nat) (s : State) : Option State :=
  brickAct s x y t (fun k b =>
    if !expertRuns b || !scEn b || b.scStop || marked b 10 then none
    else match b.sc with
    | some c =>
      (match c.look with
        | none => none
        | some dest =>
          if scBusy s x y b (bankOf (scTbase b + 4 * dest)) t then none
          else some (scLook s k x y t (mark b 10) c dest))
    | none =>
      match scPick b with
      | none => none
      | some q =>
        let e := getEq b q
        match readySlot e with
        | none => none
        | some v =>
          let b0 := { mark b 10 with scPtr := (q + 1) % 4 }
          if (slotFlit v 0 0).null then
            some (touch (setB s k { setEq b0 q (freeHead e) with scNulls := (b.scNulls + 1) % 32768 }) x y)
          else
            let a := slotAddr b q v.slot 0
            if scBusy s x y b (bankOf a) t then none
            else
              let c : ScPacket := { q := q, slot := v.slot }
              let (b1, hw, bad) := sramRead (mark b0 (4 + bankOf a)) a 4
              match bad with
              | some adr => some (touch (faultBrick s k x y { b1 with sc := some c } fDED uExpert t (BitVec.ofNat 32 adr)) x y)
              | none => some (scLook s k x y t b1 c (nfld hw 20 12)))

/-- SCATTER_FLIT (R333): the engine sends the next flit of its packet against a credit. -/
def scatterFlit (x y t : Nat) (s : State) : Option State :=
  brickAct s x y t (fun k b =>
    match b.sc with
    | none => none
    | some c =>
      let e := getEq b c.q
      match readySlot e with
      | none => none
      | some v =>
        let a := slotAddr b c.q c.slot c.sent
        if !expertRuns b || b.scStop || c.look.isSome || marked b 10 || sget 0 b.sndCred c.dslot == 0
            || scBusy s x y b (bankOf a) t then none
        else
          let (b1, w, bad) := sramRead (mark (mark b 10) (4 + bankOf a)) a 4
          match bad with
          | some adr => some (touch (faultBrick s k x y b1 fDED uExpert t (BitVec.ofNat 32 adr)) x y)
          | none =>
            let f := slotFlit v c.sent w
            let b2 := sendFlits (counting s x y) b1 c.dslot t 0 [(f.data, f.null, f.eom)]
            let b3 := if c.sent + 1 = eqLen b c.q then { setEq b2 c.q (freeHead e) with sc := none }
              else { b2 with sc := some { c with sent := c.sent + 1 } }
            some (touch (setB s k b3) x y))

/-- BRK_EQ_LIVE of queue q (R348). -/
def eqLive (b : Brick) (q : Nat) : Word :=
  let e := getEq b q
  let sl := eqSlots b q
  packW [(20, 12, if sl then e.free.length else e.c0), (8, 12, if sl then readyCount b q else e.c1),
    (0, 8, packNat (e.opens.map (fun p => (p.1, 1, 1))))]

/-- BRK_SC_LIVE (R349): a packet whose header or table read is refused its bank shows WAIT_BANK; one that a fault stopped keeps its
queue. [DESIGN CHOICE log 21] -/
def scLive (s : State) (x y : Nat) (b : Brick) : Word :=
  let busy := fun (a : Nat) => !marked b 10 && scBusy s x y b (bankOf a) b.useT
  match b.sc with
  | none =>
    let wait := (scPick b).bind (fun q => match readySlot (getEq b q) with
      | some v => if (slotFlit v 0 0).null || !busy (slotAddr b q v.slot 0) then none else some q
      | none => none)
    match wait with
    | some q => if expertRuns b && scEn b && !b.scStop then packW [(28, 4, 3), (26, 2, q), (0, 15, b.scNulls)]
        else packW [(28, 4, if b.scStop then 4 else 0), (0, 15, b.scNulls)]
    | none => packW [(28, 4, if b.scStop then 4 else 0), (0, 15, b.scNulls)]
  | some c =>
    let st := if b.scStop then 4
      else match c.look with
        | some d => if busy (scTbase b + 4 * d) then 3 else 1
        | none =>
          if sget 0 b.sndCred c.dslot = 0 then 2 else if busy (slotAddr b c.q c.slot c.sent) then 3 else 1
    packW [(28, 4, st), (26, 2, c.q), (21, 5, c.dslot), (15, 6, c.sent), (0, 15, b.scNulls)]

/-- EQ_TAKE (R329). -/
def execEqTake (x : Fin 1104) (y : Fin 560) (t : Nat) (s : State) : Host.Outcome State Fault Refusal :=
  answer s (eqTake x y t s)

/-- SCATTER_BEGIN (R333). -/
def execScatterBegin (x : Fin 1104) (y : Fin 560) (t : Nat) (s : State) : Host.Outcome State Fault Refusal :=
  answer s (scatterBegin x y t s)

/-- SCATTER_FLIT (R333). -/
def execScatterFlit (x : Fin 1104) (y : Fin 560) (t : Nat) (s : State) : Host.Outcome State Fault Refusal :=
  answer s (scatterFlit x y t s)

/-- EQ_NOTICE (R336). -/
def execEqNotice (x : Fin 1104) (y : Fin 560) (t : Nat) (q : Fin 4) (s : State) :
    Host.Outcome State Fault Refusal := answer s (eqNotice x y t q s)

/-- RING_REPLAY (R331). -/
def execRingReplay (x : Fin 1104) (y : Fin 560) (t : Nat) (q : Fin 4) (s : State) :
    Host.Outcome State Fault Refusal := answer s (ringReplay x y t q s)

end Sys2Proof.Machine
end

