-- ==== Sys2Proof/Machine/Stall.lean ====
section
/-! DEFINITION. Stall tcyc: the cause charged, and LOCAL, ELASTIC or INHERITED (R70, R439-R442). -/
namespace Sys2Proof.Machine

/-- What a local resource can wait for: an issue queue or a stream context of a brick. -/
inductive Supplier where
  | que (x y : Nat) (q : Que)
  | ctx (x y k : Nat)
deriving DecidableEq, Repr

/-- The stream context of a brick that can reach an instruction naming a slot, or a port (R232). -/
def ctxUses (b : Brick) (f : SOp → Word → Bool) : Option Nat :=
  (List.range 4).find? (fun k => (ctxOps b k).any (fun q => f q.2.1 q.2.2))

/-- The sender of a local slot (R191). -/
def senderOf (x y : Nat) (b : Brick) (sl : Nat) : List Supplier :=
  match entrySrc (rtEntry b 4 sl) with
  | 0 => [.que x y .s]
  | 1 => [.que x y .v]
  | 2 => ((ctxUses b (fun op w => (sSlot op w).any (fun p => p.1 == sl))).map (Supplier.ctx x y)).toList
  | _ => []

/-- The owner of a port (R80). -/
def ownerOf (x y : Nat) (b : Brick) (n : Nat) : List Supplier :=
  match portOwner b n with
  | 1 => [.que x y .s]
  | 2 => [.que x y .v]
  | 3 => [.que x y .t]
  | 4 => ((ctxUses b (fun op w => (sPort op w).any (fun p => p.1 == n))).map (Supplier.ctx x y)).toList
  | _ => []

/-- The sender at the root of the channel that ends in direction d, slot or port n, of brick (x, y), followed upward. -/
def rootSender (s : State) : Nat → Nat → Nat → Nat → Nat → List Supplier
  | 0, _, _, _, _ => []
  | fuel + 1, x, y, d, n =>
    match keyOf s x y with
    | none => []
    | some k =>
      let b := getB s k
      match (List.range 160).find? (fun ix =>
          (slotBranches b ix).any (fun br => br.dir == d && br.next == n)) with
      | none => []
      | some ix =>
        if ix / 32 = 4 then senderOf x y b (ix % 32)
        else match neighbour x y (ix / 32) with
          | some (x', y') => rootSender s fuel x' y' (facing (ix / 32)) (ix % 32)
          | none => []

/-- The owners of the ports at a channel's leaves. -/
def leafOwners (s : State) (x y sl : Nat) : List Supplier :=
  (leaves s x y 4 sl).flatMap (fun l => match l.1 with
    | .port x' y' n => (match keyOf s x' y' with | some k => ownerOf x' y' (getB s k) n | none => [])
    | _ => [])

/-- The owners of the delivery ports of the RING queues that a channel feeds (R440). -/
def ringOwners (s : State) (x y sl : Nat) : List Supplier :=
  (leaves s x y 4 sl).flatMap (fun l => match l.1 with
    | .port x' y' n =>
      (match keyOf s x' y' with
        | some k =>
          let b := getB s k
          (match eqOfPort b n with
            | some q => if eqKind b q = 0 then ownerOf x' y' b (eqDport b q) else []
            | none => [])
        | none => [])
    | _ => [])

/-- Arrivals that a participant has made at barrier k: generations completed, less the releases on their way to it, plus
its OUT. -/
def arrivalsOf (bd : Board) (b : Brick) (x y k : Nat) : Nat :=
  sget 0 bd.barGen k + sget 0 b.barOut k
    - bd.releases.countP (fun r => r.bar == k && r.x == x && r.y == y)

/-- The S queues of the participants that have not arrived for the generation a head of (x, y) awaits: its own last
ARRIVE's for WAITB, the one before it for an ARRIVE that finds OUT = 2. -/
def lateOnes (s : State) (x y k : Nat) (b : Brick) (arrive : Bool) : List Supplier :=
  match boardAt s x y with
  | none => []
  | some n =>
    let bd := getBd s n
    let mine := arrivalsOf bd b x y k
    let g := if arrive then mine - 2 else mine - 1
    (participants s n k).filterMap (fun p =>
      if arrivalsOf bd (getB s p.2.2) p.1 p.2.1 k ≤ g then some (.que p.1 p.2.1 .s) else none)

/-- The queue of the oldest instruction that a head awaits and that has not issued (R440). -/
def awaitedQueue (s : State) (x y : Nat) (b : Brick) (h : QEntry) : List Supplier :=
  let rd := rdE h; let wr := wrE h
  let waits := fun (e : QEntry) => decide (e.seq < h.seq) &&
    (opE h == .halt || meets (wrE e) (rd ++ wr) || meets (rdE e) wr || memHeld s x y b h e)
  match (queued b).filter waits with
  | [] => []
  | e :: r => [.que x y (queOf (r.foldl (fun m e => if e.seq < m.seq then e else m) e).word)]

/-- Class registers of a brick (R454) and of its board's barriers (R455). -/
def elPort (b : Brick) (n : Nat) : Bool := bitAt (obsW b 0x110) n
def elSlot (b : Brick) (n : Nat) : Bool := bitAt (obsW b 0x114) n
def elCb (b : Brick) (n : Nat) : Bool := bitAt (obsW b 0x11C) n
def elBar (s : State) (x y k : Nat) : Bool :=
  match boardAt s x y with
  | some n => bitAt (sget 0 (getBd s n).regs (0xC38 + 4 * (k / 32))) (k % 32)
  | none => false

/-- The resource of a stalled head: is it elastic, and who supplies it (R439, R440)? [DEDUCED log 23] -/
def headSource (s : State) (x y t : Nat) (b : Brick) (h : QEntry) (cause : Nat) : Bool × List Supplier :=
  let op := opE h; let w := h.word
  match cause with
  | 1 =>
    let pops := popsOf op w
    (match pops.find? (fun n => decide (portReady b n t < (pops.filter (· == n)).length)) with
      | some n => (elPort b n, rootSender s 4096000 x y 4 n)
      | none => (false, []))
  | 2 => (match sendsOf op w with | some (sl, _) => (elSlot b sl, leafOwners s x y sl) | none => (false, []))
  | 3 => (match sendsOf op w with | some (sl, _) => (elSlot b sl, ringOwners s x y sl) | none => (false, []))
  | 4 => (elBar s x y (fld w 0 6), lateOnes s x y (fld w 0 6) b (op == .arrive))
  | 5 => (elCb b (fld w 0 3), [.ctx x y (fld (cfgW b (0x620 + 8 * fld w 0 3)) 29 2)])
  | 6 => (false, awaitedQueue s x y b h)
  | _ => (false, [])

/-- Is a supplier held of itself in tcyc t, and which suppliers would hold it (R441)? [DEDUCED log 23] -/
def supplierLook (s : State) (t : Nat) : Supplier → Bool × List Supplier
  | .que x y q =>
    match keyOf s x y with
    | none => (true, [])
    | some k =>
      let b0 := getB s k
      let b := (brickAt b0 t).getD b0
      if !(b.st == .running || b.st == .draining) then (true, [])
      else match (queGet b q).filter (fun h => decide (h.due ≤ t)) with
        | [] =>
          -- A REPG that awaits its count is for no queue: nobody is held through it.
          if b.dispStall then
            let w := sget 0 b.pmem b.pc
            (false, match iBOp w with
              | some .repg => []
              | _ => [.que x y (queOf w)])
          else (false, [])
        | h :: _ =>
          if marked b (queIx q) then (false, [])
          else
            let c := headCause s x y b q h t
            if c = 0 then (false, []) else headSource s x y t b h c
  | .ctx x y k =>
    match keyOf s x y with
    | none => (true, [])
    | some key =>
      let b0 := getB s key
      let b := (brickAt b0 t).getD b0
      let c := getCtx b k
      if !(b.st == .running || b.st == .draining) || c.phase == .done then (true, [])
      else if !c.farLeft.isEmpty then (true, [])
      else if c.phase != .active then (false, [])
      else
        let w := stProg b c.pc
        match ctxState b c t with
        | 3 => (match (sopOf w).bind (fun op => sPort op w) with
            | some p => (elPort b p.1, rootSender s 4096000 x y 4 p.1)
            | none => (false, []))
        | 4 => (match (sopOf w).bind (fun op => sSlot op w) with
            | some p => (elSlot b p.1, if toExpert s x y p.1 then ringOwners s x y p.1 else leafOwners s x y p.1)
            | none => (false, []))
        | 5 =>
          let n := if c.ending then (c.loops.head?.map (·.cb)).getD 0 else ((sopOf w).bind (fun op => sCbr op w)).getD 0
          (elCb b n, [.que x y .s])
        | _ => (false, [])

/-- Does a held supplier stand anywhere behind these ones? -/
def anyHeld (s : State) (t : Nat) : Nat → List Supplier → List Supplier → Bool
  | 0, _, _ => false
  | _ + 1, [], _ => false
  | fuel + 1, p :: r, seen =>
    if seen.contains p then anyHeld s t fuel r seen
    else
      let (direct, next) := supplierLook s t p
      direct || anyHeld s t fuel (next ++ r) (p :: seen)

/-- The counter a stall of queue q with a cause adds to (R442). -/
def stallIndex (s : State) (x y t : Nat) (b : Brick) (q : Que) (h : QEntry) (cause : Nat) : Nat :=
  let (el, sup) := headSource s x y t b h cause
  0x30 + 0x10 * queIx q + (if el then 8 else if anyHeld s t 400000 sup [] then 9 else cause)

/-- The queue of a number. -/
def queOfIx : Nat → Que
  | 0 => .s
  | 1 => .v
  | _ => .t

/-- STALL_TCYC (R70, R442): the head of queue q has not issued in tcyc t; the stall is charged once. -/
def stallTcyc (x y t qi : Nat) (s : State) : Option State :=
  let q := queOfIx qi
  brickAct s x y t (fun k b =>
    if !(b.st == .running || b.st == .draining) || marked b (60 + qi) || marked b qi then none
    else match queGet b q with
      | [] => none
      | h :: _ =>
        if t < h.due then none
        else
          let c := headCause s x y b q h t
          if c = 0 then none
          else
            let b1 := bumpC (counting s x y) (mark b (60 + qi)) (stallIndex s x y t b q h c) 1
            some (setB s k (match q with
              | .s => { b1 with causeS := c } | .v => { b1 with causeV := c } | .t => { b1 with causeT := c })))

/-- STALL_TCYC (R442). -/
def execStallTcyc (x : Fin 1104) (y : Fin 560) (t : Nat) (q : Fin 3) (s : State) :
    Host.Outcome State Fault Refusal := answer s (stallTcyc x y t q s)

end Sys2Proof.Machine
end

