-- ==== Sys2Proof/Machine/Device.lean ====
section
/-! DEFINITION. Named operations over the device: MEDs, HEDs, channels, functions, messages to the host, violations, bus errors,
energy activity. -/
namespace Sys2Proof.Machine

def getMed (s : State) (m : Nat) : Med := sget {} s.meds m
def setMed (s : State) (m : Nat) (v : Med) : State := { s with meds := sset {} s.meds m v }
def modMed (s : State) (m : Nat) (f : Med → Med) : State := setMed s m (f (getMed s m))

def getHed (s : State) (h : Nat) : Hed := sget {} s.heds h
def setHed (s : State) (h : Nat) (v : Hed) : State := { s with heds := sset {} s.heds h v }
def modHed (s : State) (h : Nat) (f : Hed → Hed) : State := setHed s h (f (getHed s h))

def getCh (s : State) (h c : Nat) : Chan := sget {} (getHed s h).chans c
def setCh (s : State) (h c : Nat) (v : Chan) : State := modHed s h (fun e => { e with chans := sset {} e.chans c v })
def modCh (s : State) (h c : Nat) (f : Chan → Chan) : State := setCh s h c (f (getCh s h c))

def getPort (s : State) (h k : Nat) : Port := sget {} (getHed s h).ports k
def setPortP (s : State) (h k : Nat) (v : Port) : State := modHed s h (fun e => { e with ports := sset {} e.ports k v })

def getSlot (s : State) (h n : Nat) : Slot := sget {} (getHed s h).slots n
def setSlot (s : State) (h n : Nat) (v : Slot) : State := modHed s h (fun e => { e with slots := sset {} e.slots n v })

def getWin (d : Med) (b : Nat) : MedWin := sget {} d.wins b
def setWin (d : Med) (b : Nat) (v : MedWin) : Med := { d with wins := sset {} d.wins b v }

/-- Functions: PF of HEDh is 5h, VF k of HEDh 5h + 1 + k, the Steward 20. -/
def pfIx (h : Nat) : Nat := 5 * h
def vfIx (b : Nat) : Nat := 5 * (b / 4) + 1 + b % 4
def fnIx : Fn → Nat
  | .pf h => 5 * h
  | .vf h k => 5 * h + 1 + k
  | .steward => 20

def getFn (s : State) (i : Nat) : FnSt := sget {} s.fns i
def setFn (s : State) (i : Nat) (v : FnSt) : State := { s with fns := sset {} s.fns i v }
def modFn (s : State) (i : Nat) (f : FnSt → FnSt) : State := setFn s i (f (getFn s i))

/-- An MSI-X signal: a message, or the pending bit while the vector is masked or the function may not issue requests
(R558, R574). [DESIGN CHOICE log 63] -/
def signal (s : State) (fn vec : Nat) : State :=
  let f := getFn s fn
  if !bitAt (sget 0 f.msix (16 * vec + 12)) 0 || !f.bme then setFn s fn { f with pba := sset 0 f.pba vec 1 }
  else { s with toHost := s.toHost ++ [.irq fn vec] }

/-- The vectors of R573. -/
def sigBoard (s : State) (b : Nat) : State := signal s (vfIx b) 0
def sigSlate (s : State) : State := signal s (pfIx 0) 1
def sigClock (s : State) : State := signal s (pfIx 0) 2
def sigPower (s : State) : State := signal s (pfIx 0) 3
def sigDev (s : State) : State := signal s (pfIx 0) 5
def sigStesy (s : State) (h : Nat) : State := signal s (pfIx h) 6
def sigFault (s : State) (b : Nat) : State := signal (signal s (vfIx b) 2) (pfIx (b / 4)) (8 + b)

/-- An access that is not permitted: counted for its board, or for the device (R621). -/
def violate (s : State) (ctx : Option Nat) : State :=
  { s with flt := { s.flt with viol := smod 0 s.flt.viol (ctx.getD 16) (fun c => evAdd c 1) } }

/-- The board context of a function (R288). -/
def fnCtx : Fn → Option Nat
  | .vf h k => some (4 * h + k)
  | _ => none

/-- A permitted access that reaches a gated peripheral or an OFF domain (R622): a Completer Abort logged under AER, or a
Steward bus fault. -/
def busError (s : State) (f : Fn) (target : Nat) : State :=
  match f with
  | .steward =>
    let s1 := { s with flt := { s.flt with
      busErr := packW [(21, 5, target), (26, 5, 12), (20, 1, 1), (31, 1, 1)]
      dev := s.flt.dev ||| (1#32 <<< 28) } }
    sigDev { s1 with resp := .busError }
  | _ => { modFn s (fnIx f) (fun v => { v with aer := smod 0 v.aer 0 (· + 1) }) with resp := .busError }

/-- Clock enables (R526): SLATE, EPX, the Steward's timers, MED, STESY, LEXICON. -/
def enW (s : State) (h : Nat) : Word := sget 0 s.clk.en h
def slateOn (s : State) : Bool := bitAt (enW s 0) 31
def epxOn (s : State) (h : Nat) : Bool := bitAt (enW s h) 30
def timerOn (s : State) : Bool := bitAt (enW s 0) 5
def medOn (s : State) (m : Nat) : Bool := bitAt (enW s (m % 4)) (if m < 4 then 12 else 13)
def stesyOn (s : State) (h k : Nat) : Bool := bitAt (enW s h) (8 + k)
def lexOn (s : State) (h : Nat) : Bool := bitAt (enW s h) 3

/-- The link keepers hold the links: the device waits for a reference, or has not resumed in full (R519, R520). [DEDUCED log 68] -/
def linkKept (s : State) : Bool := s.clk.waiting || s.clk.resuming

/-- The edge-die clocks run: boot has locked them and the device does not wait for a reference (R518). -/
def edgeRuns (s : State) : Bool := !s.clk.waiting && (s.boot.done || decide (2 ≤ s.boot.step))

/-- The MED that faces column x at the north or south edge, and the column's index there (R45). -/
def medOf (x : Nat) (south : Bool) : Nat := x / 276 + (if south then 4 else 0)
def colOf (x : Nat) : Nat := x % 276

/-- Key of a receive or injection slot of a MED. -/
def slotKey (col lane slot : Nat) : Nat := (2 * col + lane) * 32 + slot

/-- Logical column and row of a MED's column index. -/
def medX (m col : Nat) : Nat := 276 * (m % 4) + col
def medY (m : Nat) : Nat := if m < 4 then 0 else 559

/-- The board whose rectangle contains the brick that faces a MED column (R262). -/
def portBoard (s : State) (m col : Nat) : Option Nat := boardAt s (medX m col) (medY m)

/-- A sticky device bit of FAULT_DEV_STAT. -/
def devBit (s : State) (i : Nat) : State := { s with flt := { s.flt with dev := s.flt.dev ||| (1#32 <<< i) } }

/-- A fault of a board that names no brick joins the faults to be reported. -/
def raiseBoard (s : State) (code b : Nat) (detail : Word) : State := raiseAt s code (some b) detail

/-- The function named by LOAD, CHECK: a board commanded through a function that may reach it (R414, R560). [DEDUCED log 97] -/
def reaches (f : Fn) (b : Nat) : Bool :=
  match f with
  | .vf h k => decide (4 * h.val + k.val = b)
  | _ => true

/-- PF or Steward. [DESIGN CHOICE log 93] -/
def isPf : Fn → Bool
  | .vf _ _ => false
  | _ => true

/-- The register blocks, as far as the order of services tells them apart (R489, R519). -/
inductive Blk where
  | ident | time | clk | slate | other
deriving DecidableEq, Repr

/-- Can an access of a function arrive at all? Its endpoint's link is up and a VF is enabled; the Steward runs. [DESIGN CHOICE log 93, DEDUCED log 94] -/
def linkOk (s : State) : Fn → Bool
  | .pf h => (sget {} s.ends h).up
  | .vf h _ => (sget {} s.ends h).up && (sget {} s.ends h).vfEnable
  | .steward => !s.pwr.inReset

/-- May the device issue requests as a function (R558)? [DESIGN CHOICE log 93] -/
def fnMaster (s : State) (i : Nat) : Bool := i == 20 || ((getFn s i).bme && (sget {} s.ends (i / 5)).up)

/-- Is a block served: until boot is DONE only IDENT, TIME and SLATE over PCI Express (R489); while the link keepers hold the
links only reads of CLK and TIME, and nothing of the Steward (R519, R521)? -/
def blkServed (s : State) (f : Fn) (blk : Blk) (rd : Bool) : Bool :=
  if linkKept s then f != .steward && rd && (blk == .clk || blk == .time)
  else f == .steward || s.boot.done || blk == .ident || blk == .time || blk == .slate

/-- An access through a function: it arrives or waits; it is not permitted (R621); its block or peripheral is not served
(R622, target number of R286 given); or it has its effect. Permission is decided first. [DEDUCED log 94] -/
def access (s : State) (f : Fn) (blk : Blk) (rd ok served : Bool) (target : Nat) (r : State) : Option State :=
  if !linkOk s f then none
  else if !ok then some { violate s (fnCtx f) with resp := .violation }
  else if !(blkServed s f blk rd && served) then some (busError s f target)
  else some r

end Sys2Proof.Machine
end

