-- ==== Sys2Proof/Machine/Mortar.lean ====
section
/-! DEFINITION. Mortar: forwarding and arbitration, credits, ties (R180-R200). -/
namespace Sys2Proof.Machine

/-- Key of a slot's FIFO: 32·input + slot. -/
def fifoOf (b : Brick) (ix : Nat) : List Flit := sget [] b.fifos ix

/-- Key of a branch's credits: slot index and branch. -/
def credKey (ix br : Nat) : Nat := 2 * ix + br

/-- Buffers of a router slot (R180). -/
def slotCap (s : Nat) : Nat := if s < 24 then 2 else 1
/-- Buffers of a tie landing slot, and of a MED receive slot or edge landing slot (R184). -/
def tieCap (s : Nat) : Nat := if s < 24 then 12 else 1
def edgeCap (s : Nat) : Nat := if s < 24 then 16 else 1

/-- Does input i of (x, y) face a MED edge port? -/
def edgeInput (y i : Nat) : Bool := (i == 0 && y == 0) || (i == 2 && y == 559)

/-- Flits an input forwards in a tcyc (R188). -/
def inputLimit (y i : Nat) : Nat := if i = 4 ∨ edgeInput y i then 2 else 1

/-! ### Transfers and return words (R195, R196) -/

/-- One step of CRC-6: the register takes the next bit; generator x⁶ + x + 1. -/
def crc6Step (c : BitVec 6) (bit : Bool) : BitVec 6 :=
  let sh := c <<< 1
  if c.getLsbD 5 != bit then sh ^^^ 3#6 else sh

/-- CRC-6 over bits [49:6] of a transfer, most significant bit first, from 0b11_1111 (R195). [DEDUCED log 124] -/
def crc6 (v : BitVec 44) : BitVec 6 := (List.range 44).foldl (fun c i => crc6Step c (v.getLsbD (43 - i))) 0x3F#6

/-- The 44 bits of a transfer above its CRC: DATA, NULL, EOM, SIDE, TSEQ. -/
def xferBits (a : Xfer) : BitVec 44 :=
  a.flit.data ++ BitVec.ofBool a.flit.null ++ BitVec.ofBool a.flit.eom ++ BitVec.ofNat 5 a.slot ++ BitVec.ofNat 5 a.seq

/-- The 50-bit word of a transfer (R195). -/
def xferWord (a : Xfer) : BitVec 50 := xferBits a ++ crc6 (xferBits a)

/-- The transfer that a word carries. -/
def xferOf (w : BitVec 50) : Xfer :=
  ⟨(w.extractLsb' 6 5).toNat, (w.extractLsb' 11 5).toNat, { data := w.extractLsb' 18 32, null := w.getLsbD 17, eom := w.getLsbD 16 }⟩

/-- Is the CRC of a received word correct? -/
def xferOk (w : BitVec 50) : Bool := crc6 (w.extractLsb' 6 44) == w.extractLsb' 0 6

/-- Beat 0 and beat 1 of a word on a tie, and the word of two beats. -/
def beatsOf (w : BitVec 50) : BitVec 25 × BitVec 25 := (w.extractLsb' 25 25, w.extractLsb' 0 25)
def ofBeats (p : BitVec 25 × BitVec 25) : BitVec 50 := p.1 ++ p.2

/-- Bits [18:6] of a return word: CV, CSLOT, AK, ASEQ (R196). -/
def retBits (r : RetWord) : BitVec 13 :=
  let ak := match r.ak with
    | .none => (0, 0)
    | .ack n => (1, n)
    | .nak n => (2, n)
  BitVec.ofBool r.credit.isSome ++ BitVec.ofNat 5 (r.credit.getD 0) ++ BitVec.ofNat 2 ak.1 ++ BitVec.ofNat 5 ak.2

/-- What a return word says; the reserved code of AK says nothing. -/
def retOf (w : BitVec 13) : RetWord :=
  { credit := if w.getLsbD 12 then some (w.extractLsb' 7 5).toNat else none
    ak := match (w.extractLsb' 5 2).toNat with
      | 1 => .ack (w.extractLsb' 0 5).toNat
      | 2 => .nak (w.extractLsb' 0 5).toNat
      | _ => .none }

/-- How a receiving bridge judges a transfer (R198, R200). -/
inductive Judged where
  | lands (a : Xfer)
  | discarded
  | asked
  | dies
deriving DecidableEq, Repr

/-- The judgement of a transfer sent as `w` whose wires flip the bits of `err`: the expected one lands if its CRC is correct;
after a NAK every other one is discarded; else it is asked for again, and the eighth failure in a row is the bridge's end. [DEDUCED log 124] -/
def judge (expect : Nat) (nakOut : Bool) (fails : Nat) (w err : BitVec 50) : Judged :=
  let r := w ^^^ err
  if xferOk r && (xferOf r).seq == expect then .lands (xferOf r)
  else if nakOut && (xferOf w).seq != expect then .discarded
  else if 8 ≤ fails + 1 then .dies
  else .asked

/-! ### Forwarding -/

/-- Tcyc of the sending field that 2 tcyc of the receiving field last, at the fields' present points (R197). [DESIGN CHOICE log 122] -/
def tieGap (s : State) (snd rcv : Nat) : Nat :=
  let r := (getField s rcv).m
  if r = 0 then 2 else (2 * (getField s snd).m + r - 1) / r

/-- Can the far end of a branch take a flit in tcyc t, beyond credits: a tie that is alive, has sent its last flit, does not resend
and may take its next transfer, a live edge bridge that does not retry, a link that is not
quarantined, ports that accept (R192, R197, R199, R200, R204, R615)? -/
def farTakes (s : State) (x y t : Nat) (b : Brick) (br : Branch) : Bool :=
  if br.dir = 4 then portsAccept b && portEn b br.next
  else if br.dir = 5 ∨ br.dir = 6 then
    let e := getEdge s (edgeKey x (y != 0))
    !e.dead && !e.out.nakOut
  else match neighbour x y br.dir with
    | none => false
    | some (x', y') =>
      if fieldOf x y = fieldOf x' y' then
        (keyOf s x' y').any (fun k => !(getB s k).quarLinks.getLsbD (facing br.dir))
      else
        let v := getTie s (tieKey x' y' (facing br.dir))
        !v.dead && v.out.isEmpty && v.again.isEmpty && decide (v.busyT ≤ t)

/-- The edge bridge's replay store has room for every branch that leads to it (R199, R204). -/
def edgeRoom (s : State) (x y : Nat) (bs : List Branch) : Bool :=
  let n := bs.countP (fun br => br.dir == 5 || br.dir == 6)
  n == 0 || decide ((getEdge s (edgeKey x (y != 0))).out.replay.length + n ≤ 16)

/-- Every branch of the head's entry holds a credit, and its far end takes the flit in tcyc t. -/
def canLeave (s : State) (x y t : Nat) (b : Brick) (ix : Nat) (bs : List Branch) : Bool :=
  edgeRoom s x y bs && ((List.range bs.length).zip bs).all (fun p =>
    decide (0 < sget 0 b.cred (credKey ix p.1)) && farTakes s x y t b p.2)

/-- The head flit of slot ix has entered by tcyc t. -/
def headAt (b : Brick) (ix t : Nat) : Option Flit :=
  match fifoOf b ix with
  | f :: _ => if f.due ≤ t then some f else none
  | [] => none

/-- R187 for slot ix of brick (x, y), with the outputs and inputs already granted in this tcyc. -/
def mayForward (s : State) (x y : Nat) (b : Brick) (ix t : Nat) : Bool :=
  let bs := slotBranches b ix
  (headAt b ix t).isSome && !bs.isEmpty && canLeave s x y t b ix bs
    && bs.all (fun br => !marked b (20 + br.dir))
    && decide (b.used.count (40 + ix / 32) < inputLimit y (ix / 32))

/-- The first slot that R189 takes for output `out` in tcyc t. -/
def pickSlot (s : State) (x y : Nat) (b : Brick) (out t : Nat) : Option Nat :=
  if marked b (20 + out) then none
  else ((List.range 160).map (fun i => (sget 0 b.rr out + i) % 160)).find? (fun ix =>
    (headAt b ix t).isSome
      && (slotBranches b ix).any (fun br => br.dir == out)
      && mayForward s x y b ix t)

/-- The output and the slot that the procedure of R189 grants next. -/
def nextGrant (s : State) (x y : Nat) (b : Brick) (t : Nat) : Option (Nat × Nat) :=
  (List.range 7).findSome? (fun out => (pickSlot s x y b out t).map (fun ix => (out, ix)))

/-- The first slot that holds a flit and whose entry is disabled: every entry of a brick in no loaded board is (R193). -/
def disabledSlot (s : State) (x y : Nat) (b : Brick) (t : Nat) : Option Nat :=
  (b.fifos.map (·.1)).find? (fun ix =>
    (headAt b ix t).isSome && (!serves s x y || (slotBranches b ix).isEmpty))

/-- Takes the head flit out of slot ix in tcyc t; its buffer's credit travels back (R185), but not from a brick that is STOPPED or
QUARANTINED (R192). -/
def takeHead (b : Brick) (ix t : Nat) : Brick :=
  { b with
    fifos := smod [] b.fifos ix List.tail
    credFly := if b.st == .stopped || b.st == .quarantined then b.credFly else b.credFly ++ [⟨t + 1, ix⟩] }

/-- The receiving brick of an in-field link sees an uncorrectable error on input d: FAULT_LINK; the times it did so are
kept for R615. -/
def linkDed (s : State) (k x y d t : Nat) : State :=
  let b := getB s k
  faultBrick s k x y { b with
    linkDed := b.linkDed ||| (1#4 <<< d)
    linkFaults := smod 0 b.linkFaults d (· + 1) } fLINK uRouter t (BitVec.ofNat 32 d)

/-- The edge bridge sends a flit on a lane: a transfer with the next sequence number, kept until it is covered (R199, R204). -/
def crossSend (c : Crossing) (lane slot : Nat) (f : Flit) : Crossing :=
  let a : Xfer := ⟨c.nextSeq, slot, f⟩
  { c with
    nextSeq := (c.nextSeq + 1) % 32
    replay := c.replay ++ [(lane, a)]
    wire := c.wire ++ [(lane, xferWord a)] }

/-- A flit forwarded on a branch in tcyc t arrives where the branch leads; `e` is what its in-field link did to it
(0 clean, 1 corrected, 2 uncorrectable). -/
def deliverBranch (s : State) (x y k t : Nat) (f : Flit) (br : Branch) (e : Nat) : State :=
  if br.dir = 4 then
    modB s k (fun b => setPort b br.next (portQ b br.next ++ [{ f with due := t + 1 }]))
  else if br.dir = 5 ∨ br.dir = 6 then
    let ek := edgeKey x (y != 0)
    let v := getEdge s ek
    setEdge s ek { v with out := crossSend v.out (br.dir - 5) br.next f }
  else match neighbour x y br.dir with
    | none => s
    | some (x', y') =>
      let i := facing br.dir
      if fieldOf x y ≠ fieldOf x' y' then
        let tk := tieKey x' y' i
        let v := getTie s tk
        setTie s tk { v with out := v.out ++ [⟨0, br.next, f⟩], busyT := t + tieGap s (fieldOf x y) (fieldOf x' y') }
      else match keyOf s x' y' with
        | none => s
        | some k' =>
          if e = 2 then linkDed s k' x' y' i t
          else modB s k' (fun b =>
            let b1 := { b with fifos := smod [] b.fifos (32 * i + br.next) (fun l => l ++ [{ f with due := t + 1 }]) }
            if e = 1 then bump b1 cSecLink 1 else b1)

/-- FLIT_FORWARD: in tcyc t the router of (x, y) discards a flit at a disabled entry, in any brick state (R193), or else, in a brick
neither STOPPED nor QUARANTINED (R192), grants the next output that the procedure of R189 grants and forwards its flit on every
branch. -/
def flitForward (x y t e0 e1 : Nat) (s : State) : Option State :=
  tcycAct s x y t (fun k b =>
    match disabledSlot s x y b t with
    | some ix =>
      some (touch (faultBrick s k x y (takeHead b ix t) fROUTE uRouter t
        (packW [(0, 5, ix % 32), (5, 3, ix / 32)])) x y)
    | none =>
      if b.st == .stopped || b.st == .quarantined then none
      else match nextGrant s x y b t with
      | none => none
      | some (out, ix) =>
        let bs := slotBranches b ix
        let f := (headAt b ix t).getD {}
        let b1 := takeHead b ix t
        let b2 := ((List.range bs.length).zip bs).foldl (fun b p =>
          mark { b with cred := smod 0 b.cred (credKey ix p.1) (· - 1) } (20 + p.2.dir)) b1
        let b3 := { mark (mark b2 (40 + ix / 32)) (200 + ix) with
          rr := sset 0 b2.rr out ((ix + 1) % 160)
          fseq := smod 0 b2.fseq ix (fun n => (n + 1) % 65536) }
        let s1 := (bs.zip [e0, e1]).foldl (fun s p => deliverBranch s x y k t f p.1 p.2) (setB s k b3)
        some (touch s1 x y))

/-- What WAIT of BRK_RT_LIVE shows for a slot in the brick's last tcyc (R207). -/
def waitCode (s : State) (x y : Nat) (b : Brick) (ix : Nat) : Nat :=
  if marked b (200 + ix) then 0
  else match headAt b ix b.useT with
    | none => 0
    | some _ =>
      let bs := slotBranches b ix
      if bs.isEmpty then 0
      else if !canLeave s x y b.useT b ix bs then 1
      else if bs.any (fun br => marked b (20 + br.dir)) then 2
      else if inputLimit y (ix / 32) ≤ b.used.count (40 + ix / 32) then 3
      else 0

/-- The branch that leads to (direction d, next slot n) in a brick, if one does: the key of its credits. -/
def holderOf (b : Brick) (d n : Nat) : Option Nat :=
  (List.range 160).findSome? (fun ix =>
    let bs := slotBranches b ix
    (((List.range bs.length).zip bs).find? (fun p => p.2.dir == d && p.2.next == n)).map
      (fun p => credKey ix p.1))

/-- A credit added to a branch's holder in brick k. -/
def addCred (s : State) (k d n : Nat) : State :=
  modB s k (fun b => match holderOf b d n with
    | some c => { b with cred := smod 0 b.cred c (· + 1) }
    | none => b)

/-- A credit of buffer `loc` of brick (x, y) reaches its holder; `e` is what the in-field return wires did to it. -/
def returnCredit (s : State) (x y k t loc e : Nat) : State :=
  if 400 ≤ loc then
    let ek := edgeKey x (y != 0)
    let v := getEdge s ek
    setEdge s ek { v with medSpent := smod 0 v.medSpent (loc - 400) (· - 1) }
  else if 300 ≤ loc then addCred s k (5 + (loc - 300) / 32) ((loc - 300) % 32)
  else if 160 ≤ loc then addCred s k 4 (loc - 160)
  else
    let i := loc / 32
    let sl := loc % 32
    if i = 4 then modB s k (fun b => { b with sndCred := smod 0 b.sndCred sl (· + 1) })
    else if edgeInput y i then
      let ek := edgeKey x (y != 0)
      let v := getEdge s ek
      setEdge s ek { v with spent := smod 0 v.spent sl (· - 1) }
    else match neighbour x y i with
      | none => s
      | some (x', y') =>
        if fieldOf x y ≠ fieldOf x' y' then
          let tk := tieKey x y i
          let v := getTie s tk
          setTie s tk { v with spent := smod 0 v.spent sl (· - 1) }
        else match keyOf s x' y' with
          | none => s
          | some k' =>
            if e = 2 then linkDed s k' x' y' (facing i) t
            else
              let s1 := if e = 1 then modB s k' (fun b => bump b cSecLink 1) else s
              addCred s1 k' (facing i) sl

/-- The first credit that has arrived by tcyc t, and the others. -/
def takeCred (t : Nat) : List CredFly → Option (CredFly × List CredFly)
  | [] => none
  | c :: r => if c.due ≤ t then some (c, r) else (takeCred t r).map (fun p => (p.1, c :: p.2))

/-- CREDIT_RETURN: the oldest credit of a buffer freed at (x, y) that has travelled by tcyc t reaches its holder (R185). -/
def creditReturn (x y t e : Nat) (s : State) : Option State :=
  brickAct s x y t (fun k b =>
    match takeCred t b.credFly with
    | none => none
    | some (c, r) => some (returnCredit (setB s k { b with credFly := r }) x y k t c.loc e))

/-! ### Ties -/

/-- The sending brick of the tie that feeds input d of (x, y). -/
def tieSender (x y d : Nat) : Option (Nat × Nat) :=
  match neighbour x y d with
  | some (x', y') => if d < 4 && fieldOf x y != fieldOf x' y' then some (x', y') else none
  | none => none

/-- The common guard of a tie's steps: input d of (x, y) faces a tie that is alive. -/
def tieAct (s : State) (x y d : Nat) (f : Nat × Nat → Tie → Option State) : Option State :=
  match tieSender x y d with
  | some p => let v := getTie s (tieKey x y d); if v.dead then none else f p v
  | none => none

/-- A dead tie: it carries nothing more in either direction, and both bricks raise FAULT_TIE (R200); the receiving brick shows it
in BRIDGE_DEAD. `u` is the unit that judged it. [DESIGN CHOICE log 24] -/
def tieDies (s : State) (x y d t : Nat) (v : Tie) (u : Nat := uRouter) : State :=
  let s0 := setTie s (tieKey x y d) { v with dead := true }
  let s1 := match keyOf s0 x y with
    | some k =>
      let b := getB s0 k
      faultBrick s0 k x y { b with bridgeDead := b.bridgeDead ||| (1#4 <<< d) } fTIE u t (BitVec.ofNat 32 d)
    | none => s0
  match tieSender x y d with
  | some (x', y') =>
    let s2 := setTie s1 (tieKey x' y' (facing d)) { getTie s1 (tieKey x' y' (facing d)) with dead := true }
    match keyOf s2 x' y' with
    | some k' => faultBrick s2 k' x' y' (getB s2 k') fTIE u t (BitVec.ofNat 32 (facing d))
    | none => s2
  | none => s1

/-- TIE_TRANSFER_SEND: the sending bridge sends its next transfer, resent ones first, at most one per 2 tcyc of the
receiving field and at most 16 unacknowledged (R197, R199). -/
def tieSend (x y d t : Nat) (s : State) : Option State :=
  tieAct s x y d (fun p v =>
    if !clkRuns s (fieldOf p.1 p.2) || t < v.lastSend then none
    else match v.again, v.out with
      | a :: r, _ =>
        some (touch (setTie s (tieKey x y d) { v with
          again := r, wire := v.wire ++ [beatsOf (xferWord a)], lastSend := t + 2 }) p.1 p.2)
      | [], o :: r =>
        if 16 ≤ v.replay.length then none
        else
          let a : Xfer := { o with seq := v.nextSeq }
          some (touch (setTie s (tieKey x y d) { v with
            out := r, nextSeq := (v.nextSeq + 1) % 32, replay := v.replay ++ [a], wire := v.wire ++ [beatsOf (xferWord a)],
            lastSend := t + 2 }) p.1 p.2)
      | [], [] => none)

/-- The tcyc of a brick's last step, 0 where no brick stands. -/
def lastT (s : State) (x y : Nat) : Nat := match keyOf s x y with | some k => (getB s k).useT | none => 0

/-- Counts on the brick at (x, y), where one stands. -/
def bumpAt (s : State) (x y i n : Nat) : State :=
  match keyOf s x y with
  | some k => modB s k (fun b => bump b i n)
  | none => s

/-- A dead edge bridge: the brick that faces it raises FAULT_EDGE and shows it in BRIDGE_DEAD (R200, R204). -/
def edgeDies (s : State) (x : Nat) (south : Bool) (v : EdgeBr) (t : Nat) : State :=
  let y := if south then 559 else 0
  let i := if south then 2 else 0
  let s1 := setEdge s (edgeKey x south) { v with dead := true }
  match keyOf s x y with
  | some k =>
    let b := getB s1 k
    faultBrick s1 k x y { b with bridgeDead := b.bridgeDead ||| (1#4 <<< i) } fEDGE uRouter t (BitVec.ofNat 32 i)
  | none => s1

/-- The inward crossing of an edge bridge receives its next transfer, as a tie does (R203, R204). -/
def edgeReceive (x y : Nat) (err : BitVec 50) (s : State) : Option State :=
  let ek := edgeKey x (y != 0)
  let v := getEdge s ek
  match v.inn.wire with
  | [] => none
  | (_, w) :: r =>
    if v.dead then none
    else
      let c := { v.inn with wire := r }
      match judge c.expect c.nakOut c.fails w err with
      | .lands a =>
        some (touch (setEdge s ek { v with
          inn := { c with expect := (c.expect + 1) % 32, nakOut := false, fails := 0, ret := c.ret ++ [.ack a.seq] }
          landing := smod [] v.landing a.slot (fun l => l ++ [a.flit]) }) x y)
      | .discarded => some (setEdge s ek { v with inn := c })
      | .dies => some (edgeDies s x (y != 0) { v with inn := { c with fails := c.fails + 1 } } (lastT s x y))
      | .asked =>
        some (bumpAt (setEdge s ek { v with
          inn := { c with nakOut := true, fails := c.fails + 1, ret := c.ret ++ [.nak c.expect] }
          retries := v.retries + 1 }) x y cRetry 1)

/-- TIE_TRANSFER_RECEIVE: the receiving bridge reads the two beats, whose wires flip the bits of `err`, and lands the transfer or
discards it and asks once for it again (R195, R198, R200); at an edge-facing input it is the edge bridge (R204). [DESIGN CHOICE log 8, DEDUCED log 27] -/
def tieReceive (x y d : Nat) (err : BitVec 50) (s : State) : Option State :=
  if edgeInput y d then edgeReceive x y err s
  else tieAct s x y d (fun _ v =>
    match v.wire with
    | [] => none
    | w :: r =>
      let v1 := { v with wire := r }
      match judge v.expect v.nakOut v.fails (ofBeats w) err with
      | .lands a =>
        some (activity (touch (setTie s (tieKey x y d) { v1 with
          expect := (v.expect + 1) % 32, nakOut := false, fails := 0
          landing := smod [] v.landing a.slot (fun l => l ++ [a.flit])
          retAck := v.retAck ++ [.ack a.seq] }) x y) x y 7 1)
      | .discarded => some (setTie s (tieKey x y d) v1)
      | .dies => some (tieDies s x y d (lastT s x y) { v1 with fails := v.fails + 1 })
      | .asked =>
        some (bumpAt (setTie s (tieKey x y d) { v1 with
          nakOut := true, fails := v.fails + 1, retries := v.retries + 1
          retAck := v.retAck ++ [.nak v.expect] }) x y cRetry 1))

/-- Transfers not covered by an ACK of n. -/
def afterAck (n : Nat) : List Xfer → List Xfer
  | [] => []
  | a :: r => if a.seq = n then r else if r.any (fun c => c.seq == n) then afterAck n r else a :: r

/-- What an acknowledgement does at the sending side of an edge bridge: an ACK covers, a NAK puts every stored transfer from the one
named on back on the wires, in order (R199). -/
def crossAck (c : Crossing) : Ack → Crossing
  | .none => c
  | .ack n =>
    let left := afterAck n (c.replay.map (·.2))
    { c with replay := c.replay.drop (c.replay.length - left.length) }
  | .nak n =>
    { c with wire := c.wire ++ (c.replay.dropWhile (fun a => a.2.seq != n)).map (fun a => (a.1, xferWord a.2)) }

/-- The return word that a receiving tie bridge sends next: the oldest freed slot and the oldest acknowledgement (R196). -/
def nextRet (v : Tie) : RetWord := ⟨v.retCred.head?, v.retAck.headD .none⟩

/-- The acknowledgement of a return word at the sending side of a tie (R199). -/
def tieAck (v : Tie) : Ack → Tie
  | .none => v
  | .ack n => { v with replay := afterAck n v.replay, again := v.again.filter (fun a =>
      (afterAck n v.replay).any (fun c => c.seq == a.seq)) }
  | .nak n => { v with again := v.replay.dropWhile (fun a => a.seq != n) }

/-- TIE_RETURN_WORD: the return word of tcyc t of the receiving field reaches the sending side (R196, R199, R200); `e` is what its
wires did to it. At an edge-facing input it is the edge bridge's: of the inward crossing, or with `med` of the outward one, whose
receiver is the MED (R204). [DEDUCED log 27] -/
def tieReturn (x y d : Nat) (med : Bool) (t e : Nat) (s : State) : Option State :=
  if edgeInput y d then
    let ek := edgeKey x (y != 0)
    let v := getEdge s ek
    let c := if med then v.out else v.inn
    match c.ret with
    | [] => none
    | a :: r =>
      if v.dead then none
      else
        let put := fun (c : Crossing) => if med then { v with out := c } else { v with inn := c }
        if e = 2 then some (edgeDies s x (y != 0) (put { c with ret := r }) (lastT s x y))
        else
          let s1 := setEdge s ek (put (crossAck { c with ret := r } a))
          some (if e = 1 then bumpAt s1 x y cSecLink 1 else s1)
  else tieAct s x y d (fun p v =>
    if med || v.retT == t + 1 || (v.retCred.isEmpty && v.retAck.isEmpty) then none
    else
      let w := retOf (retBits (nextRet v))
      let v1 := { v with retCred := v.retCred.drop 1, retAck := v.retAck.drop 1, retT := t + 1 }
      if e = 2 then some (tieDies s x y d (lastT s x y) v1)
      else
        let s1 := setTie s (tieKey x y d) (tieAck v1 w.ak)
        match keyOf s p.1 p.2 with
        | none => some s1
        | some k' =>
          let s2 := if e = 1 then modB s1 k' (fun b => bump b cSecLink 1) else s1
          some (match w.credit with
            | some sl => addCred s2 k' (facing d) sl
            | none => s2))

/-- TIE_LANDING_MOVE: the receiving bridge moves the oldest flit of a landing slot into the router input, one flit per tcyc,
against a credit of that input slot (R197). -/
def tieMove (x y d sl t : Nat) (s : State) : Option State :=
  tieAct s x y d (fun _ v =>
    match sget [] v.landing sl, keyOf s x y with
    | f :: r, some k =>
      if slotCap sl ≤ sget 0 v.spent sl || v.moveT == t + 1 || !clkRuns s (fieldOf x y) then none
      else
        let s1 := setTie s (tieKey x y d) { v with
          landing := sset [] v.landing sl r
          spent := smod 0 v.spent sl (· + 1)
          moveT := t + 1
          retCred := v.retCred ++ [sl] }
        some (touch (modB s1 k (fun b =>
          { b with fifos := smod [] b.fifos (32 * d + sl) (fun l => l ++ [{ f with due := t }]) })) x y)
    | _, _ => none)

/-- FLIT_FORWARD (R187, R189). -/
def execFlitForward (x : Fin 1104) (y : Fin 560) (t : Nat) (e0 e1 : Fin 3) (s : State) :
    Host.Outcome State Fault Refusal := answer s (flitForward x y t e0 e1 s)

/-- CREDIT_RETURN (R185). -/
def execCreditReturn (x : Fin 1104) (y : Fin 560) (t : Nat) (e : Fin 3) (s : State) :
    Host.Outcome State Fault Refusal := answer s (creditReturn x y t e s)

/-- TIE_TRANSFER_SEND (R197). -/
def execTieTransferSend (x : Fin 1104) (y : Fin 560) (d : Fin 4) (t : Nat) (s : State) :
    Host.Outcome State Fault Refusal := answer s (tieSend x y d t s)

/-- TIE_TRANSFER_RECEIVE (R198). -/
def execTieTransferReceive (x : Fin 1104) (y : Fin 560) (d : Fin 4) (err : BitVec 50) (s : State) :
    Host.Outcome State Fault Refusal := answer s (tieReceive x y d err s)

/-- TIE_RETURN_WORD (R199). -/
def execTieReturnWord (x : Fin 1104) (y : Fin 560) (d : Fin 4) (med : Bool) (t : Nat) (e : Fin 3) (s : State) :
    Host.Outcome State Fault Refusal := answer s (tieReturn x y d med t e s)

/-- TIE_LANDING_MOVE (R197). -/
def execTieLandingMove (x : Fin 1104) (y : Fin 560) (d : Fin 4) (sl : Fin 32) (t : Nat) (s : State) :
    Host.Outcome State Fault Refusal := answer s (tieMove x y d sl t s)

end Sys2Proof.Machine
end

