-- ==== Sys2Proof/Machine/Med.lean ====
section
/-! DEFINITION. Memory edge dies: edge ports, request assembly, translation, transfer engines, completions, the rim's windows
(R202-R204, R258-R285, R289). -/
namespace Sys2Proof.Machine

/-! ### DRAM and translation -/

/-- Words that n bytes at pa touch: the fully covered ones and the others. -/
def wordsTouched (pa n : Nat) : List (Nat × Bool) :=
  if n = 0 then []
  else (List.range ((pa + n - 1) / 8 - pa / 8 + 1)).map (fun i =>
    let w := pa / 8 + i
    (w, decide (pa ≤ 8 * w ∧ 8 * w + 8 ≤ pa + n)))

/-- The frame of a physical address. -/
def pfnOf (pa : Nat) : Nat := pa / 2 ^ 21

/-- An error of a DRAM word is recorded (R294): corrected ones are counted. -/
def eccNote (d : Med) (w : Nat) (ue : Bool) : Med :=
  { d with
    ce := if ue then d.ce else evAdd d.ce 1
    eccLast := packW [(0, 14, pfnOf (8 * w)), (31, 1, b2n ue)] }

/-- Reads n bytes: corrected words are counted; the frame of an uncorrectable word, if there is one (R259, R284). [DESIGN CHOICE log 109] -/
def dramRead (d : Med) (pa n : Nat) : Med × List Byte × Option Nat :=
  let d1 := (wordsTouched pa n).foldl (fun d p =>
    if sget 0 d.ecc p.1 = 1 then eccNote d p.1 false else d) d
  match (wordsTouched pa n).find? (fun p => decide (2 ≤ sget 0 d.ecc p.1)) with
  | some p => (eccNote d1 p.1 true, [], some (pfnOf (8 * p.1)))
  | none => (d1, readBytes 0 d.dram pa n, none)

/-- Writes bytes: whole words get fresh check bits; part of a word is read first, and an uncorrectable one is not written. -/
def dramWrite (d : Med) (pa : Nat) (bs : List Byte) : Med × Option Nat :=
  let ws := wordsTouched pa bs.length
  match ws.find? (fun p => !p.2 && decide (2 ≤ sget 0 d.ecc p.1)) with
  | some p => (eccNote d p.1 true, some (pfnOf (8 * p.1)))
  | none =>
    let d1 := ws.foldl (fun d p => if !p.2 && sget 0 d.ecc p.1 == 1 then eccNote d p.1 false else d) d
    ({ d1 with
        dram := writeBytes 0 d1.dram pa bs
        ecc := ws.foldl (fun m p => sset 0 m p.1 0) d1.ecc }, none)

/-- Bytes written to HED SRAM from a on; the 64-bit words they touch get fresh check bits. -/
def hedPut (h : Hed) (a : Nat) (bs : List Byte) : Hed :=
  { h with
    sram := writeBytes 0 h.sram a bs
    sramEcc := (wordsTouched a bs.length).foldl (fun m p => sset 0 m p.1 0) h.sramEcc }

/-- Quota of board b in MED m (R270). -/
def quotaW (s : State) (m b : Nat) : Word := sget 0 (getBd s b).quota m
def pfnBase (q : Word) : Nat := fld q 0 14
def pfnCount (q : Word) : Nat := fld q 14 14

/-- The causes of R272. -/
inductive TFault where
  | format | notMapped | outOfQuota | unreachable | readOnly
  /-- A table word that is uncorrectable. -/
  | ded (pfn : Nat)
deriving DecidableEq, Repr

def TFault.code : TFault → Nat
  | .format => 1 | .notMapped => 2 | .outOfQuota => 3 | .unreachable => 4 | .readOnly => 5 | .ded _ => 0

/-- A table entry (R269-R271). -/
def ptEntry (d : Med) (q : Word) (table ix : Nat) : Except TFault Nat :=
  let pa := pfnBase q * 2 ^ 21 + 4096 * table + 8 * ix
  if 2 ≤ sget 0 d.ecc (pa / 8) then .error (.ded (pfnOf pa)) else .ok (readLE d.dram pa 8)

/-- One entry's checks; `leaf` at level 2. Answers INDEX and W. -/
def ptCheck (e : Nat) (leaf : Bool) : Except TFault (Nat × Bool) :=
  if nfld e 63 1 = 0 then .error .notMapped
  else if nfld e 62 1 ≠ b2n leaf ∨ nfld e 14 47 ≠ 0 ∨ (!leaf ∧ (nfld e 61 1 ≠ 0 ∨ nfld e 0 14 = 0 ∨ 512 ≤ nfld e 0 14)) then
    .error .format
  else .ok (nfld e 0 14, nfld e 61 1 == 1)

/-- The physical address of a byte address: `cls` is the class of the column for a wafer-side transfer, `wr` for a write. [DEDUCED log 29] -/
def translate (d : Med) (q : Word) (va : Nat) (cls : Option Nat) (wr : Bool) : Except TFault Nat := do
  if pfnCount q = 0 ∨ 2 ^ 48 ≤ va then .error .notMapped
  else
    let e0 ← ptEntry d q 0 (nfld va 39 9)
    let (t1, _) ← ptCheck e0 false
    let e1 ← ptEntry d q t1 (nfld va 30 9)
    let (t2, _) ← ptCheck e1 false
    let e2 ← ptEntry d q t2 (nfld va 21 9)
    let (pfn, w) ← ptCheck e2 true
    if pfn ≤ pfnBase q ∨ pfnBase q + pfnCount q ≤ pfn then .error .outOfQuota
    else if cls.any (fun c => (pfn / 1024) % 4 != c) then .error .unreachable
    else if wr && !w then .error .readOnly
    else .ok (pfn * 2 ^ 21 + nfld va 0 21)

/-- The table words that the translation of va reads, as word numbers (R269). [DESIGN CHOICE log 126] -/
def walkWords (d : Med) (q : Word) (va : Nat) : List Nat :=
  if pfnCount q = 0 ∨ 2 ^ 48 ≤ va then []
  else
    let pa := fun (table ix : Nat) => (pfnBase q * 2 ^ 21 + 4096 * table + 8 * ix) / 8
    let at_ := fun (table ix : Nat) => (ptEntry d q table ix).bind (fun e => ptCheck e false)
    pa 0 (nfld va 39 9) :: (match at_ 0 (nfld va 39 9) with
      | .error _ => []
      | .ok (t1, _) => pa t1 (nfld va 30 9) :: (match at_ t1 (nfld va 30 9) with
        | .error _ => []
        | .ok (t2, _) => [pa t2 (nfld va 21 9)]))

/-- The errors of the table words that the translation of va reads are recorded (R259, R294). -/
def noteWalk (d : Med) (q : Word) (va : Nat) : Med :=
  (walkWords d q va).foldl (fun d w => match sget 0 d.ecc w with
    | 0 => d
    | 1 => eccNote d w false
    | _ => eccNote d w true) d

/-- The same for every page that n bytes at va touch, as far as their translations succeed. -/
def noteSpan (d : Med) (q : Word) (va n : Nat) (cls : Option Nat) (wr : Bool) : Med :=
  let first := 2 ^ 21 - va % 2 ^ 21
  let d1 := noteWalk d q va
  if n ≤ first then d1
  else match translate d q va cls wr with
    | .ok _ => noteWalk d1 q (va + first)
    | .error _ => d1

/-- The physical pieces of n bytes at va, page by page in increasing order. -/
def transSpan (d : Med) (q : Word) (va n : Nat) (cls : Option Nat) (wr : Bool) : Except TFault (List (Nat × Nat)) :=
  let first := 2 ^ 21 - va % 2 ^ 21
  if n ≤ first then do
    let p ← translate d q va cls wr
    .ok [(p, n)]
  else do
    let p ← translate d q va cls wr
    let p2 ← translate d q (va + first) cls wr
    .ok [(p, first), (p2, n - first)]

/-- Reads the pieces in turn. -/
def readSpan (d : Med) : List (Nat × Nat) → Med × List Byte × Option Nat
  | [] => (d, [], none)
  | (p, n) :: r =>
    match dramRead d p n with
    | (d1, _, some f) => (d1, [], some f)
    | (d1, bs, none) => let (d2, bs2, f) := readSpan d1 r; (d2, bs ++ bs2, f)

/-- Writes the pieces in turn. -/
def writeSpan (d : Med) : List (Nat × Nat) → List Byte → Med × Option Nat
  | [], _ => (d, none)
  | (p, n) :: r, bs =>
    match dramWrite d p (bs.take n) with
    | (d1, some f) => (d1, some f)
    | (d1, none) => writeSpan d1 r (bs.drop n)

/-! ### Edge ports -/

/-- The class of a column (R260) and the engine of its requests (R261). -/
def colClass (m col : Nat) : Nat := (medX m col % 92) / 23
def colEngine (col : Nat) : Nat := col / 69

/-- The buffer of a receive slot is freed: its credit travels to the entry that feeds it (R202). -/
def freeRx (s : State) (m col lane slot : Nat) : State :=
  match keyOf s (medX m col) (medY m) with
  | some k => modB s k (fun b => { b with credFly := b.credFly ++ [⟨b.useT + 1, 300 + 32 * lane + slot⟩] })
  | none => s

/-- Frees n buffers. -/
def freeRxN (s : State) (m col lane slot : Nat) : Nat → State
  | 0 => s
  | n + 1 => freeRxN (freeRx s m col lane slot) m col lane slot n

/-- The fields of a request record (R239, R274). `ext` admits the kinds of R274. -/
def descOf (ws : List Word) : Desc :=
  let w := fun (i : Nat) => ((ws[i]?).getD 0 : Word)
  { kind := fld (w 0) 28 4, ack := bitAt (w 0) 27, esz := 4 * 2 ^ fld (w 0) 24 3
    rslot := fld (w 0) 19 5, dslot := fld (w 0) 14 5, rlane := fld (w 0) 13 1, tag := fld (w 0) 6 7
    va := (w 1).toNat + 2 ^ 32 * fld (w 2) 0 16
    n0 := fld (w 3) 0 16 + 1, n1 := fld (w 3) 16 16 + 1, n2 := fld (w 4) 0 16 + 1, n3 := fld (w 4) 16 16 + 1
    s1 := (w 5).toInt, s2 := (w 6).toInt, s3 := (w 7).toInt }

/-- Does a record break R239 or R264? -/
def recordBad (d : Med) (col lane : Nat) (ws : List Word) (ext : Bool) : Bool :=
  let w := fun (i : Nat) => ((ws[i]?).getD 0 : Word)
  let r := descOf ws
  let wafer := r.kind = 1 ∨ r.kind = 2
  decide (¬ (1 ≤ r.kind ∧ r.kind ≤ (if ext then 5 else 2)) ∨ 4 ≤ fld (w 0) 24 3 ∨ fld (w 2) 16 16 ≠ 0
    ∨ fld (w 0) 0 (if ext then 5 else 6) ≠ 0 ∨ r.va % r.esz ≠ 0)
  || (decide wafer && sget 0 d.injRole (slotKey col r.rlane r.rslot) != 1)
  || (decide (r.kind = 2) && sget 0 d.role (slotKey col lane r.dslot) != 2)

/-- A received record in MED cycle order, then column, lane, slot (R265). [DESIGN CHOICE log 28] -/
def insertRec (r : Rec) : List Rec → List Rec
  | [] => [r]
  | c :: l => if c.now < r.now ∨ (c.now = r.now ∧ c.key < r.key) then c :: insertRec r l else r :: c :: l

/-- Assembly at a REQUEST slot takes the next flits of its store (R264), each stored with the MED cycle of its acceptance; a record
is received in the cycle of its eighth flit (R265). `fuel` bounds the flits taken. -/
def assemble (m key : Nat) : Nat → State → State
  | 0, s => s
  | fuel + 1, s =>
    let d := getMed s m
    let a := sget [] d.asm key
    match sget [] d.rx key with
    | [] => s
    | f :: r =>
      if 8 ≤ a.length then s
      else
        let slot := key % 32
        let col := key / 64
        let lane := (key / 32) % 2
        let a1 := a ++ [f]
        let s1 := freeRx (setMed s m { d with rx := sset [] d.rx key r, asm := sset [] d.asm key a1 }) m col lane slot
        if a1.length < 8 then assemble m key fuel s1
        else
          let ws := a1.map (·.data)
          let marks := (List.range 8).all (fun i => ((a1[i]?).getD {}).eom == (i == 7))
          if !marks || a1.any (·.null) || recordBad d col lane ws false then
            let w0 := ws.headD 0
            let dkey := slotKey col lane (fld w0 14 5)
            let dis := key :: (if fld w0 28 4 = 2 && sget 0 d.role dkey == 2 then [dkey] else [])
            let d2 := getMed s1 m
            let drop := fun (s : State) (kk : Nat) =>
              let dd := getMed s m
              let n := (sget [] dd.rx kk).length
              freeRxN (setMed s m { dd with rx := sset [] dd.rx kk [] }) m (kk / 64) ((kk / 32) % 2) (kk % 32) n
            let s2 := setMed s1 m { d2 with asm := sset [] d2.asm key [], discard := dis ++ d2.discard }
            let s3 := dis.foldl drop s2
            match portBoard s m col with
            | some b => raiseBoard s3 fFAR_FORMAT b (packW [(0, 9, col), (9, 1, lane), (10, 5, slot), (16, 4, m)])
            | none => s3
          else modMed s1 m (fun d => { d with recs := insertRec ⟨f.due, key, ws⟩ d.recs })

/-- The MED takes a flit of slot key from its column port in MED cycle `now`: a slot that discards frees it, a REQUEST slot
assembles it (R202, R264). -/
def medTake (m col lane slot now : Nat) (f : Flit) (s : State) : State :=
  let key := slotKey col lane slot
  let d := getMed s m
  if d.discard.contains key then freeRx s m col lane slot
  else if sget 0 d.discardN key ≠ 0 then
    freeRx (setMed s m { d with discardN := smod 0 d.discardN key (· - 1) }) m col lane slot
  else
    let s2 := setMed s m { d with rx := smod [] d.rx key (fun l => l ++ [{ f with due := now }]) }
    if sget 0 d.role key = 1 then assemble m key 8 s2 else s2

/-- EDGE_FLIT_ACCEPT (R202, R204): the next outward transfer, which is one of this lane, arrives at the MED with the bits of `err`
flipped; it is judged as on a tie, and a flit that lands enters its receive slot. [DEDUCED log 27] -/
def edgeAccept (x : Nat) (south : Bool) (lane : Nat) (err : BitVec 50) (now : Nat) (s : State) : Option State :=
  let ek := edgeKey x south
  let e := getEdge s ek
  let m := medOf x south
  match e.out.wire with
  | [] => none
  | (l, w) :: r =>
    if e.dead || l != lane || !edgeRuns s || (portBoard s m (colOf x)).isNone then none
    else
      let c := { e.out with wire := r }
      match judge c.expect c.nakOut c.fails w err with
      | .lands a =>
        let c1 := { c with expect := (c.expect + 1) % 32, nakOut := false, fails := 0, ret := c.ret ++ [.ack a.seq] }
        some (medTake m (colOf x) lane a.slot now a.flit (touch (setEdge s ek { e with out := c1 }) x (medY m)))
      | .discarded => some (setEdge s ek { e with out := c })
      | .dies => some (edgeDies s x south { e with out := { c with fails := c.fails + 1 } } (lastT s x (medY m)))
      | .asked =>
        some (setEdge s ek { e with out := { c with
          nakOut := true, fails := c.fails + 1, ret := c.ret ++ [.nak c.expect] } })

/-- The slots of a lane, starting after the one it last served. -/
def slotTurn (last : Nat) : List Nat := (List.range 32).map (fun i => (last + 1 + i) % 32)

/-- EDGE_INJECT_RELEASE (R203): the MED releases the next flit of a lane, slots in turn, against a landing credit; an
element's last flit counts it as delivered (R276). A lane that has served no slot starts at slot 0. [DESIGN CHOICE log 125] [DEDUCED log 27] -/
def injectRelease (x : Nat) (south : Bool) (lane t : Nat) (s : State) : Option State :=
  let ek := edgeKey x south
  let e := getEdge s ek
  let m := medOf x south
  let col := colOf x
  let d := getMed s m
  if e.dead || !edgeRuns s || sget 0 e.relT lane == t + 1 || 16 ≤ e.inn.replay.length then none
  else match (slotTurn (sget 31 e.lastSlot lane)).find? (fun sl =>
      !(sget [] d.inj (slotKey col lane sl)).isEmpty && decide (sget 0 e.medSpent sl < edgeCap sl)) with
    | none => none
    | some sl =>
      let key := slotKey col lane sl
      match sget [] d.inj key with
      | [] => none
      | f :: r =>
        let s1 := setEdge s ek { e with
          inn := crossSend e.inn lane sl f.flit
          medSpent := smod 0 e.medSpent sl (· + 1)
          lastSlot := sset 31 e.lastSlot lane sl
          relT := sset 0 e.relT lane (t + 1) }
        let d1 := { d with inj := sset [] d.inj key r }
        let d2 := match f.tag with
          | some (h, true) =>
            { d1 with desc := smod {} d1.desc h (fun c =>
              let n := c.delivered + 1
              { c with delivered := n, phase := if n = c.n0 * c.n1 * c.n2 * c.n3 then .closing else c.phase }) }
          | _ => d1
        some (touch (setMed s1 m d2) x (medY m))

/-- EDGE_LANDING_MOVE (R203): the edge bridge moves a landed flit of slot sl into the facing router input, at most two
per tcyc and to different slots. [DESIGN CHOICE log 8] -/
def edgeMove (x : Nat) (south : Bool) (sl t : Nat) (s : State) : Option State :=
  let ek := edgeKey x south
  let e := getEdge s ek
  let y := if south then 559 else 0
  let i := if south then 2 else 0
  let moved := if e.moveT = t + 1 then e.moved else []
  match sget [] e.landing sl, keyOf s x y with
  | f :: r, some k =>
    if e.dead || slotCap sl ≤ sget 0 e.spent sl || moved.contains sl || 2 ≤ moved.length || !clkRuns s (fieldOf x y) then none
    else
      let s1 := setEdge s ek { e with
        landing := sset [] e.landing sl r
        spent := smod 0 e.spent sl (· + 1)
        moveT := t + 1
        moved := sl :: moved }
      some (touch (modB s1 k (fun b => { b with
        fifos := smod [] b.fifos (32 * i + sl) (fun l => l ++ [{ f with due := t }])
        credFly := b.credFly ++ [⟨t + 1, 400 + sl⟩] })) x y)
  | _, _ => none

/-! ### Descriptors -/

/-- Key of a descriptor and the lowest free slot of board b on engine e (R266). -/
def descKey (e b slot : Nat) : Nat := 256 * e + 16 * b + slot
def freeDesc (d : Med) (e b : Nat) : Option Nat := (List.range 16).find? (fun i => (sfind d.desc (descKey e b i)).isNone)

/-- Board, engine and handle of a descriptor's key. -/
def descBoard (h : Nat) : Nat := (h / 16) % 16
def descHandle (h : Nat) : Nat := 16 * (h / 256) + h % 16

/-- Opens a descriptor in the lowest free slot of its board on its engine. -/
def openDesc (d : Med) (e b slot : Nat) (c : Desc) : Med :=
  { d with desc := sput d.desc (descKey e b slot) { c with acc := d.accNext }, accNext := d.accNext + 1 }

/-- RECORD_ACCEPT (R265, R266): the first received record whose board has a free slot on its engine becomes a descriptor;
assembly of its slot goes on. [DESIGN CHOICE log 28] -/
def recordAccept (m : Nat) (s : State) : Option State :=
  let d := getMed s m
  if !edgeRuns s || !medOn s m then none
  else match d.recs.find? (fun r => match portBoard s m (r.key / 64) with
      | some b => (getBd s b).st != .resetting && (freeDesc d (colEngine (r.key / 64)) b).isSome
      | none => false) with
    | none => none
    | some r =>
      let col := r.key / 64
      match portBoard s m col with
      | none => none
      | some b =>
        match freeDesc d (colEngine col) b with
        | none => none
        | some slot =>
          let c := { descOf r.words with col := col, lane := (r.key / 32) % 2 }
          let d1 := { openDesc d (colEngine col) b slot c with
            recs := d.recs.filter (fun q => q.key != r.key), asm := sset [] d.asm r.key [] }
          let s1 := setMed s m d1
          some (assemble m r.key 8 (touch s1 (medX m col) (medY m)))

/-- Elements of a descriptor. -/
def descTotal (c : Desc) : Nat := c.n0 * c.n1 * c.n2 * c.n3

/-- Indices of element k in transfer order. -/
def elemIx (c : Desc) (k : Nat) : Nat × Nat × Nat × Nat :=
  (k % c.n0, (k / c.n0) % c.n1, (k / (c.n0 * c.n1)) % c.n2, k / (c.n0 * c.n1 * c.n2))

/-- The exact address of element k (R272). -/
def elemVa (c : Desc) (k : Nat) : Int :=
  let (i0, i1, i2, i3) := elemIx c k
  (c.va : Int) + (c.esz * i0 : Nat) + c.s1 * (i1 : Int) + c.s2 * (i2 : Int) + c.s3 * (i3 : Int)

/-- An earlier-accepted descriptor that R278 or R241 puts ahead: same return slot of READs, same DSLOT of WRITEs. -/
def heldBehind (d : Med) (c : Desc) : Bool :=
  d.desc.any (fun p => decide (p.2.acc < c.acc) &&
    ((c.kind == 1 && p.2.kind == 1 && p.2.col == c.col && p.2.rlane == c.rlane && p.2.rslot == c.rslot)
      || (c.kind == 2 && p.2.kind == 2 && p.2.phase != .closing
          && p.2.col == c.col && p.2.lane == c.lane && p.2.dslot == c.dslot)))

/-- Can a descriptor use a beat now: runnable, not ordered behind another, with room for its flits or with its data? -/
def descMoves (d : Med) (c : Desc) : Bool :=
  (c.phase == .queued || c.phase == .running) && decide (c.issued < descTotal c) && !heldBehind d c
    && (match c.kind with
      | 1 => decide ((sget [] d.inj (slotKey c.col c.rlane c.rslot)).length + c.esz / 4 ≤ 16)
      | 2 => decide (c.esz / 4 ≤ (sget [] d.rx (slotKey c.col c.lane c.dslot)).length)
      | _ => true)

/-- The board and slot that an engine grants next (R277): boards in turn, then that board's descriptors in turn. [DESIGN CHOICE log 26] -/
def engineTurn (s : State) (d : Med) (e : Nat) : Option (Nat × Nat) :=
  ((List.range 16).map (fun i => (sget 15 d.rrBoard e + 1 + i) % 16)).findSome? (fun b =>
    if (getBd s b).st == .resetting then none
    else (((List.range 16).map (fun i => (sget 15 d.rrSlot (16 * e + b) + 1 + i) % 16)).find? (fun sl =>
      (sfind d.desc (descKey e b sl)).any (fun c => descMoves d c))).map (fun sl => (b, sl)))

/-- A completion (R242): STATUS, TAG, DELIVERED. -/
def cplWord (c : Desc) : Word := packW [(30, 2, c.status), (23, 7, c.tag), (0, 23, c.delivered)]

/-- A record in a board's completion log: 64 places, or LOST (R279). -/
def logCpl (d : Med) (b : Nat) (w : Word) : Med :=
  let v := getWin d b
  setWin d b (if v.cpl.length < 64 then { v with cpl := v.cpl ++ [w] } else { v with lost := true })

/-- Abandonment of a FAULTED or ERROR descriptor at a drain (R283, R244): its record is logged, with the elements delivered; a READ
sends no further data flit, a WRITE's remaining data flits are to be discarded; its completion flit is still to be sent if ACK is
set. [DEDUCED log 31] -/
def abandonDesc (m key : Nat) (s : State) : State :=
  let d := getMed s m
  match sfind d.desc key with
  | none => s
  | some c =>
    if c.phase != .faulted && c.phase != .error then s
    else
      let b := descBoard key
      let c1 := { c with status := 2, logged := true, phase := .closing }
      let rk0 := slotKey c.col c.rlane c.rslot
      let d0 := { d with inj := smod [] d.inj rk0 (fun l => l.filter (fun f => !f.tag.any (fun g => g.1 == key))) }
      let d1 := logCpl d0 b (cplWord c1)
      let w := getWin d1 b
      let d2 := setWin d1 b { w with faults := w.faults.filter (· != descHandle key) }
      let d3 := if c.ack && !c.host then { d2 with desc := sput d2.desc key c1 } else { d2 with desc := sdel d2.desc key }
      let rk := slotKey c.col c.lane c.dslot
      let left := if c.kind = 2 then (descTotal c - c.issued) * (c.esz / 4) else 0
      let now := min left (sget [] d3.rx rk).length
      let d4 := { d3 with
        rx := if left = 0 then d3.rx else smod [] d3.rx rk (List.drop now)
        discardN := if left = 0 then d3.discardN else smod 0 d3.discardN rk (· + (left - now)) }
      let s1 := modBd (freeRxN (setMed s m d4) m c.col c.lane c.dslot now) b (fun bd => { bd with abandonedDesc := true })
      if c.host && c.irq then sigBoard s1 b else s1

/-- Step 2 of the board's drain has begun: its faulted transfers are abandoned (R283, R422). -/
def pastInputs (s : State) (b : Nat) : Bool := (getBd s b).st == .draining && (getBd s b).drain.any (fun r => r.step == 2)

/-- A descriptor stops at its element's boundary, FAULTED with a cause or in ERROR (R280, R284); one that stops while its board's
drain runs its pipelines empty is abandoned at once (R283). [DEDUCED log 29] -/
def stopDesc (s : State) (m e b slot : Nat) (c : Desc) (f : TFault) (dedPfn : Option Nat) : State :=
  let key := descKey e b slot
  let d := getMed s m
  let w := getWin d b
  let ded := match f, dedPfn with
    | .ded p, _ => some p
    | _, p => p
  let s1 := match ded with
    | some p =>
      raiseBoard (setMed s m { d with desc := sput d.desc key { c with phase := .error } }) fMEM_DED b
        (packW [(0, 14, p), (16, 4, m)])
    | none =>
      sigBoard (setMed s m (setWin { d with desc := sput d.desc key { c with phase := .faulted, cause := f.code } } b
        { w with faults := w.faults ++ [descHandle key] })) b
  if pastInputs s b then abandonDesc m key s1 else s1

/-- An element has been granted: one 64-byte beat counts for its board (R548). -/
def beatDone (s : State) (m e b slot : Nat) (c : Desc) (delivered : Bool) : State :=
  let key := descKey e b slot
  let n := if delivered then c.delivered + 1 else c.delivered
  let c1 := { c with
    issued := c.issued + 1
    delivered := n
    phase := if n = descTotal c then .closing else .running }
  let s1 := modMed s m (fun d => { d with
    desc := sput d.desc key c1
    busy := smod 0 d.busy e (fun v => v ||| 2 ^ b)
    rrBoard := sset 15 d.rrBoard e b
    rrSlot := sset 15 d.rrSlot (16 * e + b) slot })
  let f := fieldOf (medX m 0) (medY m)
  let s2 := setField s1 f { getField s1 f with act := smod 0 (getField s1 f).act (16 * b + 8) (· + 1) }
  modBd s2 b (fun bd => { bd with moved := true })

/-- Flits of an element's bytes for mortar, lower address first (R240). -/
def elemFlits (h : Nat) (bs : List Byte) (last : Bool) : List InjEntry :=
  let n := bs.length / 4
  (List.range n).map (fun i =>
    { flit := { data := BitVec.ofNat 32 (ofBytesLE ((bs.drop (4 * i)).take 4)), eom := last && i + 1 == n }
      tag := some (h, i + 1 == n) })

/-- ENGINE_BEAT (R272, R276, R277, R280, R284): engine e grants a beat; the next element of the granted descriptor is
translated and moved, or stops it. [DESIGN CHOICE log 26] -/
def engineBeat (m e : Nat) (s : State) : Option State :=
  let d := getMed s m
  if !edgeRuns s || !medOn s m || d.selfRefresh then none
  else match engineTurn s d e with
    | none => none
    | some (b, slot) =>
      let key := descKey e b slot
      match sfind d.desc key with
      | none => none
      | some c =>
        let q := quotaW s m b
        let a := elemVa c c.issued
        let wafer := c.kind = 1 ∨ c.kind = 2
        let cls := if wafer then some (colClass m c.col) else none
        let wr := c.kind = 2 ∨ c.kind = 4
        let d := noteSpan d q a.toNat c.esz cls wr
        if a < 0 ∨ (2 ^ 48 : Int) < a + (c.esz : Int) then some (stopDesc s m e b slot c .notMapped none)
        else match transSpan d q a.toNat c.esz cls wr with
          | .error f => some (stopDesc (setMed s m d) m e b slot c f none)
          | .ok ps =>
            match c.kind with
            | 1 =>
              match readSpan d ps with
              | (d1, _, some p) => some (stopDesc (setMed s m d1) m e b slot c .format (some p))
              | (d1, bs, none) =>
                let fl := elemFlits key bs (c.issued + 1 == descTotal c)
                let d2 := { d1 with inj := smod [] d1.inj (slotKey c.col c.rlane c.rslot) (fun l => l ++ fl) }
                some (beatDone (setMed s m d2) m e b slot c false)
            | 2 =>
              let rk := slotKey c.col c.lane c.dslot
              let fs := (sget [] d.rx rk).take (c.esz / 4)
              match writeSpan d ps (fs.flatMap (fun f => bytesLE 4 (if f.null then 0 else f.data.toNat))) with
              | (d1, some p) => some (stopDesc (setMed s m d1) m e b slot c .format (some p))
              | (d1, none) =>
                let d2 := { d1 with rx := smod [] d1.rx rk (List.drop (c.esz / 4)) }
                some (beatDone (freeRxN (setMed s m d2) m c.col c.lane c.dslot (c.esz / 4)) m e b slot c true)
            | 3 =>
              match readSpan d ps with
              | (d1, _, some p) => some (stopDesc (setMed s m d1) m e b slot c .format (some p))
              | (d1, bs, none) =>
                let s1 := modHed (setMed s m d1) (b / 4) (fun h => hedPut h (c.other + c.esz * c.issued) bs)
                some (beatDone s1 m e b slot c true)
            | 4 =>
              let bs := readBytes 0 (getHed s (b / 4)).sram (c.other + c.esz * c.issued) c.esz
              match writeSpan d ps bs with
              | (d1, some p) => some (stopDesc (setMed s m d1) m e b slot c .format (some p))
              | (d1, none) => some (beatDone (setMed s m d1) m e b slot c true)
            | _ =>
              let d := noteSpan d q (c.other + c.esz * c.issued) c.esz none true
              match transSpan d q (c.other + c.esz * c.issued) c.esz none true with
              | .error f => some (stopDesc (setMed s m d) m e b slot c f none)
              | .ok pd =>
                match readSpan d ps with
                | (d1, _, some p) => some (stopDesc (setMed s m d1) m e b slot c .format (some p))
                | (d1, bs, none) =>
                  match writeSpan d1 pd bs with
                  | (d2, some p) => some (stopDesc (setMed s m d2) m e b slot c .format (some p))
                  | (d2, none) => some (beatDone (setMed s m d2) m e b slot c true)

/-- COMPLETION_ISSUE (R266, R279): a closing descriptor sends its completion flit or writes its record, and its slot is free. [DESIGN CHOICE log 25] -/
def completionIssue (m e b slot : Nat) (s : State) : Option State :=
  let d := getMed s m
  let key := descKey e b slot
  match sfind d.desc key with
  | none => none
  | some c =>
    if c.phase != .closing || !edgeRuns s then none
    else
      let flit := !c.host && c.ack
      let rk := slotKey c.col c.rlane c.rslot
      if flit && 16 ≤ (sget [] d.inj rk).length then none
      else
        let d1 := if c.host && !c.logged then logCpl d b (cplWord c) else d
        let d2 := if flit then { d1 with inj := smod [] d1.inj rk (fun l => l ++ [{ flit := { data := cplWord c, eom := true } }]) }
          else d1
        let s1 := setMed s m { d2 with desc := sdel d2.desc key }
        let s2 := modBd s1 b (fun bd => { bd with moved := true })
        some (if c.host && c.irq then sigBoard s2 b else s2)

/-- Every FAULTED or ERROR descriptor of board b in every MED is abandoned. -/
def abandonAll (b : Nat) (s : State) : State :=
  (List.range 8).foldl (fun s m =>
    ((getMed s m).desc.map (·.1)).foldl (fun s key => if descBoard key = b then abandonDesc m key s else s) s) s

/-- At the end of a drain the board's slots no longer discard (R264). -/
def endDiscards (b : Nat) (s : State) : State :=
  (List.range 8).foldl (fun s m =>
    modMed s m (fun d => { d with discard := d.discard.filter (fun k => portBoard s m (k / 64) != some b) })) s

/-- R285 for board b in one MED: stores and assembly cleared, every descriptor ABORTED and recorded. -/
def medReset (b m : Nat) (s : State) : State :=
  let d := getMed s m
  let mine := fun (key : Nat) => portBoard s m (key / 64) == some b
  let d1 := { d with
    rx := d.rx.filter (fun p => !mine p.1)
    inj := d.inj.filter (fun p => !mine p.1)
    asm := d.asm.filter (fun p => !mine p.1)
    recs := d.recs.filter (fun r => !mine r.key)
    discard := d.discard.filter (fun k => !mine k)
    discardN := d.discardN.filter (fun p => !mine p.1)
    role := d.role.filter (fun p => !mine p.1)
    injRole := d.injRole.filter (fun p => !mine p.1)
    chan := d.chan.filter (fun p => !mine p.1) }
  let open_ := d.desc.filter (fun p => descBoard p.1 == b)
  let d2 := open_.foldl (fun d p => if p.2.logged then d else logCpl d b (cplWord { p.2 with status := 1 })) d1
  let s1 := setMed s m (setWin { d2 with desc := d2.desc.filter (fun p => descBoard p.1 != b) } b
    { getWin d2 b with faults := [] })
  let s2 := if open_.isEmpty then s1 else modBd s1 b (fun bd => { bd with abandonedDesc := true })
  (open_.filter (fun p => p.2.host && p.2.irq && !p.2.logged)).foldl (fun s _ => sigBoard s b) s2

/-- ENGINE_QUIESCENT (R285): no beat of board b remains in flight in engine e. -/
def engineQuiescent (m e b : Nat) (s : State) : Option State :=
  let d := getMed s m
  if !(sget 0 d.busy e).testBit b || !edgeRuns s then none
  else some (setMed s m { d with busy := smod 0 d.busy e (fun v => v - 2 ^ b) })

/-- SCRUB (R259): the patrol scrubber reads a word; a corrected one is written back. [DESIGN CHOICE log 109] -/
def scrub (m word : Nat) (s : State) : Option State :=
  let d := getMed s m
  if !edgeRuns s || d.selfRefresh || 2 ^ 32 ≤ word then none
  else match sget 0 d.ecc word with
    | 0 => some s
    | 1 => some (setMed s m { eccNote d word false with ecc := sset 0 d.ecc word 0 })
    | _ => some (setMed s m (eccNote d word true))

/-- EDGE_FLIT_ACCEPT (R202). -/
def execEdgeFlitAccept (x : Fin 1104) (south : Bool) (lane : Fin 2) (err : BitVec 50) (now : Nat) (s : State) :
    Host.Outcome State Fault Refusal := answer s (edgeAccept x south lane err now s)

/-- EDGE_INJECT_RELEASE (R203). -/
def execEdgeInjectRelease (x : Fin 1104) (south : Bool) (lane : Fin 2) (t : Nat) (s : State) :
    Host.Outcome State Fault Refusal := answer s (injectRelease x south lane t s)

/-- EDGE_LANDING_MOVE (R203). -/
def execEdgeLandingMove (x : Fin 1104) (south : Bool) (sl : Fin 32) (t : Nat) (s : State) :
    Host.Outcome State Fault Refusal := answer s (edgeMove x south sl t s)

/-- RECORD_ACCEPT (R265). -/
def execRecordAccept (m : Fin 8) (s : State) : Host.Outcome State Fault Refusal := answer s (recordAccept m s)

/-- ENGINE_BEAT (R277). -/
def execEngineBeat (m : Fin 8) (e : Fin 4) (s : State) : Host.Outcome State Fault Refusal := answer s (engineBeat m e s)

/-- COMPLETION_ISSUE (R279). -/
def execCompletionIssue (m : Fin 8) (e : Fin 4) (b slot : Fin 16) (s : State) : Host.Outcome State Fault Refusal :=
  answer s (completionIssue m e b slot s)

/-- ENGINE_QUIESCENT (R285). -/
def execEngineQuiescent (m : Fin 8) (e : Fin 4) (b : Fin 16) (s : State) : Host.Outcome State Fault Refusal :=
  answer s (engineQuiescent m e b s)

/-- SCRUB (R259). -/
def execScrub (m : Fin 8) (word : Nat) (s : State) : Host.Outcome State Fault Refusal := answer s (scrub m word s)

end Sys2Proof.Machine
end

