-- ==== Sys2Proof/Machine/Window.lean ====
section
/-! DEFINITION. A board's window in a MED, egress forwarding, the rim's windows, paths and ranges (R267, R268, R273-R275,
R281, R286-R289, R291, R296, R353, R365, R592). -/
namespace Sys2Proof.Machine

/-! ### HED SRAM -/

/-- A 32-bit word of HED SRAM. -/
def hedW (h : Hed) (a : Nat) : Nat := readLE h.sram a 4

/-- The egress queue of board b in its HED's SRAM (R365). -/
def egrBase (b : Nat) : Nat := 0x3C000 + 0x1000 * (b % 4)
def egrProd (h : Hed) (b : Nat) : Nat := hedW h (egrBase b + 0x800)
def egrCons (h : Hed) (b : Nat) : Nat := hedW h (egrBase b + 0x840)
/-- Records in the queue. -/
def egrCount (h : Hed) (b : Nat) : Nat := (egrProd h b + 2 ^ 32 - egrCons h b) % 2 ^ 32

/-- A flit as an 8-byte record (R267), and back. -/
def flitRec (f : Flit) : Nat := f.data.toNat + 2 ^ 32 * b2n f.null + 2 ^ 33 * b2n f.eom
def recFlit (v : Nat) : Flit :=
  { data := BitVec.ofNat 32 v, null := nfld v 32 1 == 1, eom := nfld v 33 1 == 1 }

/-! ### A board's window in a MED -/

/-- Window register by offset. -/
def winW (d : Med) (b ofs : Nat) : Word := sget 0 (getWin d b).regs ofs
def setWinW (d : Med) (b ofs : Nat) (v : Word) : Med :=
  setWin d b { getWin d b with regs := sset 0 (getWin d b).regs ofs v }

/-- The staged words of a submission (R274). [DEDUCED log 32] -/
def staged (d : Med) (b : Nat) : List Word := (List.range 12).map (fun i => winW d b (0x20 + 4 * i))

/-- Do the resident vocabulary regions of board b's own channels cover [lo, hi)? Regions may adjoin: each pass moves lo to a
region's end. -/
def regionCover (s : State) (b : Nat) : Nat → Nat → Nat → Bool
  | 0, lo, hi => decide (hi ≤ lo)
  | fuel + 1, lo, hi =>
    if hi ≤ lo then true
    else match (getHed s (b / 4)).chans.find? (fun p =>
        p.2.en && !p.2.cached && p.2.board == b && decide (p.2.regOfs ≤ lo ∧ lo < p.2.regOfs + p.2.regLen)) with
      | some p => regionCover s b fuel (p.2.regOfs + p.2.regLen) hi
      | none => false

/-- Is a submission rejected (R275)? [DEDUCED log 33] -/
def submitBad (s : State) (m b : Nat) (ws : List Word) : Bool :=
  let d := getMed s m
  let c := descOf ws
  let w := fun (i : Nat) => ((ws[i]?).getD 0 : Word)
  let col := fld (w 8) 0 9
  let lane := c.rlane
  let other := (w 8).toNat + 2 ^ 32 * fld (w 9) 0 16
  let n := c.n0 * c.n1 * c.n2 * c.n3 * c.esz
  recordBad d col lane ws true || w 10 != 0 || w 11 != 0
  || ((c.kind == 1 || c.kind == 2) && (decide (276 ≤ col) || portBoard s m col != some b))
  || ((c.kind == 3 || c.kind == 4) && !(decide (egrBase b ≤ other ∧ other + n ≤ egrBase b + 0x1000)
    || (decide (0x40000 ≤ other ∧ other + n ≤ 0x400000) && regionCover s b 8 other (other + n))))

/-- Sets MED_BRD_STAT.SUBMIT and LAST_HANDLE. -/
def setSubmit (d : Med) (b code : Nat) (last : Option Nat) : Med :=
  let w := getWin d b
  setWin d b { w with submit := code, last := last.getD w.last }

/-- MED_DESC_GO on engine e (R274, R275): rejected, refused as full, or a descriptor is opened. [DEDUCED log 32, DEDUCED log 33] -/
def descGo (m b e : Nat) (s : State) : State :=
  let d := getMed s m
  let ws := staged d b
  if (getBd s b).st == .resetting then { s with resp := .ignored }
  else if submitBad s m b ws then { setMed s m (setSubmit d b 2 none) with resp := .done }
  else match freeDesc d e b with
    | none => { setMed s m (setSubmit d b 1 none) with resp := .done }
    | some slot =>
      let w := fun (i : Nat) => ((ws[i]?).getD 0 : Word)
      let c0 := descOf ws
      let wafer := c0.kind == 1 || c0.kind == 2
      let c := { c0 with
        host := true
        irq := bitAt (w 0) 5
        ack := false
        col := if wafer then fld (w 8) 0 9 else 0
        lane := c0.rlane
        other := if wafer then 0 else (w 8).toNat + 2 ^ 32 * fld (w 9) 0 16 }
      let d1 := setSubmit (openDesc d e b slot c) b 0 (some (16 * e + slot))
      { setMed s m d1 with resp := .done }

/-- Descriptor key of a handle of board b. -/
def handleKey (b hd : Nat) : Nat := descKey (hd / 16) b (hd % 16)

/-- MED_RESUME (R281). -/
def resume (m b hd : Nat) (s : State) : State :=
  let d := getMed s m
  let key := handleKey b hd
  match sfind d.desc key with
  | some c =>
    if c.phase == .faulted then
      let w := getWin d b
      let c1 := { c with phase := if c.issued = 0 then .queued else .running, cause := 0 }
      let d1 := { d with desc := sput d.desc key c1 }
      { setMed s m (setWin d1 b { w with faults := w.faults.filter (· != hd) }) with resp := .done }
    else { s with resp := .ignored }
  | none => { s with resp := .ignored }

/-- A write of MED_PT_HI (R273): the entry at MED_PT_ADDR in the board's table frame. A board without a quota has no tables. -/
def ptCommit (m b : Nat) (hi : Word) (s : State) : State :=
  let q := quotaW s m b
  let d := getMed s m
  if pfnCount q = 0 then { s with resp := .ignored }
  else
    let a := winW d b 0x10
    let pa := pfnBase q * 2 ^ 21 + 4096 * fld a 9 9 + 8 * fld a 0 9
    { setMed s m (dramWrite d pa (bytesLE 4 (winW d b 0x14).toNat ++ bytesLE 4 hi.toNat)).1 with resp := .done }

/-- A read of MED_CPL: the oldest record of the log, which it removes (R295). -/
def medCplRead (m b : Nat) (s : State) : State :=
  let d := getMed s m
  let w := getWin d b
  { setMed s m (setWin d b { w with cpl := w.cpl.drop 1 }) with resp := .value (w.cpl.headD 0) }

/-- A write of MED_FLT_SEL captures the descriptor (R296). -/
def medFltSel (m b : Nat) (v : Word) (s : State) : State :=
  let d := getMed s m
  let hd := fld v 0 6
  let cap : List (Nat × Word) := match sfind d.desc (handleKey b hd) with
    | some c =>
      if c.phase == .faulted || c.phase == .error then
        let err := c.phase == .error
        let wafer := c.kind == 1 || c.kind == 2
        let va := wrapNat 48 (elemVa c c.issued)
        let (i0, i1, i2, i3) := elemIx c c.issued
        [(0x84, packW [(31, 1, 1), (30, 1, b2n err), (26, 4, c.kind), (25, 1, b2n c.host),
            (16, 9, if wafer then c.col else 0), (7, 7, c.tag), (0, 3, if err then 0 else c.cause)]),
         (0x88, BitVec.ofNat 32 va), (0x8C, BitVec.ofNat 32 (va / 2 ^ 32)),
         (0x90, packW [(16, 16, i1), (0, 16, i0)]), (0x94, packW [(16, 16, i3), (0, 16, i2)]),
         (0x98, BitVec.ofNat 32 c.issued)]
      else [(0x84, 0), (0x88, 0), (0x8C, 0), (0x90, 0), (0x94, 0), (0x98, 0)]
    | none => [(0x84, 0), (0x88, 0), (0x8C, 0), (0x90, 0), (0x94, 0), (0x98, 0)]
  let d1 := setWinW d b 0x80 (BitVec.ofNat 32 hd)
  { setMed s m (cap.foldl (fun d p => setWinW d b p.1 p.2) d1) with resp := .done }

/-! ### Forwarding of egress flits -/

/-- The first flit of a receive slot leaves its store. -/
def takeRx (m col lane slot : Nat) (s : State) : State :=
  freeRx (modMed s m (fun d => { d with rx := smod [] d.rx (slotKey col lane slot) (List.drop 1) })) m col lane slot

/-- EGRESS_FORWARD (R267, R365): the head flit of an EGRESS slot becomes a record of its board's egress queue. -/
def egressForward (x : Nat) (south : Bool) (lane slot : Nat) (s : State) : Option State :=
  let m := medOf x south
  let col := colOf x
  let d := getMed s m
  let key := slotKey col lane slot
  match sget [] d.rx key, portBoard s m col with
  | f :: _, some b =>
    let h := getHed s (b / 4)
    if !edgeRuns s || sget 0 d.role key != 3 || sget 0 d.chan key != 0 || 256 ≤ egrCount h b then none
    else
      let p := egrProd h b
      let h1 := hedPut h (egrBase b + 8 * (p % 256)) (bytesLE 8 (flitRec f))
      let h2 := hedPut h1 (egrBase b + 0x800) (bytesLE 4 (p + 1))
      some (touch (takeRx m col lane slot (setHed s (b / 4) h2)) x (medY m))
  | _, _ => none

/-- STESY_EGRESS_FORWARD (R592): the head flit of an EGRESS slot of an OUT record enters its send ring of 64; a closed slot takes
and discards it (R603). -/
def stesyEgressForward (x : Nat) (south : Bool) (lane slot : Nat) (s : State) : Option State :=
  let m := medOf x south
  let col := colOf x
  let d := getMed s m
  let key := slotKey col lane slot
  let ch := sget 0 d.chan key
  match sget [] d.rx key, portBoard s m col with
  | f :: _, some b =>
    let v := getSlot s (b / 4) (ch - 1)
    if !edgeRuns s || sget 0 d.role key != 3 || ch == 0 || (64 ≤ v.ring.length && !v.closed) then none
    else if v.closed then some (touch (takeRx m col lane slot s) x (medY m))
    else some (touch (takeRx m col lane slot (setSlot s (b / 4) (ch - 1) { v with ring := v.ring ++ [f] })) x (medY m))
  | _, _ => none

/-! ### The rim's windows of a MED -/

/-- The context a rim master sets (R288). -/
def rimCtx : RimMaster → Option Nat
  | .dma _ b => b.map (·.val)
  | .pcie f => fnCtx f
  | .lexicon _ b => some b
  | .steward => none

/-- Can the master set that context: a board of its own HED? -/
def rimCtxOk : RimMaster → Bool
  | .dma h (some b) => decide (b.val / 4 = h.val)
  | .dma _ none => true
  | .pcie f => f != .steward
  | .lexicon h b => decide (b.val / 4 = h.val)
  | .steward => true

/-- The flits a wafer-window write adds to an injection store of 16: all of them, or none and FULL (R268); every write is
discarded with FULL once the board's stalemate is declared (R309). [DEDUCED log 36] -/
def injectInto (m key b : Nat) (fs : List Flit) (s : State) : State × Nat × Bool :=
  let d := getMed s m
  let q := sget [] d.inj key
  if 16 < q.length + fs.length || (getBd s b).smDeclared then (s, 16 - q.length, true)
  else
    let q1 := q ++ fs.map (fun f => { flit := f })
    (touch (setMed s m { d with inj := sset [] d.inj key q1 }) (medX m (key / 64)) (medY m), 16 - q1.length, false)

/-- The pieces of a wafer-window write by region: slot key and flits, in address order; `fuel` bounds the regions. -/
def waferParts : Nat → Nat → List Flit → List (Nat × List Flit)
  | 0, _, _ => []
  | fuel + 1, ofs, fs =>
    if fs.isEmpty then []
    else
      let n := 8 - ofs / 8 % 8
      (slotKey (ofs / 0x1000) ((ofs / 0x800) % 2) ((ofs / 0x40) % 32), fs.take n) :: waferParts fuel (ofs + 8 * n) (fs.drop n)

/-- May the master write the INJECT slot `key` of MED m (R289)? -/
def waferOk (s : State) (mst : RimMaster) (m key : Nat) : Bool :=
  decide (key / 64 < 276) && sget 0 (getMed s m).injRole key == 2 &&
    (match mst with
      | .lexicon _ b => decide (portBoard s m (key / 64) = some b.val)
      | .steward => (portBoard s m (key / 64)).isSome
      | _ => false)

/-- Writes the pieces in turn; answers the last store's ROOM. -/
def injectParts (m : Nat) : List (Nat × List Flit) → State → State × Nat
  | [], s => (s, 16)
  | (key, fs) :: r, s =>
    let v := injectInto m key ((portBoard s m (key / 64)).getD 0) fs s
    if r.isEmpty then (v.1, v.2.1) else injectParts m r v.1

/-- WAFER_WINDOW_WRITE (R268, R289): flit records written to the regions of columns, lanes and slots, in address order; a write that
exceeds the room of a slot it writes is discarded whole. [DEDUCED log 36] -/
def waferWrite (mst : RimMaster) (m ofs : Nat) (recs : List (BitVec 64)) (s : State) : Option State :=
  if !edgeRuns s || recs.isEmpty || ofs % 8 ≠ 0 || 1024 < ofs % 1024 + 8 * recs.length || !rimCtxOk mst then none
  else
    let parts := waferParts 17 ofs (recs.map (fun v => recFlit v.toNat))
    if parts.any (fun p => !waferOk s mst m p.1) then some { violate s (rimCtx mst) with resp := .violation }
    else
      let full := parts.find? (fun p => (injectInto m p.1 ((portBoard s m (p.1 / 64)).getD 0) p.2 s).2.2)
      match full with
      | some p => some { s with resp := .room (16 - (sget [] (getMed s m).inj p.1).length) true }
      | none =>
        let r := injectParts m parts s
        some { r.1 with resp := .room r.2 false }

/-- A bus error of a master over the rim (R622): an uncorrectable error of that access. -/
def rimBusError (s : State) (mst : RimMaster) (tgt : Nat) : State :=
  match mst with
  | .pcie f => busError s f tgt
  | .steward => busError s .steward tgt
  | _ => { s with resp := .busError }

/-- Does [pa, pa+n) meet a board's table frame of MED m (R273)? -/
def inTableFrame (s : State) (m pa n : Nat) : Bool :=
  (List.range 16).any (fun b =>
    let q := quotaW s m b
    decide (pfnCount q ≠ 0 ∧ pa < (pfnBase q + 1) * 2 ^ 21 ∧ pfnBase q * 2 ^ 21 < pa + n))

/-- DRAM_WINDOW_ACCESS (R289): a burst of the DRAM window, translated in a board's context. [DESIGN CHOICE log 34, DEDUCED log 35] -/
def dramWindow (mst : RimMaster) (m ofs : Nat) (wr : Option (List Byte)) (len : Nat) (s : State) : Option State :=
  let n := match wr with
    | some l => l.length
    | none => len
  let d := getMed s m
  if !edgeRuns s || d.selfRefresh || n = 0 || n % 64 ≠ 0 || ofs % 64 ≠ 0 || 1024 < ofs % 1024 + n || !rimCtxOk mst then none
  else
    let bad := some { violate s (rimCtx mst) with resp := .violation }
    let dn := match rimCtx mst with
      | some b => noteSpan d (quotaW s m b) ofs n none wr.isSome
      | none => d
    let run := fun (ps : List (Nat × Nat)) =>
      let r := match wr with
        | some bs => let (d1, e) := writeSpan dn ps bs; (d1, ([] : List Byte), e)
        | none => readSpan dn ps
      match r with
      | (d1, _, some p) =>
        let s1 := setMed s m d1
        let s2 := match rimCtx mst with
          | some b => raiseBoard s1 fMEM_DED b (packW [(0, 14, p), (16, 4, m)])
          | none => s1
        some (rimBusError s2 mst m)
      | (d1, bs, none) => some { setMed s m d1 with resp := if wr.isSome then .done else .bytes bs }
    if 2 ^ 35 ≤ ofs then bad
    else match rimCtx mst with
      | none => if inTableFrame s m ofs n then bad else run [(ofs, n)]
      | some b => match transSpan d (quotaW s m b) ofs n none wr.isSome with
        | .error (.ded p) =>
          some (rimBusError (raiseBoard (setMed s m dn) fMEM_DED b (packW [(0, 14, p), (16, 4, m)])) mst m)
        | .error _ => some { violate (setMed s m dn) (rimCtx mst) with resp := .violation }
        | .ok ps => run ps

/-! ### The matrix -/

/-- The 174 paths of R287. -/
def pathExists (mst tgt : Nat) : Bool :=
  if mst < 4 then decide (tgt < 8 ∨ tgt = 8 + mst)
  else if mst < 8 then decide (tgt < 8 ∨ tgt = 8 + (mst - 4) ∨ (12 ≤ tgt ∧ tgt < 16))
  else if mst < 12 then decide (tgt < 8 ∨ tgt = 8 + (mst - 8))
  else if mst = 12 then decide (tgt < 18)
  else decide (mst < 21 ∧ 8 ≤ tgt ∧ tgt < 12)

/-- The contexts a master can set (R288). -/
def mstCtxOk (mst : Nat) (ctx : Option Nat) : Bool :=
  match ctx with
  | none => decide (mst < 8 ∨ mst = 12)
  | some b => if mst < 12 then decide (b / 4 = mst % 4) else decide (12 < mst)

/-- The ranges of HED SRAM that a read or a write may reach (R353). -/
def hedRangeOk (s : State) (h mst : Nat) (ctx : Option Nat) (ofs n : Nat) (wr : Bool) : Bool :=
  let inR := fun (lo hi : Nat) => decide (lo ≤ ofs ∧ ofs + n ≤ hi)
  match ctx with
  | none => (mst == 12 || decide (4 ≤ mst ∧ mst < 8)) && inR 0 0x400000
  | some b =>
    let mine := decide (b / 4 = h)
    let dma := mst == h
    let lex := mst == 8 + h
    let med := decide (13 ≤ mst)
    mine &&
    (((dma || lex) && (List.range 8).any (fun c =>
        let ch := getCh s h c
        ch.en && ch.board == b && inR (0x6000 * c) (0x6000 * c + 0x6000)))
      || (dma && inR 0x30000 0x3C000)
      || ((med || lex) && inR (egrBase b) (egrBase b + 0x1000))
      || (lex && inR 0x40000 0x400000)
      || (dma && wr && (getBd s b).st == .loading && inR 0x40000 0x400000)
      || (med && inR 0x40000 0x400000 && regionCover s b 8 ofs (ofs + n))
      || (med && wr && decide (0x1000000 ≤ ofs ∧ ofs + n ≤ 0x1020000) && (
        let v := getSlot s h ((ofs - 0x1000000) / 0x200)
        v.used && !v.dirIn && v.board == b && inR (ofs / 0x200 * 0x200) (ofs / 0x200 * 0x200 + 0x200))))

/-- The master that a target grants next among those that wait: in turn by number, after the one last granted (R291). -/
def nextMaster (last : Nat) (waiting : List Nat) : Option Nat :=
  ((List.range 21).map (fun i => (last + 1 + i) % 21)).find? (fun x => waiting.contains x)

/-- Key of a path. -/
def pathKey (mst tgt : Nat) : Nat := 32 * mst + tgt

/-- A corrected beat counts for its path and sticks at 0xFFFF. -/
def rimCe (r : Rim) (mst tgt : Nat) : Rim :=
  { r with ce := smod 0 r.ce (pathKey mst tgt) (fun c => min 0xFFFF (c + 1)) }

/-- A write of RIM_PATH_SEL (R297): a field written with a reserved code keeps its value (R16); then the path is captured. -/
def rimPathSel (v : Word) (s : State) : State :=
  let mst := if fld v 8 5 < 21 then fld v 8 5 else fld s.rim.sel 8 5
  let tgt := if fld v 0 5 < 18 then fld v 0 5 else fld s.rim.sel 0 5
  let k := pathKey mst tgt
  { s with
    rim := { s.rim with
      sel := packW [(8, 5, mst), (0, 5, tgt)]
      stat := packW [(31, 1, b2n (pathExists mst tgt)), (30, 1, sget 0 s.rim.slices k), (0, 16, sget 0 s.rim.ce k)] }
    resp := .done }

/-! ### Rows -/

/-- An access to offsets 0x020 to 0x0A3 of board b's window in MED m: gated by the MED's enable (R526). -/
def winAccess (f : Fn) (m b : Nat) (rd : Bool) (r : State) (s : State) : Option State :=
  access s f .other rd (reaches f b) (medOn s m) m r

/-- DESC_GO (R275). -/
def execDescGo (f : Fn) (m : Fin 8) (b : Fin 16) (v : Word) (s : State) : Host.Outcome State Fault Refusal :=
  reply s (winAccess f m b false (descGo m b (fld v 0 2) s) s)

/-- RESUME (R281). -/
def execResume (f : Fn) (m : Fin 8) (b : Fin 16) (v : Word) (s : State) : Host.Outcome State Fault Refusal :=
  reply s (winAccess f m b false (resume m b (fld v 0 6) s) s)

/-- PT_COMMIT (R273). -/
def execPtCommit (f : Fn) (m : Fin 8) (b : Fin 16) (v : Word) (s : State) : Host.Outcome State Fault Refusal :=
  reply s (access s f .other false (reaches f b) true m (ptCommit m b v s))

/-- MED_CPL_READ (R295). -/
def execMedCplRead (f : Fn) (m : Fin 8) (b : Fin 16) (s : State) : Host.Outcome State Fault Refusal :=
  reply s (winAccess f m b true (medCplRead m b s) s)

/-- MED_FLT_SEL (R296). -/
def execMedFltSel (f : Fn) (m : Fin 8) (b : Fin 16) (v : Word) (s : State) : Host.Outcome State Fault Refusal :=
  reply s (winAccess f m b false (medFltSel m b v s) s)

/-- EGRESS_FORWARD (R267). -/
def execEgressForward (x : Fin 1104) (south : Bool) (lane : Fin 2) (slot : Fin 32) (s : State) :
    Host.Outcome State Fault Refusal := answer s (egressForward x south lane slot s)

/-- STESY_EGRESS_FORWARD (R592). -/
def execStesyEgressForward (x : Fin 1104) (south : Bool) (lane : Fin 2) (slot : Fin 32) (s : State) :
    Host.Outcome State Fault Refusal := answer s (stesyEgressForward x south lane slot s)

/-- WAFER_WINDOW_WRITE (R268). -/
def execWaferWindowWrite (mst : RimMaster) (m : Fin 8) (ofs : Nat) (recs : List (BitVec 64)) (s : State) :
    Host.Outcome State Fault Refusal := reply s (waferWrite mst m ofs recs s)

/-- DRAM_WINDOW_ACCESS (R289). -/
def execDramWindowAccess (mst : RimMaster) (m : Fin 8) (ofs : Nat) (wr : Option (List Byte)) (len : Nat) (s : State) :
    Host.Outcome State Fault Refusal := reply s (dramWindow mst m ofs wr len s)

/-- RIM_PATH_SEL (R297). -/
def execRimPathSel (f : Fn) (v : Word) (s : State) : Host.Outcome State Fault Refusal :=
  reply s (access s f .other false (isPf f) true 12 (rimPathSel v s))

end Sys2Proof.Machine
end

