-- ==== Sys2Proof/Machine/Link.lean ====
section
/-! DEFINITION. Stesy links, the shared part: events of a port, the way of a unit through forwarding tables, notices, closing of
channel slots (R582, R585, R597, R600-R604). -/
namespace Sys2Proof.Machine

/-- A port enters a state: its event bits are set and PF vector 6 is signalled (R585, R607). -/
def portEvent (s : State) (h k st : Nat) : State :=
  let p := getPort s h k
  let bits : Word := (if p.st = 4 then 1#32 <<< 31 else 0) ||| (if st = 6 then 1#32 <<< 30 else 0)
    ||| (if st = 7 then 1#32 <<< 29 else 0) ||| (if st = 4 then 1#32 <<< 28 else 0)
  sigStesy (setPortP s h k { p with st := st, evt := p.evt ||| bits }) h

/-- Counts that stick at 0xFFFF (R608). -/
def stick16 (n m : Nat) : Nat := min 0xFFFF (n + m)

/-- The own forwarding entry of HED h that routes to a wafer and HED (R597, R598). -/
def routeOf (h : Hed) (wafer hed : Nat) : Option Nat :=
  (h.fwd.find? (fun e => bitAt e.1 31 && decide (fld e.2 0 15 ≤ wafer ∧ wafer ≤ fld e.2 16 15) && bitAt e.1 (24 + hed))).map
    (fun e => fld e.1 16 2)

/-- The lane of a unit: its link channel, or 64 for the service lane. -/
def laneOfUnit (u : DUnit) : Nat := if u.svc then 64 else u.lc

/-- NOROUTE and TTL discards signal PF vector 6. [DEDUCED log 79] -/
def dropNoroute (s : State) (h n : Nat) : State :=
  if n = 0 then s else sigStesy (modHed s h (fun e => { e with noroute := stick16 e.noroute n })) h
def dropTtl (s : State) (h : Nat) : State := sigStesy (modHed s h (fun e => { e with ttl := stick16 e.ttl 1 })) h
def dropStale (s : State) (h : Nat) : State := modHed s h (fun e => { e with stale := stick16 e.stale 1 })

/-- Does a unit end at HED h? -/
def unitHere (s : State) (h : Nat) (u : DUnit) : Bool := u.dwafer == s.wafer && u.dhed == h

/-- A unit that does not end at HED h is queued on its route's port, or discarded (R597); `rx` for a received unit. [DEDUCED log 79] -/
def forwardUnit (s : State) (h : Nat) (u : DUnit) (rx : Bool) : State :=
  match routeOf (getHed s h) u.dwafer u.dhed with
  | none => dropNoroute s h 1
  | some k =>
    let p := getPort s h k
    if p.st = 6 ∨ p.st = 7 then dropNoroute s h 1
    else if rx && u.hop == 254 then dropTtl s h
    else
      let v := { u with hop := if rx then u.hop + 1 else 0 }
      setPortP s h k { p with txq := smod [] p.txq (laneOfUnit u) (fun l => l ++ [v]) }

/-- The flits of a FLITS unit (R582). -/
def unitFlits (u : DUnit) : List Flit :=
  let w := (u.body[0]?).getD 0
  (List.range (min 5 (fld w 16 3))).map (fun i =>
    { data := (u.body[i + 1]?).getD 0, null := bitAt w i, eom := bitAt w (5 + i) })

/-- A notice joins the notice store of its board, or is discarded as STALE (R597, R604): its board is EMPTY, UNDEFINED or being
reset, or holds another image; notices for a board that loads wait. [DEDUCED log 96] -/
def deliverNotice (s : State) (h : Nat) (u : DUnit) : State :=
  let b := 4 * h + u.dslot / 16 % 4
  let bd := getBd s b
  let w := fun (i : Nat) => ((u.body[i]?).getD 0 : Word)
  let kind := fld (w 0) 28 4
  let known := bd.st == .loading
    || (bd.st != .undefined && bd.st != .empty && bd.st != .resetting && bd.imageId == (w 1).toNat + 2 ^ 32 * (w 2).toNat)
  if u.dslot / 64 ≠ h ∨ kind = 0 ∨ 8 < kind ∨ !known then dropStale s h
  else modHed s h (fun e => { e with notices := e.notices ++ [(b, u.body)] })

/-- A unit that ends at HED h is delivered, or discarded as STALE (R597). -/
def deliver (s : State) (h : Nat) (u : DUnit) : State :=
  let v := getSlot s h u.dslot
  let fits := v.used && !v.closed && v.epoch == u.epoch
  match u.typ with
  | 0 => if fits && v.dirIn then setSlot s h u.dslot { v with ring := v.ring ++ unitFlits u } else dropStale s h
  | 1 => if fits && !v.dirIn then setSlot s h u.dslot { v with credits := v.credits + fld ((u.body[0]?).getD 0) 0 9 } else dropStale s h
  | 2 => deliverNotice s h u
  | _ => dropStale s h

/-- A unit that HED h originates (R597). -/
def originate (s : State) (h : Nat) (u : DUnit) : State := if unitHere s h u then deliver s h u else forwardUnit s h u false

/-- A unit that leaves a receive buffer of port k: its lane's credit is to be returned, and the unit is delivered or forwarded
(R586, R597). -/
def leaveBuffer (s : State) (h k : Nat) (u : DUnit) : State :=
  let p := getPort s h k
  let s1 := setPortP s h k { p with retTot := smod 0 p.retTot (laneOfUnit u) (· + 1) }
  if unitHere s1 h u then deliver s1 h u else forwardUnit s1 h u true

/-- The receive buffers of a port are served: what the link keeper held (R519, R520). [DESIGN CHOICE log 78] -/
def drainRx (s : State) (h k : Nat) : State :=
  let p := getPort s h k
  (p.rx.flatMap (·.2)).foldl (fun s u => leaveBuffer s h k u) (setPortP s h k { p with rx := [] })

/-- Every port's receive buffers are served. [DESIGN CHOICE log 78] -/
def drainAllRx (s : State) : State :=
  (List.range 16).foldl (fun s i => drainRx s (i / 4) (i % 4)) s

/-- The words of a unit of body W2 to W7. -/
def mkUnit (typ : Nat) (wafer hed dslot epoch : Nat) (body : List Word) : DUnit :=
  { typ := typ, svc := typ != 0, lc := if typ = 0 then dslot % 64 else 0, dwafer := wafer, dhed := hed, dslot := dslot,
    epoch := epoch, body := body }

/-- A board's notice to piece p of its image (R600, R601). [DEDUCED log 96] -/
def sendNotice (s : State) (b p kind flags : Nat) (w5 w6 w7 : Word) : State :=
  let bd := getBd s b
  let e := (bd.pieceMap[p]?).getD 0
  let dst := fld e 0 4
  let u := mkUnit 2 (fld e 4 15) (dst / 4) (16 * dst) 0
    [packW [(28, 4, kind), (16, 8, flags), (0, 16, bd.piece)], BitVec.ofNat 32 bd.imageId, BitVec.ofNat 32 (bd.imageId / 2 ^ 32),
      w5, w6, w7]
  originate s (b / 4) u

/-- A notice to every other piece. -/
def sendAll (s : State) (b kind flags : Nat) (w5 w6 w7 : Word) : State :=
  let bd := getBd s b
  (List.range bd.pieces).foldl (fun s p => if p = bd.piece then s else sendNotice s b p kind flags w5 w6 w7) s

/-- Notice kinds of R600. -/
def nLOADED : Nat := 1
def nRECORD : Nat := 2
def nSTART : Nat := 3
def nARM : Nat := 4
def nDRAIN : Nat := 5
def nQUIET : Nat := 6
def nSTALEMATE : Nat := 7
def nREFUSE : Nat := 8

/-- The channel slots of board b close (R603); at the end of a reset they are no longer USED. [DEDUCED log 47] -/
def closeSlots (s : State) (b : Nat) (drop : Bool) : State :=
  modHed s (b / 4) (fun e => { e with
    slots := e.slots.map (fun p => (p.1, if p.2.used && p.2.board == b then
      { p.2 with closed := true, opened := false, ring := [], used := !drop } else p.2)) })

/-- Does the board belong to an image of several pieces? -/
def multi (bd : Board) : Bool := decide (1 < bd.pieces)

/-- A token word of board b is in flight (R306). -/
def wordsInFlight (s : State) (b : Nat) : Bool :=
  (getHed s (b / 4)).chans.any (fun p => p.2.en && p.2.board == b && p.2.cur.any (fun c => !c.fly.isEmpty))

/-- The stalemate detector of board b is armed (R306). -/
def armed (s : State) (b : Nat) : Bool :=
  let bd := getBd s b
  (bd.st == .running || bd.st == .draining) &&
    (wordsInFlight s b || bd.st == .draining || (multi bd && !bd.home && bd.armIn))

/-- The home piece tells the other pieces when it becomes armed or stops being armed (R601). -/
def armNotice (before : Bool) (b : Nat) (s : State) : State :=
  let bd := getBd s b
  if bd.home && multi bd && armed s b != before then sendAll s b nARM (b2n (armed s b)) 0 0 0 else s

end Sys2Proof.Machine
end

