-- ==== Sys2Proof/Machine/Table.lean ====
section
/-! DEFINITION. Vocabulary and grammar tables: reads, lookup, encoding, strings; the automaton's advance and masks (R354-R362,
R379-R385). -/
namespace Sys2Proof.Machine

/-! ### Table reads (R354, R373) -/

/-- Where a table lies: HED SRAM from an offset, or board b's space in MED m from a VA. -/
inductive TSrc where
  | sram (h base : Nat)
  | med (m b base : Nat)
deriving DecidableEq, Repr

/-- What reads of tables have done so far: the MED's error records, violations, an uncorrectable error found. -/
structure TR where
  d : Med := {}
  viol : Nat := 0
  ded : Bool := false
deriving DecidableEq, Repr

/-- Reads begin. -/
def trStart (s : State) : TSrc → TR
  | .sram _ _ => {}
  | .med m _ _ => { d := getMed s m }

/-- The n bytes at va of a table in a MED, which lie in one page: a page that is not mapped, or a VA outside the DRAM window
(R289), is a violation and reads as zeros. -/
def tabPart (q : Word) (a : TR) (va n : Nat) : TR × List Byte :=
  let zeros := List.replicate n (0 : Byte)
  if n = 0 then (a, [])
  else if 2 ^ 35 ≤ va then ({ a with viol := a.viol + 1 }, zeros)
  else
    let d := noteSpan a.d q va n none false
    match transSpan a.d q va n none false with
    | .error (.ded _) => ({ a with d := d, ded := true }, zeros)
    | .error _ => ({ a with d := d, viol := a.viol + 1 }, zeros)
    | .ok ps =>
      match readSpan d ps with
      | (d1, _, some _) => ({ a with d := d1, ded := true }, zeros)
      | (d1, bs, none) => ({ a with d := d1 }, bs)

/-- The key of a cached word: 8 bytes of board b's space. -/
def cacheKey (b i : Nat) : Nat := 2 ^ 45 * b + i

/-- A word of n bytes at va of board b's tables is uncorrectable in the cache (R373). [DEDUCED log 37] -/
def cacheBad (s : State) (b va n : Nat) : Bool :=
  (wordsTouched va n).any (fun p => decide (2 ≤ sget 0 (getHed s (b / 4)).cacheEcc (cacheKey b p.1)))

/-- The tables of board b are loaded again: what the cache held of them is gone (R373). -/
def dropCache (b : Nat) (e : Hed) : Hed := { e with cacheEcc := e.cacheEcc.filter (fun p => p.1 / 2 ^ 45 != b) }

/-- The little-endian number of n bytes at an offset of a table, read page by page. [DEDUCED log 37] -/
def tabRead (s : State) (src : TSrc) (a : TR) (ofs n : Nat) : TR × Nat :=
  match src with
  | .sram h base =>
    let e := getHed s h
    if (wordsTouched (base + ofs) n).any (fun p => decide (2 ≤ sget 0 e.sramEcc p.1)) then ({ a with ded := true }, 0)
    else (a, readLE e.sram (base + ofs) n)
  | .med m b base =>
    let va := base + ofs
    if cacheBad s b va n then ({ a with ded := true }, 0)
    else
      let first := min n (2 ^ 21 - va % 2 ^ 21)
      let p := tabPart (quotaW s m b) a va first
      let r := tabPart (quotaW s m b) p.1 (va + first) (n - first)
      (r.1, ofBytesLE (p.2 ++ r.2))

/-- The reads' own effects on the state, for board b. -/
def trEnd (s : State) (src : TSrc) (a : TR) (b : Nat) : State :=
  let s1 := match src with
    | .sram _ _ => s
    | .med m _ _ => setMed s m a.d
  if a.viol = 0 then s1
  else { s1 with flt := { s1.flt with viol := smod 0 s1.flt.viol b (fun c => evAdd c a.viol) } }

/-- The vocabulary of a channel (R351, R374). [DEDUCED log 37] -/
def vocab (h : Nat) (ch : Chan) : TSrc := if ch.cached then .med ch.med ch.board ch.vbase else .sram h ch.vbase

/-- The grammar of a channel (R376). -/
def gramSrc (ch : Chan) : TSrc := .med ch.gMed ch.board ch.gBase

/-! ### Vocabulary (R355, R356, R360-R362) -/

/-- LEN and OFFSET of a token's string, and MERGE and RANK. -/
def tokIndex (s : State) (src : TSrc) (a : TR) (t : Nat) : TR × (Nat × Nat) × (Bool × Nat) :=
  let (a1, oi) := tabRead s src a 0x24 4
  let (a2, w0) := tabRead s src a1 (oi + 8 * t) 4
  let (a3, w1) := tabRead s src a2 (oi + 8 * t + 4) 4
  (a3, (nfld w0 25 7, nfld w0 0 25), (nfld w1 31 1 == 1, nfld w1 0 22))

/-- A token's string. -/
def tokString (s : State) (src : TSrc) (a : TR) (t : Nat) : TR × List Byte :=
  let (a1, (len, ofs), _) := tokIndex s src a t
  let (a2, os) := tabRead s src a1 0x28 4
  let (a3, v) := tabRead s src a2 (os + ofs) len
  (a3, bytesLE len v)

/-- FNV-1a, 32 bits (R360). -/
def fnv (bs : List Byte) : Nat := bs.foldl (fun h c => ((h ^^^ c.toNat) * 0x01000193) % 2 ^ 32) 0x811C9DC5

/-- The probes of a lookup from bucket i on; `fuel` buckets are looked at. -/
def lookupGo (s : State) (src : TSrc) (str : List Byte) (h oh nb : Nat) : Nat → TR → Nat → TR × Option Nat
  | 0, a, _ => (a, none)
  | fuel + 1, a, i =>
    let (a1, e) := tabRead s src a (oh + 4 * i) 4
    if nfld e 31 1 = 0 then (a1, none)
    else if nfld e 22 9 = nfld h 23 9 then
      let (a2, st) := tokString s src a1 (nfld e 0 22)
      if st = str then (a2, some (nfld e 0 22)) else lookupGo s src str h oh nb fuel a2 ((i + 1) % nb)
    else lookupGo s src str h oh nb fuel a1 ((i + 1) % nb)

/-- The lookup of a byte string (R360). -/
def lookup (s : State) (src : TSrc) (a : TR) (str : List Byte) : TR × Option Nat :=
  let (a1, nb) := tabRead s src a 0x14 4
  let (a2, oh) := tabRead s src a1 0x30 4
  lookupGo s src str (fnv str) oh nb nb a2 (fnv str % max nb 1)

/-- A part of a pre-token under merging: its token and string; a byte that becomes UNK never merges. -/
structure Part where
  tok : Nat
  str : List Byte
  fixed : Bool
deriving DecidableEq, Repr

/-- The part of one byte: BYTEMAP, or UNK, or nothing (R361). -/
def bytePart (s : State) (src : TSrc) (a : TR) (c : Byte) : TR × Option Part :=
  let (a1, ob) := tabRead s src a 0x20 4
  let (a2, w) := tabRead s src a1 (ob + 4 * c.toNat) 4
  if nfld w 31 1 = 1 then (a2, some ⟨nfld w 0 22, [c], false⟩)
  else
    let (a3, fl) := tabRead s src a2 0x08 4
    if nfld fl 8 1 = 1 then
      let (a4, u) := tabRead s src a3 0x0C 4
      (a4, some ⟨u, [c], true⟩)
    else (a3, none)

def byteParts (s : State) (src : TSrc) : TR → List Byte → TR × List Part
  | a, [] => (a, [])
  | a, c :: r =>
    let (a1, p) := bytePart s src a c
    let (a2, ps) := byteParts s src a1 r
    (a2, (match p with | some q => [q] | none => []) ++ ps)

/-- The best pair of adjacent parts, left to right: rank, position, token. -/
def bestPair (s : State) (src : TSrc) : TR → Nat → List Part → Option (Nat × Nat × Nat) → TR × Option (Nat × Nat × Nat)
  | a, i, p :: q :: r, best =>
    if p.fixed || q.fixed then bestPair s src a (i + 1) (q :: r) best
    else
      let (a1, t) := lookup s src a (p.str ++ q.str)
      match t with
      | none => bestPair s src a1 (i + 1) (q :: r) best
      | some t =>
        let (a2, _, (merge, rank)) := tokIndex s src a1 t
        let better := match best with
          | none => true
          | some b => decide (rank < b.1)
        bestPair s src a2 (i + 1) (q :: r) (if merge && better then some (rank, i, t) else best)
  | a, _, _, best => (a, best)

/-- Parts i and i + 1 become one. -/
def mergeAt : Nat → Nat → List Part → List Part
  | 0, t, p :: q :: r => ⟨t, p.str ++ q.str, false⟩ :: r
  | i + 1, t, p :: r => p :: mergeAt i t r
  | _, _, l => l

def mergeLoop (s : State) (src : TSrc) : Nat → TR → List Part → TR × List Part
  | 0, a, ps => (a, ps)
  | fuel + 1, a, ps =>
    match bestPair s src a 0 ps none with
    | (a1, none) => (a1, ps)
    | (a1, some (_, i, t)) => mergeLoop s src fuel a1 (mergeAt i t ps)

/-- Rank-ordered byte-pair merging (R361). -/
def encodeBpe (s : State) (src : TSrc) (a : TR) (bs : List Byte) : TR × List Nat :=
  let (a1, ps) := byteParts s src a bs
  let (a2, qs) := mergeLoop s src bs.length a1 ps
  (a2, qs.map (·.tok))

/-- The child of a trie node on a byte: edges first to first + n − 1. -/
def trieChild (s : State) (src : TSrc) (oe : Nat) (c : Byte) : Nat → TR → Nat → TR × Option Nat
  | 0, a, _ => (a, none)
  | n + 1, a, first =>
    let (a1, e) := tabRead s src a (oe + 4 * first) 4
    if nfld e 24 8 = c.toNat then (a1, some (nfld e 0 24)) else trieChild s src oe c n a1 (first + 1)

/-- The longest token from a node along the bytes: the token, and the bytes it takes; `k` bytes are taken so far. -/
def trieWalk (s : State) (src : TSrc) (ot oe : Nat) : TR → Nat → Nat → Option (Nat × Nat) → List Byte → TR × Option (Nat × Nat)
  | a, _, _, best, [] => (a, best)
  | a, node, k, best, c :: r =>
    let (a1, w1) := tabRead s src a (ot + 8 * node + 4) 4
    match trieChild s src oe c (nfld w1 23 9) a1 (nfld w1 0 23) with
    | (a2, none) => (a2, best)
    | (a2, some nd) =>
      let (a3, w0) := tabRead s src a2 (ot + 8 * nd) 4
      trieWalk s src ot oe a3 nd (k + 1) (if nfld w0 31 1 = 1 then some (nfld w0 0 22, k + 1) else best) r

/-- Greedy longest match (R362); `fuel` bounds the tokens. -/
def encodeGreedy (s : State) (src : TSrc) (ot oe : Nat) : Nat → TR → List Byte → TR × List Nat
  | 0, a, _ => (a, [])
  | _, a, [] => (a, [])
  | fuel + 1, a, c :: r =>
    match trieWalk s src ot oe a 0 0 none (c :: r) with
    | (a1, some (t, n)) =>
      let (a2, ts) := encodeGreedy s src ot oe fuel a1 ((c :: r).drop n)
      (a2, t :: ts)
    | (a1, none) =>
      let (a2, p) := bytePart s src a1 c
      let (a3, ts) := encodeGreedy s src ot oe fuel a2 r
      (a3, (match p with | some q => [q.tok] | none => []) ++ ts)

/-- The tokens of a closed pre-token. -/
def encodeText (s : State) (src : TSrc) (alg : Nat) (bs : List Byte) : TR × List Nat :=
  let a := trStart s src
  if alg = 2 then
    let (a1, ot) := tabRead s src a 0x30 4
    let (a2, oe) := tabRead s src a1 0x34 4
    encodeGreedy s src ot oe bs.length a2 bs
  else encodeBpe s src a bs

/-! ### Splitting (R358) -/

/-- May byte b follow byte c in one pre-token? -/
def joins (s : State) (src : TSrc) (a : TR) (c b : Byte) : TR × Bool :=
  let (a1, oc) := tabRead s src a 0x18 4
  let (a2, oj) := tabRead s src a1 0x1C 4
  let (a3, cc) := tabRead s src a2 (oc + c.toNat) 1
  let (a4, cb) := tabRead s src a3 (oc + b.toNat) 1
  let (a5, j) := tabRead s src a4 (oj + 2 * (cc % 16)) 2
  (a5, j.testBit (cb % 16))

/-- Text bytes join the open pre-token or close it. -/
def splitGo (s : State) (src : TSrc) : TR → List Byte → List PreTok → List Byte → TR × List PreTok × List Byte
  | a, op, cl, [] => (a, cl, op)
  | a, op, cl, b :: r =>
    match op.getLast? with
    | none => splitGo s src a [b] cl r
    | some c =>
      let (a1, j) := joins s src a c b
      if j && op.length < 64 then splitGo s src a1 (op ++ [b]) cl r
      else splitGo s src a1 [b] (cl ++ [.text op]) r

/-- A pre-token that has reached 64 bytes is closed. -/
def closeFull (op : List Byte) (cl : List PreTok) : List Byte × List PreTok :=
  if op.length = 64 then ([], cl ++ [.text op]) else (op, cl)

/-! ### UTF-8 (R367) -/

/-- Bytes still needed after a lead. -/
def leadNeed (b : Nat) : Nat := if b < 0xE0 then 1 else if b < 0xF0 then 2 else 3

/-- May byte b follow the held bytes? -/
def contOk (held : List Byte) (b : Nat) : Bool :=
  match held with
  | [l] =>
    let lo := if l = 0xE0#8 then 0xA0 else if l = 0xF0#8 then 0x90 else 0x80
    let hi := if l = 0xED#8 then 0x9F else if l = 0xF4#8 then 0x8F else 0xBF
    decide (lo ≤ b ∧ b ≤ hi)
  | _ => decide (0x80 ≤ b ∧ b ≤ 0xBF)

/-- A broken run. -/
def broken (replace : Bool) (held : List Byte) : List Byte :=
  if held.isEmpty then [] else if replace then [0xEF#8, 0xBF#8, 0xBD#8] else held

/-- One byte taken with nothing held: bytes emitted, bytes held. -/
def detokFresh (replace : Bool) (b : Byte) : List Byte × List Byte :=
  let v := b.toNat
  if v < 0x80 then ([b], [])
  else if 0xC2 ≤ v ∧ v ≤ 0xF4 then ([], [b])
  else (broken replace [b], [])

/-- One byte taken (R367). -/
def detokByte (replace : Bool) (held : List Byte) (b : Byte) : List Byte × List Byte :=
  match held with
  | [] => detokFresh replace b
  | l :: _ =>
    let v := b.toNat
    if 0x80 ≤ v ∧ v ≤ 0xBF then
      if contOk held v then
        if held.length = leadNeed l.toNat then (held ++ [b], []) else ([], held ++ [b])
      else
        let r := detokFresh replace b
        (broken replace held ++ r.1, r.2)
    else
      let r := detokFresh replace b
      (broken replace held ++ r.1, r.2)

/-- A token's string taken byte by byte. -/
def detok (replace : Bool) : List Byte → List Byte → List Byte × List Byte
  | held, [] => ([], held)
  | held, b :: r =>
    let (e, h1) := detokByte replace held b
    let (e2, h2) := detok replace h1 r
    (e ++ e2, h2)

/-! ### The automaton (R379-R385) -/

/-- A state of the automaton: ACCEPT, FALLTHRU, first transition, their number. -/
def gState (s : State) (src : TSrc) (a : TR) (q : Nat) : TR × (Bool × Bool × Nat × Nat) :=
  let (a1, os) := tabRead s src a 0x10 4
  let (a2, w0) := tabRead s src a1 (os + 8 * q) 4
  let (a3, w1) := tabRead s src a2 (os + 8 * q + 4) 4
  (a3, nfld w0 31 1 == 1, nfld w0 30 1 == 1, nfld w0 0 16, nfld w1 0 9)

/-- A transition: action, target, return state, set. -/
def gTrans (s : State) (src : TSrc) (a : TR) (i : Nat) : TR × (Nat × Nat × Nat × Nat) :=
  let (a1, ot) := tabRead s src a 0x14 4
  let (a2, w0) := tabRead s src a1 (ot + 8 * i) 4
  let (a3, w1) := tabRead s src a2 (ot + 8 * i + 4) 4
  (a3, nfld w0 30 2, nfld w0 12 12, nfld w0 0 12, w1)

/-- The tokens of a set as a number with one bit per token: its runs from token p on. -/
def setRuns (s : State) (src : TSrc) : Nat → TR → Nat → Nat → Nat → TR × Nat
  | 0, a, _, _, acc => (a, acc)
  | n + 1, a, adr, p, acc =>
    let (a1, w) := tabRead s src a adr 4
    let len := nfld w 0 23
    setRuns s src n a1 (adr + 4) (p + len) (if nfld w 31 1 = 1 then acc ||| ((2 ^ len - 1) <<< p) else acc)

/-- The token set at an offset of the set area. -/
def gSet (s : State) (src : TSrc) (a : TR) (ofs : Nat) : TR × Nat :=
  let (a1, os) := tabRead s src a 0x18 4
  let (a2, n) := tabRead s src a1 (os + ofs) 4
  setRuns s src n a2 (os + ofs + 4) 0 0

/-- The first of n transitions from i on whose set has token t. -/
def findTrans (s : State) (src : TSrc) (t : Nat) : Nat → TR → Nat → TR × Option (Nat × Nat × Nat)
  | 0, a, _ => (a, none)
  | n + 1, a, i =>
    let (a1, act, tgt, ret, ofs) := gTrans s src a i
    let (a2, m) := gSet s src a1 ofs
    if m.testBit t then (a2, some (act, tgt, ret)) else findTrans s src t n a2 (i + 1)

/-- How an advance ends: the new state and stack (top first), or the cause of a rejection (R390). -/
inductive Adv where
  | ok (q : Nat) (stack : List Nat)
  | reject (cause : Nat)
deriving DecidableEq, Repr

/-- The advance by token t (R382): `q0` is the state before it, `cur` the state looked at, with the stack below it. [DEDUCED log 38] -/
def advance (s : State) (src : TSrc) (stops : List Nat) (t q0 : Nat) : TR → Nat → List Nat → TR × Adv
  | a, cur, [] =>
    let (a1, acc, _, first, nt) := gState s src a cur
    match findTrans s src t nt a1 first with
    | (a2, some (act, tgt, ret)) =>
      (a2, if act = 2 then .reject 3 else if act = 1 then .ok tgt [ret] else .ok tgt [])
    | (a2, none) => (a2, if stops.contains t && acc then .ok q0 [] else .reject 1)
  | a, cur, r :: st =>
    let (a1, _, fall, first, nt) := gState s src a cur
    match findTrans s src t nt a1 first with
    | (a2, some (act, tgt, ret)) =>
      (a2, if act = 2 then .ok r st
        else if act = 1 then (if 64 ≤ (r :: st).length then .reject 2 else .ok tgt (ret :: r :: st))
        else .ok tgt (r :: st))
    | (a2, none) => if fall then advance s src stops t q0 a2 r st else (a2, .reject 1)

/-- Finished (R383). -/
def gFinished (s : State) (src : TSrc) (a : TR) (q : Nat) (stack : List Nat) : TR × Bool :=
  let (a1, acc, _, _, nt) := gState s src a q
  (a1, acc && nt == 0 && stack.isEmpty)

/-- The union of the sets of n transitions from i on that depth d admits. -/
def unionTrans (s : State) (src : TSrc) (d : Nat) : Nat → TR → Nat → Nat → TR × Nat
  | 0, a, _, m => (a, m)
  | n + 1, a, i, m =>
    let (a1, act, _, _, ofs) := gTrans s src a i
    if (act = 1 ∧ d = 64) ∨ (act = 2 ∧ d = 0) then unionTrans s src d n a1 (i + 1) m
    else
      let (a2, v) := gSet s src a1 ofs
      unionTrans s src d n a2 (i + 1) (m ||| v)

/-- The mask of a state and stack (R384). -/
def gMask (s : State) (src : TSrc) (stops : Nat) : TR → Nat → List Nat → Nat → TR × Nat
  | a, cur, [], m =>
    let (a1, acc, _, first, nt) := gState s src a cur
    let (a2, m1) := unionTrans s src 0 nt a1 first m
    (a2, if acc then m1 ||| stops else m1)
  | a, cur, r :: st, m =>
    let (a1, _, fall, first, nt) := gState s src a cur
    let (a2, m1) := unionTrans s src (r :: st).length nt a1 first m
    if fall then gMask s src stops a2 r st m1 else (a2, m1)

/-- Set bits of the low n words of a number. -/
def popWords : Nat → Nat → Nat
  | 0, _ => 0
  | n + 1, v => (List.range 32).countP (fun i => v.testBit i) + popWords n (v >>> 32)

end Sys2Proof.Machine
end

