-- ==== Sys2Proof/Machine/Text.lean ====
section
/-! DEFINITION. Text channels: rings, completion records, requests, token words, returns, masks (R18-R32, R358-R373, R376-R391,
R566-R576). -/
namespace Sys2Proof.Machine

/-! ### Channels -/

/-- Can a function reach channel c of HED h (R18, R560)? -/
def chanOk (s : State) (f : Fn) (h c : Nat) : Bool :=
  match f with
  | .vf h' k => let ch := getCh s h c; decide (h'.val = h) && ch.en && ch.board == 4 * h'.val + k.val
  | _ => true

/-- Ring registers by offset (R576). -/
def ringW (ch : Chan) (ofs : Nat) : Word := sget 0 ch.ring ofs
def ringEn (ch : Chan) : Bool := bitAt (ringW ch 0) 31
def txtLog2 (ch : Chan) : Nat := fld (ringW ch 0x0C) 0 4
def cplLog2 (ch : Chan) : Nat := fld (ringW ch 0x18) 0 4

/-- The state of a channel bound to its board's image, or unbound in it (R375). -/
def chanState (ch : Chan) : Nat :=
  if !ch.bound then 4
  else match ch.cur with
    | none => 0
    | some c => if c.cause ≠ 0 then 3 else if c.promptDone then 2 else 1

/-- STAT.STATE of a channel (R351, R375): UNBOUND only in a board that holds an image; IDLE as after reset before that. [DEDUCED log 132] -/
def chanStat (bd : Board) (ch : Chan) : Nat :=
  if !ch.bound && (bd.st == .undefined || bd.st == .empty || bd.st == .loading || bd.st == .resetting) then 0 else chanState ch

/-- May the device issue requests as the function of board b (R557, R558)? -/
def vfMaster (s : State) (b : Nat) : Bool := fnMaster s (vfIx b)

/-- A slot of the completion ring is free (R571). -/
def cplFree (ch : Chan) : Bool := decide ((ch.cplTail + 65536 - ch.cplCons) % 65536 < 2 ^ cplLog2 ch)

/-- A completion record (R569). -/
def cplRecord (ch : Chan) (kind endc tag issued returned : Nat) (data : List Byte) : List Byte :=
  bytesLE 4 (packNat [(31, 1, b2n ch.phase), (28, 3, kind), (24, 4, endc), (0, 16, tag)])
    ++ bytesLE 4 (packNat [(16, 16, ch.txtHead), (0, 6, data.length)])
    ++ bytesLE 4 issued ++ bytesLE 4 returned ++ data ++ List.replicate (48 - data.length) 0

/-- Vector 1 of a channel's board, for a FINAL record and for a TEXT record (R574). -/
def sigText (s : State) (h c : Nat) (final : Bool) : State :=
  let ch := getCh s h c
  if final then signal (setCh s h c { ch with holdPend := false }) (vfIx ch.board) 1
  else if ch.hold then setCh s h c { ch with holdPend := true }
  else signal (setCh s h c { ch with hold := fld (ringW ch 0) 0 10 != 0 }) (vfIx ch.board) 1

/-- A record is written in the next slot, and signalled. [DESIGN CHOICE log 63] -/
def writeCpl (s : State) (h c kind endc tag issued returned : Nat) (data : List Byte) : State :=
  let ch := getCh s h c
  let rec_ := cplRecord ch kind endc tag issued returned data
  let slot := ch.cplTail % 2 ^ cplLog2 ch
  let s1 := { s with toHost := s.toHost ++ [.cpl h c slot rec_] }
  let s2 := setCh s1 h c { ch with
    cplTail := (ch.cplTail + 1) % 65536
    phase := if slot + 1 = 2 ^ cplLog2 ch then !ch.phase else ch.phase }
  sigText s2 h c (kind == 2)

/-- TEXT records of a channel's output, 48 bytes each, as far as free slots go (R32, R570); `fuel` bounds the records. -/
def flushText (h c : Nat) : Nat → State → State
  | 0, s => s
  | fuel + 1, s =>
    let ch := getCh s h c
    match ch.cur with
    | none => s
    | some u =>
      if u.out.isEmpty || !ringEn ch || !vfMaster s ch.board || !cplFree ch then s
      else
        let s1 := writeCpl s h c 1 0 ((ch.reqs.head?.map (·.tag)).getD 0) 0 0 (u.out.take 48)
        flushText h c fuel (modCh s1 h c (fun ch => { ch with cur := ch.cur.map (fun u => { u with out := u.out.drop 48 }) }))

/-- Every record the channel's output needs. -/
def flushOut (h c : Nat) (s : State) : State :=
  flushText h c (((getCh s h c).cur.map (fun u => u.out.length)).getD 0) s

/-- The SEQ of a first SAMPLE word whose prompt is whole (R386). [DESIGN CHOICE log 39] -/
def firstSeq (ch : Chan) : Option Nat :=
  match ch.cur, ch.reqs with
  | some u, r :: _ =>
    if r.eop && r.closed.isEmpty && r.open_.isEmpty then some ((u.issued + r.toks.length + 255) % 256) else none
  | _, _ => none

/-- A mask of channel c that has begun is completed when its request ends (R386): the SEQ of its word, if it is known, goes
into its header; else its header's SEQ is open. [DESIGN CHOICE log 39] -/
def seqMasks (b c : Nat) (q : Option Nat) (s : State) : State :=
  if (getBd s b).maskQ.any (fun k => k.chan == c && k.seq.isNone) then
    let v := q.getD (fld (Config.freeWord s.freeCtr) 0 8)
    { modBd s b (fun bd => { bd with
        maskQ := bd.maskQ.map (fun k => if k.chan = c ∧ k.seq = none then { k with seq := some v } else k) }) with
      freeCtr := s.freeCtr + b2n q.isNone }
  else s

/-- The request of a channel ends with a cause: no further word is issued (R28, R31); masks begun for it are completed (R386). -/
def endCur (s : State) (h c cause : Nat) : State :=
  let ch := getCh s h c
  match ch.cur with
  | none => s
  | some u =>
    if u.cause ≠ 0 then s
    else seqMasks ch.board c (firstSeq ch) (setCh s h c { ch with cur := some { u with cause := cause, feedback := none } })

/-- The words in flight of a channel's request are abandoned. -/
def abandonWords (s : State) (h c : Nat) : State :=
  let ch := getCh s h c
  match ch.cur with
  | none => s
  | some u =>
    let s1 := setCh s h c { ch with cur := some { u with abandoned := u.abandoned + u.fly.length, fly := [] } }
    modBd s1 ch.board (fun bd => { bd with abandonedWords := bd.abandonedWords || !u.fly.isEmpty })

/-- The channels of board b that carry its request. -/
def curChans (s : State) (b : Nat) : List Nat :=
  (List.range 8).filter (fun c => let ch := getCh s (b / 4) c; ch.en && ch.board == b && ch.cur.isSome)

/-- The board's request ends with ABORT and its words in flight are abandoned (R28, R613); a cause that stands is kept. [DEDUCED log 47] -/
def abortBoard (s : State) (b : Nat) : State :=
  armNotice (armed s b) b ((curChans s b).foldl (fun s c => abandonWords (endCur s (b / 4) c 5) (b / 4) c) s)

/-- The channel's request is over: its entries up to EOP that are still to come belong to it. -/
def closeReq (ch : Chan) (cause : Nat) : Chan :=
  { ch with
    cur := none
    lastEnd := cause
    gPhase := if ch.gPhase = 3 ∨ ch.gPhase = 4 then ch.gPhase else 0
    reqs := match ch.reqs with
      | [] => []
      | r :: l => if r.eop then l else { r with closed := [], open_ := [], toks := [], bad := 9 } :: l }

/-- The final record of a channel's request (R29, R368, R570), if its ring can take it; a ring that is disabled, or whose
endpoint is down, gets none. None while the record must wait. -/
def finalRecord (h c : Nat) (s : State) : Option State :=
  let ch := getCh s h c
  match ch.cur with
  | none => none
  | some u =>
    let flush := broken (bitAt ch.cfg 31) u.held
    if !ringEn ch || !(sget {} s.ends (ch.board / 4)).up then some (modCh s h c (fun ch => closeReq ch u.cause))
    else
      let s1 := flushOut h c s
      let ch1 := getCh s1 h c
      if !((ch1.cur.map (fun u => u.out.isEmpty)).getD true) || !cplFree ch1 || !vfMaster s ch.board then none
      else
        let tag := (ch1.reqs.head?.map (·.tag)).getD 0
        some (modCh (writeCpl s1 h c 2 u.cause tag u.issued u.returned flush) h c (fun ch => closeReq ch u.cause))

/-- FINAL_COMPLETION (R29): once every word is returned or abandoned. -/
def finalCompletion (h c : Nat) (s : State) : Option State :=
  match (getCh s h c).cur with
  | some u => if u.cause ≠ 0 ∧ u.fly = [] ∧ lexOn s h ∧ edgeRuns s then finalRecord h c s else none
  | none => none

/-! ### Rings -/

/-- RING_ENABLE (R572): EN set; indices and PHASE are reset when it was clear. [DEDUCED log 41] -/
def ringEnable (h c : Nat) (v : Word) (s : State) : State :=
  let ch := getCh s h c
  let ctl := packW [(31, 1, 1), (0, 10, fld v 0 10)]
  let ch1 := { ch with ring := sset 0 ch.ring 0 ctl }
  { setCh s h c (if ringEn ch then ch1 else
      { ch1 with txtHead := 0, txtProd := 0, cplTail := 0, cplCons := 0, phase := true }) with resp := .done }

/-- RING_DISABLE (R572): EN cleared, unless the channel is neither IDLE nor UNBOUND. -/
def ringDisable (h c : Nat) (v : Word) (s : State) : State :=
  let ch := getCh s h c
  if ringEn ch && chanState ch != 0 && chanState ch != 4 then { s with resp := .ignored }
  else { setCh s h c { ch with ring := sset 0 ch.ring 0 (packW [(0, 10, fld v 0 10)]) } with resp := .done }

/-- TXT_DB (R567). -/
def txtDb (h c : Nat) (v : Word) (s : State) : State :=
  let ch := getCh s h c
  let p := fld v 0 16
  if !ringEn ch || decide (2 ^ txtLog2 ch < (p + 65536 - ch.txtHead) % 65536) then
    { setCh s h c { ch with dbErr := true } with resp := .ignored }
  else { setCh s h c { ch with txtProd := p } with resp := .done }

/-- CPL_DB (R571): records that waited for a slot are written (R32). -/
def cplDb (h c : Nat) (v : Word) (s : State) : State :=
  let ch := getCh s h c
  let p := fld v 0 16
  if !ringEn ch || decide (2 ^ cplLog2 ch < (ch.cplTail + 65536 - p) % 65536) then
    { setCh s h c { ch with dbErr := true } with resp := .ignored }
  else { flushOut h c (setCh s h c { ch with cplCons := p }) with resp := .done }

/-- The open request of a channel: the last one, if its EOP has not been fetched. -/
def openReq (ch : Chan) : Option Req :=
  match ch.reqs.getLast? with
  | some r => if r.eop then none else some r
  | none => none

/-- A channel's last request is replaced. -/
def setLast (ch : Chan) (r : Req) : Chan := { ch with reqs := ch.reqs.dropLast ++ [r] }

/-- Does the open request's place in the list carry the admitted request? -/
def lastIsCur (ch : Chan) : Bool := ch.cur.isSome && ch.reqs.length == 1

/-- The request to which the next entry belongs ends with ABORT: at once if it is admitted, else at its turn. [DEDUCED log 40] -/
def spoilLast (s : State) (h c : Nat) : State :=
  let ch := getCh s h c
  match ch.reqs.getLast? with
  | none => s
  | some r =>
    if r.bad = 9 then s
    else
      let s1 := setCh s h c (setLast ch { r with closed := [], open_ := [], toks := [], bad := 5 })
      if lastIsCur ch then endCur s1 h c 5 else s1

/-- Are entries of the channel fetched (R568, R422, R309)? While a drain waits for the current request, only that request's. -/
def fetching (s : State) (h c : Nat) : Bool :=
  let ch := getCh s h c
  let bd := getBd s ch.board
  ch.en && ch.bound && ringEn ch && bd.st == .running && !bd.smDeclared && lexOn s h && edgeRuns s
    && vfMaster s ch.board && ch.txtHead != ch.txtProd
    && (!(bd.drainPending || bd.drain.isSome) || ((openReq ch).isSome && lastIsCur ch))

/-- Words of 4 bytes. -/
def wordsLE : List Byte → List Nat
  | a :: b :: c :: d :: r => ofBytesLE [a, b, c, d] :: wordsLE r
  | _ => []

/-- The end of prompt closes the open pre-token. -/
def closeOpen (op : List Byte) (cl : List PreTok) : List PreTok := if op.isEmpty then cl else cl ++ [.text op]

/-- A prompt that is whole and has made no token (R363). -/
def emptyReq (r : Req) : Bool := r.eop && r.closed.isEmpty && r.open_.isEmpty && r.toks.isEmpty && r.made == 0 && r.bad == 0

/-- The admitted request's prompt yields no token and it has issued no word: CANCEL and EMPTY_PROMPT (R363). -/
def emptyCheck (h c : Nat) (s : State) : State :=
  let ch := getCh s h c
  match ch.cur, ch.reqs with
  | some u, r :: _ =>
    if u.cause = 0 ∧ u.issued = 0 ∧ emptyReq r then
      modCh (endCur s h c 4) h c (fun ch => { ch with emptyPrompt := true })
    else s
  | _, _ => s

/-- An entry's data passes through its channel's text buffer, 24 KiB at a time from the buffer's start (R353). [DESIGN CHOICE log 130] -/
def textPut (c : Nat) (data : List Byte) (e : Hed) : Hed :=
  hedPut (hedPut (hedPut e (0x6000 * c) (data.take 0x6000)) (0x6000 * c) ((data.drop 0x6000).take 0x6000))
    (0x6000 * c) (data.drop 0xC000)

/-- RING_ENTRY_FETCHED (R566, R567, R358, R359): the next entry and its data. [DESIGN CHOICE log 110] -/
def entryFetched (h c : Nat) (entry data : List Byte) (s : State) : Option State :=
  let ch := getCh s h c
  let lenW := ofBytesLE ((entry.drop 8).take 4)
  let flags := ofBytesLE ((entry.drop 12).take 4)
  let len := lenW % 65536
  if !fetching s h c || entry.length ≠ 16 || data.length ≠ len then none
  else
    let eop := flags.testBit 0
    let isTok := flags.testBit 1
    let nums := wordsLE data
    let bad := decide (65536 ≤ lenW) || nfld flags 2 14 != 0 || (isTok && (len % 4 != 0 || nums.any (fun n => decide (2 ^ 22 ≤ n))))
    let fresh := (openReq ch).isNone
    let ch1 := { ch with
      txtHead := (ch.txtHead + 1) % 65536
      reqs := if fresh then ch.reqs ++ [{ tag := nfld flags 16 16, order := (getHed s h).fetchNo }] else ch.reqs }
    let s1 := modHed (setCh s h c ch1) h (fun e => textPut c data (if fresh then { e with fetchNo := e.fetchNo + 1 } else e))
    let r := (ch1.reqs.getLast?).getD {}
    let fin := fun (s : State) =>
      emptyCheck h c (modCh s h c (fun ch => match ch.reqs.getLast? with
        | some r => if r.bad = 9 && eop then { ch with reqs := ch.reqs.dropLast } else setLast ch { r with eop := eop }
        | none => ch))
    if r.bad ≠ 0 then some (fin s1)
    else if bad then some (fin (spoilLast (modCh s1 h c (fun ch => { ch with entryErr := true })) h c))
    else if isTok then
      match nums.find? (fun n => decide (ch.vsize ≤ n)) with
      | some n => some (fin (raiseBoard (spoilLast s1 h c) fTOKEN_RETURN ch.board (BitVec.ofNat 32 n)))
      | none =>
        let cl := closeOpen r.open_ r.closed ++ nums.map PreTok.tok
        some (fin (setCh s1 h c (setLast ch1 { r with closed := cl, open_ := [] })))
    else
      let src := vocab h ch
      let (a, cl, op) := splitGo s src (trStart s src) r.open_ r.closed data
      let (op1, cl1) := closeFull op cl
      let s2 := trEnd s1 src a ch.board
      if a.ded then some (fin (raiseBoard (spoilLast s2 h c) fLEXICON ch.board (BitVec.ofNat 32 c)))
      else
        let r1 := if eop then { r with closed := closeOpen op1 cl1, open_ := [] } else { r with closed := cl1, open_ := op1 }
        some (fin (modCh s2 h c (fun ch => setLast ch r1)))

/-- A ring entry's or its text's DMA read fails (R565): the request being fetched ends with ABORT; the entry has not been read. [DEDUCED log 40] -/
def ringReadFailed (h c : Nat) (s : State) : Option State :=
  let ch := getCh s h c
  if !fetching s h c then none
  else
    let s1 := modCh s h c (fun ch => { ch with fetchErr := true })
    let s2 := if (openReq ch).isSome then spoilLast s1 h c else s1
    some (raiseBoard s2 fHOST_DMA ch.board (BitVec.ofNat 32 c))

/-! ### Encoding and admission -/

/-- The word a channel's request has to issue: token, SAMPLE, and whether it is fed back (R19, R22, R32). A prompt token that
may be the last one waits until that is known. -/
def nextWord (ch : Chan) : Option (Nat × Bool × Bool) :=
  match ch.cur, ch.reqs with
  | some u, r :: _ =>
    if u.cause ≠ 0 then none
    else match u.feedback with
      | some t => if u.out.isEmpty then some (t, true, true) else none
      | none =>
        if u.promptDone then none
        else match r.toks with
          | [] => none
          | [t] => if r.eop && r.closed.isEmpty && r.open_.isEmpty then some (t, true, false) else none
          | t :: _ :: _ => some (t, false, false)
  | _, _ => none

/-- May the word that channel c has to issue go now (R19, R27, R364)? -/
def canIssue (s : State) (h c : Nat) : Bool :=
  let ch := getCh s h c
  let bd := getBd s ch.board
  (nextWord ch).isSome && ch.en && bd.st == .running && !bd.smDeclared && lexOn s h && edgeRuns s
    && decide ((ch.cur.map (fun u => u.fly.length)).getD 128 < 128)
    && decide ((sget [] (getMed s ch.inMed).inj (slotKey ch.inCol ch.inLane ch.inSlot)).length < 16)

/-- Step 5 of R24 is still to be done for the return that board b took last: its feedback word is not issued (R366). -/
def feedbackWaits (s : State) (b : Nat) : Bool :=
  (curChans s b).any (fun c => (getCh s (b / 4) c).cur.any (fun u => u.feedback.isSome))

/-- Work of the first priority of R372 waits in the HED: a return that can be taken, or a feedback word that can be issued. [DEDUCED log 40] -/
def returnWaits (s : State) (h : Nat) : Bool :=
  (List.range 4).any (fun i => egrCount (getHed s h) (4 * h + i) != 0 && (getBd s (4 * h + i)).st != .undefined
    && !feedbackWaits s (4 * h + i))
  || (List.range 8).any (fun c => (getCh s h c).cur.any (fun u => u.feedback.isSome) && canIssue s h c)

/-- The position of the first request of a channel that has a closed pre-token. -/
def encReq (ch : Chan) : Option Nat := ch.reqs.findIdx? (fun r => !r.closed.isEmpty)

/-- The channel that the encoder serves next (R372). -/
def encNext (s : State) (h : Nat) : Option Nat :=
  ((List.range 8).map (fun i => ((getHed s h).encPtr + i) % 8)).find? (fun c =>
    let ch := getCh s h c
    ch.bound && (encReq ch).isSome)

/-- ENCODE_PRETOKEN (R361, R362, R372): the next channel's first closed pre-token becomes tokens. -/
def encodePretoken (h c : Nat) (s : State) : Option State :=
  let ch := getCh s h c
  if !lexOn s h || !edgeRuns s || returnWaits s h || encNext s h != some c then none
  else match encReq ch with
    | none => none
    | some i =>
      match ch.reqs[i]? with
      | none => none
      | some r =>
        match r.closed with
        | [] => none
        | p :: l =>
          let put := fun (s : State) (ts : List Nat) =>
            let r1 := { r with closed := l, toks := r.toks ++ ts, made := r.made + ts.length }
            emptyCheck h c (modHed (modCh s h c (fun ch =>
              { ch with reqs := ch.reqs.set i r1, tok := evAdd ch.tok ts.length })) h (fun e => { e with encPtr := (c + 1) % 8 }))
          match p with
          | .tok n => some (put s [n])
          | .text bs =>
            let src := vocab h ch
            let (a, ts) := encodeText s src ch.alg bs
            let s1 := trEnd s src a ch.board
            if a.ded then
              let s2 := modCh s1 h c (fun ch => { ch with
                reqs := ch.reqs.set i { r with closed := [], open_ := [], toks := [], bad := 5 } })
              let s3 := if i = 0 then endCur s2 h c 5 else s2
              some (raiseBoard s3 fLEXICON ch.board (BitVec.ofNat 32 c))
            else some (put s1 ts)

/-- The request of a channel that may be admitted: its first one that has not ended. -/
def waitingReq (ch : Chan) : Option Req :=
  if ch.cur.isSome then none else match ch.reqs with
    | r :: _ => if r.bad = 9 then none else some r
    | [] => none

/-- ADMIT_REQUEST (R26, R370, R378): the board's oldest fetched request starts, once no other is admitted. [DEDUCED log 42] -/
def admitReq (h c : Nat) (s : State) : Option State :=
  let ch := getCh s h c
  let bd := getBd s ch.board
  let mine := (List.range 8).filter (fun k => let q := getCh s h k; q.en && q.bound && q.board == ch.board)
  match waitingReq ch with
  | none => none
  | some r =>
    if !lexOn s h || !edgeRuns s || !ch.en || !ch.bound || bd.st != .running || bd.drainPending || bd.drain.isSome || bd.smDeclared
        || mine.any (fun k => (getCh s h k).cur.isSome)
        || mine.any (fun k => (waitingReq (getCh s h k)).any (fun q => decide (q.order < r.order))) then none
    else
      let gram := ch.gBound && ch.gEnable
      let u : Cur := { limit := ch.limit, grammar := gram, cause := r.bad }
      let ch1 := { ch with cur := some u }
      let ch2 := if gram then { ch1 with gState := ch.gStart, gStack := [], gPhase := 0 } else { ch1 with gPhase := 0 }
      let s1 := setCh s h c ch2
      if bitAt ch.cfg 29 && r.bad == 0 then
        let src := vocab h ch
        let (a, t) := tabRead s src (trStart s src) 0x10 4
        let s2 := trEnd s1 src a ch.board
        if a.ded then some (raiseBoard (endCur s2 h c 5) fLEXICON ch.board (BitVec.ofNat 32 c))
        else some (modCh s2 h c (fun ch => { ch with reqs := match ch.reqs with
          | q :: l => { q with toks := t :: q.toks } :: l
          | [] => [] }))
      else some (emptyCheck h c s1)

/-! ### Masks -/

/-- A mask's bits as words 0 to w − 1. -/
def maskWords (w m : Nat) : List Word := (List.range w).map (fun i => BitVec.ofNat 32 (m >>> (32 * i)))

/-- The walker begins a mask for a SAMPLE word of channel c (R377, R384, R386); the open mask where no grammar constrains the
request. [DESIGN CHOICE log 39] -/
def maskBegin (h c : Nat) (seq : Option Nat) (s : State) : State :=
  let ch := getCh s h c
  let bd := getBd s ch.board
  if !bd.maskOn then s
  else
    let all := 2 ^ ch.vsize - 1
    let gram := (ch.cur.map (·.grammar)).getD false
    let src := gramSrc ch
    let stops := ch.stops.foldl (fun m t => m ||| 2 ^ t) 0
    let (a, m) := if gram then gMask s src stops (trStart s src) ch.gState ch.gStack 0 else (trStart s src, all)
    let s1 := if gram then trEnd s src a ch.board else s
    if a.ded then raiseBoard (endCur s1 h c 5) fLEXICON ch.board (BitVec.ofNat 32 c)
    else
      let v := m &&& all
      let run : MaskRun := ⟨c, seq, maskWords bd.maskW v, popWords bd.maskW v, 0⟩
      modCh (modBd s1 ch.board (fun bd => { bd with maskQ := bd.maskQ ++ [run] })) h c (fun ch => { ch with gPhase := 1 })

/-- Flit i of a mask (R385). [DESIGN CHOICE log 39] -/
def maskFlit (k : MaskRun) (seq i : Nat) : Flit :=
  if i = 0 then { data := packW [(24, 8, seq)] }
  else if i ≤ k.bits.length then { data := (k.bits[i - 1]?).getD 0 }
  else { data := packW [(0, 23, k.permitted)], eom := true }

/-- MASK_FLITS_WRITE (R385-R387): up to 8 flits of the board's oldest mask, within ROOM. -/
def maskWrite (h c : Nat) (s : State) : Option State :=
  let ch := getCh s h c
  let bd := getBd s ch.board
  match bd.maskQ with
  | [] => none
  | k :: r =>
    let key := slotKey bd.maskCol bd.maskLane bd.maskSlot
    let room := 16 - (sget [] (getMed s bd.maskMed).inj key).length
    let seq := match k.seq with
      | some q => some q
      | none => firstSeq ch
    match seq with
    | none => none
    | some q =>
      let left := bd.maskW + 2 - k.sent
      let n := min 8 (min room left)
      if !ch.en || k.chan ≠ c || n = 0 || bd.smDeclared || !lexOn s h || !edgeRuns s then none
      else
        let fs := (List.range n).map (fun i => maskFlit k q (k.sent + i))
        let s1 := (injectInto bd.maskMed key ch.board fs s).1
        if n = left then
          some (modCh (modBd s1 ch.board (fun bd => { bd with maskQ := r })) h c (fun ch =>
            { ch with masks := evAdd ch.masks 1, gPhase := if ch.gPhase = 1 && r.isEmpty then 2 else ch.gPhase }))
        else some (modBd s1 ch.board (fun bd => { bd with maskQ := { k with seq := some q, sent := k.sent + n } :: r }))

/-! ### Words and returns -/

/-- A token word (R21). -/
def tokenWord (seq : Nat) (sample first : Bool) (tok : Nat) : Word :=
  packW [(24, 8, seq), (23, 1, b2n sample), (22, 1, b2n first), (0, 22, tok)]

/-- ISSUE_WORD (R21, R22, R27, R364): the next word enters the INJECT store of the ingress channel. -/
def issueWord (h c : Nat) (s : State) : Option State :=
  let ch := getCh s h c
  let b := ch.board
  match nextWord ch, ch.cur with
  | some (tok, sample, fed), some u =>
    let key := slotKey ch.inCol ch.inLane ch.inSlot
    if !canIssue s h c then none
    else
      let arm := armed s b
      let seq := u.nextSeq
      let first := u.issued == 0
      let s1 := (injectInto ch.inMed key b [{ data := tokenWord seq sample first tok }] s).1
      let u1 := { u with
        issued := u.issued + 1
        fly := u.fly ++ [(seq, sample)]
        nextSeq := (seq + 1) % 256
        promptDone := u.promptDone || sample
        feedback := none
        fed := if fed then u.fed + 1 else u.fed }
      let s2 := modCh s1 h c (fun ch => { ch with
        cur := some u1
        reqs := if fed then ch.reqs else match ch.reqs with
          | r :: l => { r with toks := r.toks.drop 1 } :: l
          | [] => [] })
      let s3 := modBd s2 b (fun bd => { bd with
        words := evAdd bd.words 1
        samples := if sample then evAdd bd.samples 1 else bd.samples
        maskQ := if sample then bd.maskQ.map (fun k => if k.chan = c ∧ k.seq = none then { k with seq := some seq } else k)
          else bd.maskQ })
      let s4 := if first then maskBegin h c (if sample then some seq else none) s3 else s3
      some (armNotice arm b s4)
  | _, _ => none

/-- A mismatch (R30): the request ends with ABORT, and the board raises FAULT_TOKEN_RETURN. -/
def mismatch (s : State) (h c b : Nat) (payload : Word) : State := raiseBoard (endCur s h c 5) fTOKEN_RETURN b payload

/-- The oldest word in flight counts as returned. -/
def countReturn (s : State) (h c : Nat) : State :=
  modCh s h c (fun ch => { ch with cur := ch.cur.map (fun u => { u with fly := u.fly.drop 1, returned := u.returned + 1 }) })

/-- A DRAM word that cannot be corrected ends the request with ABORT, and the board raises FAULT_LEXICON. -/
def lexFault (h c b : Nat) (s : State) : State := raiseBoard (endCur s h c 5) fLEXICON b (BitVec.ofNat 32 c)

/-- The ends of step 4 of R24, or step 5. -/
def chosenAct (h c t q : Nat) (u : Cur) (stop fin : Bool) (s : State) : State :=
  if stop then endCur s h c 1
  else if u.limit ≤ u.fed then endCur s h c 2
  else if fin then modCh (endCur s h c 3) h c (fun ch => { ch with gPhase := 3 })
  else
    maskBegin h c (some ((q + 1) % 256)) (modCh s h c (fun ch => { ch with
      cur := ch.cur.map (fun u => { u with feedback := some t, nextSeq := (q + 1) % 256 }) }))

/-- Step 4 of R24: does the grammar end here? -/
def chosenEnd (h c t q : Nat) (ch : Chan) (u : Cur) (stop : Bool) (q' : Nat) (st' : List Nat) (s : State) : State :=
  let gs := gramSrc ch
  let r := if u.grammar then gFinished s gs (trStart s gs) q' st' else (trStart s gs, false)
  let s1 := if u.grammar then trEnd s gs r.1 ch.board else s
  if r.1.ded then lexFault h c ch.board s1 else chosenAct h c t q u stop r.2 s1

/-- Step 3 of R24: the token's text. -/
def chosenText (h c t q : Nat) (ch : Chan) (u : Cur) (q' : Nat) (st' : List Nat) (s : State) : State :=
  let stop := ch.stops.contains t
  let vs := vocab h ch
  let r := if stop && !bitAt ch.cfg 30 then (trStart s vs, []) else tokString s vs (trStart s vs) t
  let s1 := trEnd s vs r.1 ch.board
  if r.1.ded then lexFault h c ch.board s1
  else
    let d := detok (bitAt ch.cfg 31) u.held r.2
    chosenEnd h c t q ch u stop q' st' (flushOut h c (modCh s1 h c (fun ch => { ch with
      cur := ch.cur.map (fun u => { u with out := u.out ++ d.1, held := d.2 }) })))

/-- Steps 2 to 5 of R24 for the chosen token t of a matching return with SEQ q. -/
def chosen (h c t q : Nat) (s : State) : State :=
  let ch := getCh s h c
  match ch.cur with
  | none => s
  | some u =>
    let gs := gramSrc ch
    let r := if u.grammar then advance s gs ch.stops t ch.gState (trStart s gs) ch.gState ch.gStack
      else (trStart s gs, Adv.ok ch.gState ch.gStack)
    let s1 := if u.grammar then trEnd s gs r.1 ch.board else s
    if r.1.ded then lexFault h c ch.board s1
    else match r.2 with
      | .reject cause =>
        let s2 := modCh (endCur s1 h c 5) h c (fun ch => { ch with
          gPhase := 4, gCause := cause, gRejV := true, gRej := t })
        raiseBoard s2 fGRAMMAR ch.board (BitVec.ofNat 32 c)
      | .ok q' st' => chosenText h c t q ch u q' st' (modCh s1 h c (fun ch => { ch with gState := q', gStack := st' }))

/-- A return to a request whose end cause stands (R31): the oldest word in flight counts as returned. With no word in flight the
record is discarded if words of the board have been abandoned (R309), and matches none otherwise (R365). [DESIGN CHOICE log 129] -/
def lateReturn (s : State) (h c b : Nat) (u : Cur) (f : Flit) : State :=
  let bd := getBd s b
  if u.fly.isEmpty then
    (if bd.abandonedWords || bd.smDeclared then s else raiseBoard s fTOKEN_RETURN b f.data)
  else countReturn (if f.null then s else modCh s h c (fun ch => { ch with gen := evAdd ch.gen 1 })) h c

/-- RETURN_TAKE (R24, R365, R366): the Lexicon unit takes the oldest record of board b's egress queue, once the steps of the return
before it are complete. A null return counts the oldest word as returned even where it does not match; the word of a
non-null return that does not match stays in flight until it is abandoned. [DESIGN CHOICE log 129] -/
def returnTake (b : Nat) (s : State) : Option State :=
  let h := b / 4
  let e := getHed s h
  if !lexOn s h || !edgeRuns s || egrCount e b = 0 || feedbackWaits s b then none
  else
    let cons := egrCons e b
    let f := recFlit (readLE e.sram (egrBase b + 8 * (cons % 256)) 8)
    let s1 := setHed s h (hedPut e (egrBase b + 0x840) (bytesLE 4 (cons + 1)))
    let bd := getBd s b
    let arm := armed s b
    match curChans s b with
    | [] =>
      some (if (bd.st == .running || bd.st == .draining) && !bd.abandonedWords && !bd.smDeclared then
          raiseBoard s1 fTOKEN_RETURN b f.data
        else s1)
    | c :: _ =>
      match (getCh s h c).cur with
      | none => some s1
      | some u =>
        if u.cause ≠ 0 then some (armNotice arm b (lateReturn s1 h c b u f))
        else
          let s2 := if f.null then s1 else modCh s1 h c (fun ch => { ch with gen := evAdd ch.gen 1 })
          match u.fly with
          | [] => some (mismatch s2 h c b f.data)
          | (seq, sample) :: _ =>
            let t := fld f.data 0 22
            if f.null then
              (let s3 := countReturn s2 h c
               some (armNotice arm b (if sample then mismatch s3 h c b f.data else s3)))
            else if !sample || fld f.data 24 8 ≠ seq || (getCh s h c).vsize ≤ t then some (mismatch s2 h c b f.data)
            else some (armNotice arm b (chosen h c t seq (countReturn s2 h c)))

/-- CANCEL (R371): a write of HEDn_LX_Cc_CTL with CANCEL set; LIMIT is written with it. -/
def cancel (h c : Nat) (v : Word) (s : State) : State :=
  { endCur (modCh s h c (fun ch => { ch with limit := fld v 0 24 })) h c 4 with resp := .done }

/-- HOLDOFF_EXPIRY (R574). [DESIGN CHOICE log 8] -/
def holdoffExpiry (h c : Nat) (s : State) : Option State :=
  let ch := getCh s h c
  if !ch.hold then none
  else if ch.holdPend then some (signal (setCh s h c { ch with holdPend := false }) (vfIx ch.board) 1)
  else some (setCh s h c { ch with hold := false })

/-- A write of SSEL (R391). -/
def gwSsel (h c : Nat) (v : Word) (s : State) : State :=
  let ch := getCh s h c
  let p := fld v 0 6
  let n := ch.gStack.length
  { setCh s h c { ch with
      ssel := BitVec.ofNat 32 p
      sdata := if p < n then packW [(31, 1, 1), (0, 12, (ch.gStack[n - 1 - p]?).getD 0)] else 0 } with resp := .done }

/-! ### Rows -/

/-- TXT_DB (R567): the doorbells lie in the VF's pages alone. -/
def execTxtDb (f : Fn) (h : Fin 4) (c : Fin 8) (v : Word) (s : State) : Host.Outcome State Fault Refusal :=
  reply s (access s f .other false (!isPf f && chanOk s f h c) true (12 + h) (txtDb h c v s))

/-- CPL_DB (R571). -/
def execCplDb (f : Fn) (h : Fin 4) (c : Fin 8) (v : Word) (s : State) : Host.Outcome State Fault Refusal :=
  reply s (access s f .other false (!isPf f && chanOk s f h c) true (12 + h) (cplDb h c v s))

/-- RING_ENABLE (R572). -/
def execRingEnable (f : Fn) (h : Fin 4) (c : Fin 8) (v : Word) (s : State) : Host.Outcome State Fault Refusal :=
  reply s (access s f .other false (chanOk s f h c) true (12 + h) (ringEnable h c v s))

/-- RING_DISABLE (R572). -/
def execRingDisable (f : Fn) (h : Fin 4) (c : Fin 8) (v : Word) (s : State) : Host.Outcome State Fault Refusal :=
  reply s (access s f .other false (chanOk s f h c) true (12 + h) (ringDisable h c v s))

/-- CANCEL (R371). -/
def execCancel (f : Fn) (h : Fin 4) (c : Fin 8) (v : Word) (s : State) : Host.Outcome State Fault Refusal :=
  reply s (access s f .other false (chanOk s f h c) (lexOn s h) (12 + h) (cancel h c v s))

/-- GW_SSEL (R391). -/
def execGwSsel (f : Fn) (h : Fin 4) (c : Fin 8) (v : Word) (s : State) : Host.Outcome State Fault Refusal :=
  reply s (access s f .other false (chanOk s f h c) (lexOn s h) (12 + h) (gwSsel h c v s))

/-- RING_ENTRY_FETCHED (R567). -/
def execRingEntryFetched (h : Fin 4) (c : Fin 8) (entry data : List Byte) (s : State) : Host.Outcome State Fault Refusal :=
  answer s (entryFetched h c entry data s)

/-- ENCODE_PRETOKEN (R361). -/
def execEncodePretoken (h : Fin 4) (c : Fin 8) (s : State) : Host.Outcome State Fault Refusal :=
  answer s (encodePretoken h c s)

/-- ADMIT_REQUEST (R26). -/
def execAdmitRequest (h : Fin 4) (c : Fin 8) (s : State) : Host.Outcome State Fault Refusal := answer s (admitReq h c s)

/-- ISSUE_WORD (R364). -/
def execIssueWord (h : Fin 4) (c : Fin 8) (s : State) : Host.Outcome State Fault Refusal := answer s (issueWord h c s)

/-- MASK_FLITS_WRITE (R387). -/
def execMaskFlitsWrite (h : Fin 4) (c : Fin 8) (s : State) : Host.Outcome State Fault Refusal := answer s (maskWrite h c s)

/-- RETURN_TAKE (R24). -/
def execReturnTake (b : Fin 16) (s : State) : Host.Outcome State Fault Refusal := answer s (returnTake b s)

/-- FINAL_COMPLETION (R29). -/
def execFinalCompletion (h : Fin 4) (c : Fin 8) (s : State) : Host.Outcome State Fault Refusal :=
  answer s (finalCompletion h c s)

/-- HOLDOFF_EXPIRY (R574). -/
def execHoldoffExpiry (h : Fin 4) (c : Fin 8) (s : State) : Host.Outcome State Fault Refusal :=
  answerRun s (holdoffExpiry h c s)

end Sys2Proof.Machine
end

