-- ==== Sys2Proof/Machine/Board.lean ====
section
/-! DEFINITION. Board sequences: commands, start, drain, quiescence, stalemate, reset, and what a fault does to a board (R299,
R306-R311, R413-R435, R432, R618). -/
namespace Sys2Proof.Machine

/-! ### Places of a board -/

/-- The fields that a board's rectangle meets. -/
def boardFields (bd : Board) : List Nat :=
  (List.range 84).filter (fun f =>
    decide (bd.x0 / 92 ≤ f % 12 ∧ f % 12 ≤ bd.x1 / 92 ∧ bd.y0 / 80 ≤ f / 12 ∧ f / 12 ≤ bd.y1 / 80))

/-- The detector's field: that of the board's north-west brick (R307). -/
def detField (bd : Board) : Nat := fieldOf bd.x0 bd.y0

/-- Does a column and end of the array face the board? -/
def facesBoard (bd : Board) (x : Nat) (south : Bool) : Bool := inRect bd x (if south then 559 else 0)

/-- A brick at its place in a list of rising y, and rising x within a row. -/
def placeInOrder (p : Nat × Nat × Nat) : List (Nat × Nat × Nat) → List (Nat × Nat × Nat)
  | [] => [p]
  | q :: r => if 1104 * p.2.1 + p.1 ≤ 1104 * q.2.1 + q.1 then p :: q :: r else q :: placeInOrder p r

/-- The bricks of a board in order of rising y, and of rising x within a row. -/
def bricksInOrder (s : State) (b : Nat) : List (Nat × Nat × Nat) :=
  (boardBricks s b).foldr placeInOrder []

/-- A board's schedule entries are keyed 8·board + entry. -/
def brdEntKey (b e : Nat) : Nat := 8 * b + e

/-! ### Commands -/

/-- A command that R416 ignores. -/
def ignoreCmd (s : State) (b : Nat) : State := { modBd s b (fun bd => { bd with cmdIgnored := true }) with resp := .ignored }

/-- A BRD_CTL command through a function: permitted for the PF, the Steward and the board's VF; ignored after a power stop. -/
def brdCommand (s : State) (f : Fn) (b : Nat) (r : State) : Option State :=
  access s f .other false (reaches f b) true 12 (if s.pwr.stopped then ignoreCmd s b else r)

/-- The refusal registers (R412): written by a refused attempt, VALID clear after a load. -/
def setRefusal (bd : Board) (a b c d : Word) : Board :=
  { bd with regs := sset 0 (sset 0 (sset 0 (sset 0 bd.regs 0x400 a) 0x404 b) 0x408 c) 0x40C d }

/-! ### Maps at the start of a load -/

/-- Does a board's rectangle meet segment key k? -/
def meetsSeg (bd : Board) (k : Nat) : Bool :=
  decide (bd.x0 / 92 ≤ k / 560 ∧ k / 560 ≤ bd.x1 / 92 ∧ bd.y0 ≤ k % 560 ∧ k % 560 ≤ bd.y1)

/-- A board is unloaded (R415). -/
def unloaded (bd : Board) : Bool := bd.st == .undefined || bd.st == .empty

/-- Every pending map that R40 allows at a load of board b is applied. -/
def applyMaps (s : State) (b : Nat) : State :=
  { s with segs := s.segs.map (fun p =>
      if p.2.pending && s.boards.all (fun q => q.1 == b || unloaded q.2 || !meetsSeg q.2 p.1) then
        (p.1, { p.2 with mapDef := segDefects p.2, pending := false })
      else p) }

/-- LOAD (R416-R418). -/
def loadCmd (f : Fn) (b : Nat) (s : State) : State :=
  let bd := getBd s b
  match bd.st with
  | .undefined => ignoreCmd s b
  | .empty =>
    let s1 := applyMaps s b
    { setBd s1 b { bd with
        st := .loading
        loadPass := 1
        loadFn := fnIx f
        loadArgs := [0x20, 0x24, 0x28, 0x2C, 0x30].map (fun o => sget 0 bd.regs o)
        progBytes := 0
        progPass := false } with resp := .done }
  | _ => { setBd s b (setRefusal bd (packW [(0, 8, 1), (8, 8, 0xFF), (31, 1, 1)]) 0 0 0) with resp := .done }

/-! ### Start -/

/-- A start: Ts is fixed, and each field starts its bricks at Ts; the home piece tells the others (R421, R429). [DEDUCED log 43, DEDUCED log 58] -/
def startGo (b ts : Nat) (s : State) : State :=
  let s1 := modBd s b (fun bd => { bd with startTs := ts % 2 ^ 64, startPending := true, streamsToo := false, fields := [] })
  let bd := getBd s1 b
  if multi bd && bd.home then sendAll s1 b nSTART 0 0 0 0 else s1

/-- START (R416, R421). -/
def startCmd (b : Nat) (s : State) : State :=
  let bd := getBd s b
  if bd.st == .loaded && bd.assembled && bd.home then { startGo b (s.now + 8) s with resp := .done } else ignoreCmd s b

/-- A LOADED brick becomes RUNNING in tcyc t; its contexts with START = 0 begin, those with START = 1 are held unless `all`. [DEDUCED log 77] -/
def startBrick (t : Nat) (all : Bool) (b : Brick) : Brick :=
  let b1 := (List.range 4).foldl (fun b k =>
    let c := cfgW b (0x600 + 4 * k)
    if !bitAt c 31 then b
    else if fld c 29 2 = 0 ∨ all then beginCtx b k
    else setCtx b k { phase := .held }) b
  if b1.useT < t then { b1 with st := .running, useT := t, used := [] } else { b1 with st := .running }

/-! ### Drain -/

/-- Flags of a DRAIN notice (R600). -/
def drainFlags (hard abort final : Bool) : Nat := b2n hard + 2 * b2n abort + 4 * b2n final

/-- A hard drain ends the current request: CANCEL, or ABORT after a fault, whose words in flight are abandoned (R422, R613). -/
def hardEnd (abort : Bool) (b : Nat) (s : State) : State :=
  if abort then abortBoard s b
  else (curChans s b).foldl (fun s c => endCur s (b / 4) c 4) s

/-- A drain begins, or becomes hard, or becomes one with ABORT (R422, R430-R432). -/
def startDrain (b : Nat) (hard abort : Bool) (s : State) : State :=
  let bd := getBd s b
  match bd.drain with
  | none =>
    let s1 := setBd s b { bd with drain := some ⟨hard, abort, 1⟩, drainPending := !hard }
    let s2 := if hard then hardEnd abort b s1 else s1
    if multi bd && bd.home then sendAll s2 b nDRAIN (drainFlags hard abort false) 0 0 0 else s2
  | some d =>
    let d1 : Drain := { d with hard := d.hard || hard, abort := d.abort || abort }
    if d1 = d then s
    else
      let s1 := setBd s b { bd with drain := some d1, drainPending := bd.drainPending && !d1.hard }
      let s2 := if d1.hard then hardEnd d1.abort b s1 else s1
      let s3 := if d.step = 2 ∧ d1.abort then closeSlots s2 b false else s2
      if multi bd && bd.home then sendAll s3 b nDRAIN (drainFlags d1.hard d1.abort false) 0 0 0 else s3

/-- FIELD_START (R421): step 2 in one field of the board, at the first tcyc at or past Ts. A drain held with the start begins
once every field has started (R430). [DEDUCED log 43, DEDUCED log 59] -/
def fieldStart (b f t : Nat) (s : State) : Option State :=
  let bd := getBd s b
  if !bd.startPending || !(boardFields bd).contains f || bd.fields.contains f || decide (s.now < bd.startTs) || !clkRuns s f then none
  else
    let s1 := (boardBricks s b).foldl (fun s p =>
      if fieldOf p.1 p.2.1 = f ∧ (getB s p.2.2).st = .loaded then modB s p.2.2 (startBrick t bd.streamsToo) else s) s
    let done := f :: bd.fields
    let more := (boardFields bd).any (fun g => !done.contains g)
    let s2 := setBd s1 b { bd with
      st := .running
      fields := done
      startPending := more
      heldDrain := if more then bd.heldDrain else none }
    some (match more, bd.heldDrain with
      | false, some (hard, abort) => startDrain b hard abort s2
      | _, _ => s2)

/-- DRAIN (R416, R422, R430): accepted by the home piece alone. -/
def drainCmd (b : Nat) (hard : Bool) (s : State) : State :=
  let bd := getBd s b
  if !bd.home then ignoreCmd s b
  else match bd.st, bd.drain with
    | .running, none => { startDrain b hard false s with resp := .done }
    | .running, some d => if hard && !d.hard then { startDrain b true false s with resp := .done } else ignoreCmd s b
    | .draining, some d => if hard && !d.hard then { startDrain b true false s with resp := .done } else ignoreCmd s b
    | _, _ => ignoreCmd s b

/-- The ARMED entries of board b among those that `f` picks are cancelled (R319, R422). -/
def cancelEntries (s : State) (b : Nat) (f : SchedEnt → Bool) : State :=
  { s with time := { s.time with brd := s.time.brd.map (fun p =>
      if p.1 / 8 = b ∧ p.2.st = 1 ∧ f p.2 then (p.1, { p.2 with st := 3 }) else p) } }

/-- Does board b have a FAULTED or ERROR descriptor in any MED? -/
def hasStopped (s : State) (b : Nat) (err : Bool) : Bool :=
  (List.range 8).any (fun m => (getMed s m).desc.any (fun p =>
    descBoard p.1 == b && (p.2.phase == .faulted || (err && p.2.phase == .error))))

/-- W and S of a FINAL DRAIN notice (R600). -/
def finalWords (bd : Board) : Word × Word × Word :=
  (packW [(16, 16, bd.words / 2 ^ 32), (0, 16, bd.samples / 2 ^ 32)], BitVec.ofNat 32 bd.words, BitVec.ofNat 32 bd.samples)

/-- DRAIN_INPUTS_END (R422, R283, R603): step 1 is over, step 2 begins. [DEDUCED log 44] -/
def drainInputsEnd (b : Nat) (s : State) : Option State :=
  let bd := getBd s b
  match bd.drain with
  | some d =>
    if d.step ≠ 1 ∨ bd.st ≠ .running ∨ bd.startPending ∨ curChans s b ≠ [] then none
    else
      let arm := armed s b
      let s1 := setBd s b { bd with st := .draining, drain := some { d with step := 2 }, drainPending := false }
      let s2 := (boardBricks s1 b).foldl (fun s p =>
        modB s p.2.2 (fun k => if k.st = .running then { k with st := .draining } else k)) s1
      let s3 := cancelEntries s2 b (fun e => fld e.act 24 4 == 1 || fld e.act 24 4 == 2)
      let s4 := abandonAll b s3
      let s5 := if d.hard && d.abort then closeSlots s4 b false else s4
      some (armNotice arm b (if multi bd && bd.home then
          let w := finalWords bd
          sendAll s5 b nDRAIN (drainFlags d.hard d.abort true) w.1 w.2.1 w.2.2
        else s5))
  | none => none

/-- Nothing is on its way over a crossing of an edge bridge. -/
def crossEmpty (c : Crossing) : Bool := c.replay.isEmpty && c.wire.isEmpty

/-- No flit of board b lies in a tie or edge bridge (R423). [DEDUCED log 45] -/
def bridgesEmpty (s : State) (b : Nat) : Bool :=
  let bd := getBd s b
  s.ties.all (fun p => !inRect bd (p.1 / 4 % 1104) (p.1 / 4 / 1104) ||
    (p.2.out.isEmpty && p.2.replay.isEmpty && p.2.wire.isEmpty && p.2.landing.isEmpty)) &&
  s.edges.all (fun p => !facesBoard bd (p.1 / 2) (p.1 % 2 == 1) ||
    (crossEmpty p.2.out && crossEmpty p.2.inn && p.2.landing.isEmpty))

/-- No flit or descriptor of board b lies in a MED (R423). [DEDUCED log 45] -/
def medsEmpty (s : State) (b : Nat) : Bool :=
  (List.range 8).all (fun m =>
    let d := getMed s m
    let mine := fun (key : Nat) => portBoard s m (key / 64) == some b
    d.desc.all (fun p => descBoard p.1 != b) && d.rx.all (fun p => !mine p.1) && d.inj.all (fun p => !mine p.1)
      && d.recs.all (fun r => !mine r.key))

/-- The Stesy rings of board b are empty or closed (R602). -/
def ringsEmpty (s : State) (b : Nat) : Bool :=
  (getHed s (b / 4)).slots.all (fun p => !(p.2.used && p.2.board == b) || p.2.closed || p.2.ring.isEmpty)

/-- The units that a port holds to send, to repeat, or received. -/
def portUnits (p : Port) : List DUnit := p.txq.flatMap (·.2) ++ p.replay ++ p.rx.flatMap (·.2)

/-- The units in every port of the four HEDs. -/
def unitsHeld (s : State) : List DUnit := s.heds.flatMap (fun p => p.2.ports.flatMap (fun q => portUnits q.2))

/-- A FLITS unit of a channel slot (number i of HED h): sent from an OUT slot to its peer, or on its way to an IN slot. -/
def unitOfSlot (s : State) (h i : Nat) (v : Slot) (u : DUnit) : Bool :=
  u.typ == 0 && (if v.dirIn then u.dwafer == s.wafer && u.dhed == h && u.dslot == i && u.epoch == v.epoch
    else u.dwafer == v.pWafer && u.dhed == v.pHed && u.dslot == v.pSlot && u.epoch == v.pEpoch)

/-- No flit of board b lies on a Stesy channel whose slot is open (R423, R603). [DEDUCED log 45] -/
def channelsEmpty (s : State) (b : Nat) : Bool :=
  (getHed s (b / 4)).slots.all (fun p => !(p.2.used && p.2.board == b) || p.2.closed ||
    (unitsHeld s).all (fun u => !unitOfSlot s (b / 4) p.1 p.2 u))

/-- The holds of R308: not armed, a FAULTED descriptor, an ARMED entry while not draining, a field's clock. [DEDUCED log 46] -/
def stillHolds (s : State) (b : Nat) : Bool × Bool × Bool × Bool :=
  let bd := getBd s b
  (!armed s b, hasStopped s b false,
   bd.st != .draining && s.time.brd.any (fun p => p.1 / 8 == b && p.2.st == 1),
   bd.st != .undefined && (s.clk.waiting || (boardFields bd).any (fun f => !clkRuns s f)))

/-- Is the count STILL held at 0 (R308)? -/
def stillHeld (s : State) (b : Nat) : Bool :=
  let h := stillHolds s b
  h.1 || h.2.1 || h.2.2.1 || h.2.2.2

/-- The count STILL (R308). -/
def stillNow (s : State) (b : Nat) : Nat := if stillHeld s b then 0 else (getBd s b).still

/-- R423 holds for board b. [DEDUCED log 45] -/
def quiescent (s : State) (b : Nat) : Bool :=
  !wordsInFlight s b && medsEmpty s b && bridgesEmpty s b && ringsEmpty s b && channelsEmpty s b
    && egrProd (getHed s (b / 4)) b == egrCons (getHed s (b / 4)) b && decide (256 ≤ stillNow s b)

/-- The board is quiescent, and the other pieces allow its drain to end (R423, R602). -/
def drainOver (s : State) (b : Nat) : Bool :=
  let bd := getBd s b
  let others := (List.range bd.pieces).filter (fun p => p != bd.piece)
  quiescent s b && (!multi bd || (if bd.home then others.all (fun p => bd.quietFrom.contains p) else bd.finalDrain))

/-- At the end of its drain a piece whose HOME is clear takes the home piece's W and S (R449). -/
def takeFinal (bd : Board) : Board :=
  if multi bd && !bd.home && bd.finalDrain then { bd with words := bd.finalW, samples := bd.finalS } else bd

/-- A brick that waits at a drain's end: a queue that is not empty, or a context that has begun and is not DONE (R422). -/
def brickWaits (k : Brick) : Bool :=
  !(k.qS.isEmpty && k.qV.isEmpty && k.qT.isEmpty) || k.ctx.any (fun p => p.2.phase == .active || p.2.phase == .faulted)

/-- QUIESCENCE (R422, R423, R602): the drain ends and the board is HALTED. -/
def quiescence (b : Nat) (s : State) : Option State :=
  let bd := getBd s b
  if bd.st ≠ .draining ∨ !drainOver s b then none
  else
    let n := ((boardBricks s b).filter (fun p => brickWaits (getB s p.2.2))).length
    let s1 := setBd s b { takeFinal bd with st := .halted, lastDrain := 1, waiting := n }
    let s2 := if multi bd && !bd.home then sendNotice s1 b bd.pieceHome nQUIET 0 0 0 0 else s1
    some (sigBoard (armNotice (armed s b) b (endDiscards b s2)) b)

/-! ### Stalemate -/

/-- The tcyc at which a declaration looks at a brick: with CAUSE STILL nothing has moved for 4,096 tcyc, and what was on its
way has arrived. [DEDUCED log 46] -/
def lookAt (cause : Nat) (k : Brick) : Nat := if cause = 1 then k.useT + 4096 else k.useT

/-- The cause of a queue's stalled head in a brick that runs, as R70 codes it; 0 for none. -/
def stalledCause (s : State) (x y t : Nat) (k : Brick) (q : Que) : Nat :=
  if k.st == .running || k.st == .draining then
    match queGet k q with
    | h :: _ => if t < h.due ∨ marked k (queIx q) then 0 else headCause s x y k q h t
    | [] => 0
  else 0

/-- Does a stream context of the brick wait (R253)? -/
def streamWaits (t : Nat) (k : Brick) : Bool :=
  streamRuns k && k.ctx.any (fun p => let c := ctxState k p.2 t; c == 3 || c == 4 || c == 5)

/-- A brick that a declaration lists: a stalled queue head or a waiting stream context (R310). [DEDUCED log 46] -/
def brickBlocked (s : State) (cause x y key : Nat) : Bool :=
  let k0 := getB s key
  let t := lookAt cause k0
  let k := (brickAt k0 t).getD k0
  stalledCause s x y t k .s != 0 || stalledCause s x y t k .v != 0 || stalledCause s x y t k .t != 0 || streamWaits t k

/-- ARG of BRD_SM_ENT_B (R322): what the S head waits for. -/
def smArg (k : Brick) (t cause : Nat) : Nat :=
  match k.qS with
  | [] => 0
  | h :: _ =>
    let pops := popsOf (opE h) h.word
    match cause with
    | 1 => (pops.find? (fun n => decide (portReady k n t < (pops.filter (· == n)).length))).getD 0
    | 2 => ((sendsOf (opE h) h.word).map (·.1)).getD 0
    | 4 => fld h.word 0 6
    | 5 => fld h.word 0 3
    | _ => 0

/-- The words of BRD_SM_ENT_A and BRD_SM_ENT_B for a brick. -/
def smEntry (s : State) (cause x y key : Nat) : Word × Word :=
  let k0 := getB s key
  let t := lookAt cause k0
  let k := (brickAt k0 t).getD k0
  let cS := stalledCause s x y t k .s
  (packW [(31, 1, 1), (20, 11, x), (10, 10, y)],
   packW [(28, 4, cS), (24, 4, stalledCause s x y t k .v), (20, 4, stalledCause s x y t k .t), (19, 1, b2n (streamWaits t k)),
     (11, 6, smArg k t cS), (0, 11, pcField k)])

/-- The list of a declaration: the first 16 blocked bricks, and their number (R310). -/
def smList (s : State) (b cause : Nat) (bd : Board) : Board :=
  let bl := (bricksInOrder s b).filter (fun p => brickBlocked s cause p.1 p.2.1 p.2.2)
  let r := (bl.take 16).zipIdx.foldl (fun (m : SMap Word) p =>
    let e := smEntry s cause p.1.1 p.1.2.1 p.1.2.2
    sset 0 (sset 0 m (0x840 + 8 * p.2) e.1) (0x844 + 8 * p.2) e.2) bd.regs
  { bd with regs := sset 0 r 0x80C (BitVec.ofNat 32 bl.length) }

/-- A stalemate of board b is declared (R309-R311): its inputs stop, and it stays so until it is reset. A drain that its limit
ends is over (R424), and signalled (R573). -/
def declare (b cause : Nat) (s : State) : State :=
  let bd := smList s b cause (getBd s b)
  let bd1 := if cause = 2 then { takeFinal bd with lastDrain := 2 } else bd
  let s1 := setBd s b { bd1 with
    st := .stalemate
    smDeclared := true
    smReady := false
    smCause := cause
    drainPending := false
    regs := sset 0 (sset 0 bd1.regs 0x804 (BitVec.ofNat 32 s.now)) 0x808 (BitVec.ofNat 32 (s.now / 2 ^ 32)) }
  let s2 := if cause = 2 then endDiscards b s1 else s1
  let s3 := armNotice (armed s b) b (abortBoard s2 b)
  raiseBoard (if cause = 2 then sigBoard s3 b else s3) fSTALEMATE b (BitVec.ofNat 32 cause)

/-- STALEMATE_DECLARE (R309): STILL has reached 4,096 with work waiting; a draining board never declares one (R423). [DEDUCED log 46] -/
def stalemateDeclare (b : Nat) (s : State) : Option State :=
  let bd := getBd s b
  if bd.st ≠ .running ∨ bd.smDeclared ∨ stillNow s b < 4096
      ∨ (boardBricks s b).all (fun p => !brickWaits (getB s p.2.2)) then none
  else some (declare b 1 s)

/-- STALEMATE_LIST_READY (R310). -/
def stalemateListReady (b : Nat) (s : State) : Option State :=
  let bd := getBd s b
  if !bd.smDeclared || bd.smReady then none else some (setBd s b { bd with smReady := true })

/-- DRAIN_LIMIT (R424, R430): the limit has passed in step 2, and the board is not quiescent. [DESIGN CHOICE log 8] -/
def drainLimit (b : Nat) (s : State) : Option State :=
  let bd := getBd s b
  if bd.st ≠ .draining ∨ drainOver s b then none
  else
    let s1 := declare b 2 s
    some (if multi bd then sendAll s1 b nSTALEMATE 0 0 0 0 else s1)

/-- STILL_TCYC (R307, R308): one tcyc of the detector's field. -/
def stillTcyc (b : Nat) (s : State) : State :=
  let h := stillHeld s b
  modBd s b (fun bd => { bd with
    still := if h || bd.moved then 0 else min 4096 (bd.still + 1)
    moved := false })

/-! ### Reset -/

/-- Every route-slot entry with EN cleared (R193). -/
def disableSlots (cfg : SMap Word) : SMap Word :=
  cfg.filterMap (fun p =>
    if 0x300 ≤ p.1 ∧ p.1 < 0x600 ∧ bitAt p.2 31 then
      (let v := p.2 &&& ~~~(1#32 <<< 31); if v = 0 then none else some (p.1, v))
    else some p)

/-- A brick after a board reset: STOPPED, ports and route slots emptied, every entry disabled, barrier state cleared (R425,
R299). -/
def stopBrick (k : Brick) : Brick :=
  { k with
    st := if k.st == .quarantined then .quarantined else .stopped
    ports := []
    fifos := []
    credFly := []
    cfg := disableSlots (k.cfg.filter (fun p => p.1 != 0x700 && p.1 != 0x704))
    twDir := []
    twx := []
    barOut := []
    barNP := [] }

/-- A channel after a board reset: the Slate's placement stays (R576). [DEDUCED log 48] -/
def clearChan (ch : Chan) : Chan :=
  { en := ch.en, cached := ch.cached, med := ch.med, board := ch.board, regOfs := ch.regOfs, regLen := ch.regLen }

/-- The board's record after a board reset, its registers aside (R322, R425, R434, R435). [DEDUCED log 48] -/
def resetBd (bd : Board) : Board :=
  { bd with
    st := .resetting
    home := false
    assembled := false
    lastDrain := 0
    loadFailed := false
    faultDrain := false
    drainPending := false
    loadPass := 0
    loadFn := 0
    loadArgs := []
    loadHead := []
    loadPages := []
    imageId := 0
    piece := 0
    pieces := 0
    startTs := 0
    startPending := false
    streamsToo := false
    drain := none
    barDecl := []
    barGen := []
    barC := []
    barGate := []
    arrivals := []
    releases := []
    still := 0
    moved := false
    smDeclared := false
    smReady := false
    smCause := 0
    armIn := false
    checking := false
    checkDone := if bd.checking then false else bd.checkDone
    checkOutcome := if bd.checking then 0 else bd.checkOutcome
    depBricks := if bd.checking then 0 else bd.depBricks
    notes := []
    pieceMap := []
    stesyRecs := []
    quietFrom := []
    pieceHome := 0
    startHeld := false
    heldDrain := none
    pieceBad := false
    resetLate := false
    finalDrain := false
    finalW := 0
    finalS := 0
    maskOn := false
    maskMed := 0
    maskCol := 0
    maskLane := 0
    maskSlot := 0
    maskW := 0
    maskQ := []
    fields := []
    regs := (if bd.checking then bd.regs.filter (fun p => !(0xC14 ≤ p.1 && p.1 ≤ 0xC1C)) else bd.regs).filter
      (fun p => !(0x800 ≤ p.1 && p.1 < 0x8C0) && !(p.1 == 0xC38 || p.1 == 0xC3C)) }

/-- The ties inside the board are emptied, landing stores and all else, with their credits (R425). [DEDUCED log 48] -/
def clearTies (s : State) (b : Nat) : State :=
  let bd := getBd s b
  { s with ties := s.ties.filterMap (fun p =>
      let x := p.1 / 4 % 1104
      let y := p.1 / 4 / 1104
      let inside := match neighbour x y (p.1 % 4) with
        | some (x', y') => inRect bd x y && inRect bd x' y'
        | none => false
      if inside then
        (let v : Tie := { p.2 with
            out := [], replay := [], again := [], wire := [], expect := p.2.nextSeq, nakOut := false, fails := 0, landing := [],
            spent := [], retCred := [], retAck := [] }; if v = ({} : Tie) then none else some (p.1, v))
      else some p) }

/-- A crossing with nothing on its way, both ends at the next sequence number. -/
def clearCross (c : Crossing) : Crossing := { nextSeq := c.nextSeq, expect := c.nextSeq }

/-- The edge bridges that face the board are emptied, with their credits. [DEDUCED log 48] -/
def clearEdges (s : State) (b : Nat) : State :=
  let bd := getBd s b
  { s with edges := s.edges.filterMap (fun p =>
      if facesBoard bd (p.1 / 2) (p.1 % 2 == 1) then
        (let v : EdgeBr := { p.2 with out := clearCross p.2.out, inn := clearCross p.2.inn, landing := [], spent := [], medSpent := [] }
         if v = ({} : EdgeBr) then none else some (p.1, v))
      else some p) }

/-- The end cause ABORT of the board's request: its words are abandoned, and its final record goes out if the ring can take it. -/
def abortNow (s : State) (b : Nat) : State :=
  (curChans s b).foldl (fun s c => (finalRecord (b / 4) c s).getD s) (abortBoard s b)

/-- A board reset (R425). -/
def doReset (b : Nat) (s : State) : State :=
  let bd := getBd s b
  let h := b / 4
  let s0 := if multi bd && bd.st != .empty && bd.st != .resetting then sendAll s b nDRAIN (drainFlags true true false) 0 0 0 else s
  let s1 := if multi bd && bd.home && armed s0 b then sendAll (abortNow s0 b) b nARM 0 0 0 0 else abortNow s0 b
  let s2 := (List.range 8).foldl (fun s m => medReset b m s) s1
  let s3 := closeSlots s2 b false
  let s4 := (boardBricks s3 b).foldl (fun s p =>
    modB s p.2.2 (fun k => let k1 := stopBrick k; if bd.checking then setObs k1 0x10C 0 else k1)) s3
  let s5 := clearEdges (clearTies s4 b) b
  let s6 := modHed s5 h (fun e =>
    let e1 := hedPut (hedPut e (egrBase b + 0x800) (bytesLE 4 0)) (egrBase b + 0x840) (bytesLE 4 0)
    { e1 with chans := e1.chans.map (fun p => if p.2.en && p.2.board == b then (p.1, clearChan p.2) else p) })
  let s7 := cancelEntries s6 b (fun _ => true)
  modBd s7 b resetBd

/-- RESET (R416, R425). -/
def resetCmd (b : Nat) (s : State) : State :=
  let st := (getBd s b).st
  if st = .undefined ∨ st = .resetting then ignoreCmd s b else { doReset b s with resp := .done }

/-- RESET_COMPLETE (R425): every engine of every MED shows the board QUIESCENT. -/
def resetComplete (b : Nat) (s : State) : Option State :=
  let bd := getBd s b
  if bd.st ≠ .resetting ∨ (List.range 8).any (fun m => (List.range 4).any (fun e => (sget 0 (getMed s m).busy e).testBit b)) then none
  else some (sigBoard (closeSlots (setBd s b { bd with st := .empty, resetLate := false }) b true) b)

/-- FAULT_BOARD_RESET (R425, R618): a reset that has not completed within 1 ms. -/
def faultBoardReset (b : Nat) (s : State) : Option State :=
  let bd := getBd s b
  if bd.st ≠ .resetting ∨ bd.resetLate then none
  else some (raiseBoard (setBd s b { bd with resetLate := true }) fBOARD_RESET b 0)

/-! ### Faults of a board -/

/-- The effect of a class P, H or I fault on its board (R432, R610), and its notice to the other pieces (R431): a fault in a
piece sends them a hard drain with ABORT, once. [DEDUCED log 59] -/
def faultDrainGo (b : Nat) (s : State) : State :=
  let bd := getBd s b
  let mark := fun (s : State) => modBd s b (fun bd => { bd with faultDrain := true })
  let tell := fun (s : State) => if multi bd && !bd.faultDrain then sendAll s b nDRAIN (drainFlags true true false) 0 0 0 else s
  match bd.st with
  | .loaded => tell (mark (modBd s b (fun bd => { bd with st := .halted, startPending := false, startHeld := false, heldDrain := none })))
  | .running | .draining =>
    if bd.drain.any (·.hard) then tell (mark s)
    else if bd.home then startDrain b true true (mark s)
    else tell (startDrain b true true (mark s))
  | _ => s

/-! ### Rows -/

/-- LOAD (R418). -/
def execLoad (f : Fn) (b : Fin 16) (s : State) : Host.Outcome State Fault Refusal :=
  reply s (brdCommand s f b (loadCmd f b s))
/-- START (R421). -/
def execStart (f : Fn) (b : Fin 16) (s : State) : Host.Outcome State Fault Refusal :=
  reply s (brdCommand s f b (startCmd b s))
/-- FIELD_START (R421). -/
def execFieldStart (b : Fin 16) (fld : Fin 84) (t : Nat) (s : State) : Host.Outcome State Fault Refusal :=
  answerRun s (fieldStart b fld t s)
/-- DRAIN (R422). -/
def execDrain (f : Fn) (b : Fin 16) (s : State) : Host.Outcome State Fault Refusal :=
  reply s (brdCommand s f b (drainCmd b false s))
/-- DRAIN_HARD (R422). -/
def execDrainHard (f : Fn) (b : Fin 16) (s : State) : Host.Outcome State Fault Refusal :=
  reply s (brdCommand s f b (drainCmd b true s))
/-- DRAIN_INPUTS_END (R422). -/
def execDrainInputsEnd (b : Fin 16) (s : State) : Host.Outcome State Fault Refusal := answerRun s (drainInputsEnd b s)
/-- QUIESCENCE (R423). -/
def execQuiescence (b : Fin 16) (s : State) : Host.Outcome State Fault Refusal := answerRun s (quiescence b s)
/-- DRAIN_LIMIT (R424). -/
def execDrainLimit (b : Fin 16) (s : State) : Host.Outcome State Fault Refusal := answerRun s (drainLimit b s)
/-- STALEMATE_DECLARE (R309). -/
def execStalemateDeclare (b : Fin 16) (s : State) : Host.Outcome State Fault Refusal := answerRun s (stalemateDeclare b s)
/-- STALEMATE_LIST_READY (R310). -/
def execStalemateListReady (b : Fin 16) (s : State) : Host.Outcome State Fault Refusal := answerRun s (stalemateListReady b s)
/-- STILL_TCYC (R308). -/
def execStillTcyc (b : Fin 16) (s : State) : Host.Outcome State Fault Refusal := answer s (some (stillTcyc b s))
/-- RESET (R425). -/
def execReset (f : Fn) (b : Fin 16) (s : State) : Host.Outcome State Fault Refusal :=
  reply s (brdCommand s f b (resetCmd b s))
/-- RESET_COMPLETE (R425). -/
def execResetComplete (b : Fin 16) (s : State) : Host.Outcome State Fault Refusal := answerRun s (resetComplete b s)
/-- FAULT_BOARD_RESET (R618). -/
def execFaultBoardReset (b : Fin 16) (s : State) : Host.Outcome State Fault Refusal := answerRun s (faultBoardReset b s)

end Sys2Proof.Machine
end

