-- ==== Sys2Proof/Machine/BrickReg.lean ====
section
/-! DEFINITION. Register fields: writes by field (R14, R16), and the configuration registers of a brick by offset (R80, R205, R249,
R250, R321, R347, R398). -/
namespace Sys2Proof.Machine

/-- A writable field of a register: its low bit, its width, its reserved codes. -/
abbrev RwField := Nat × Nat × List Nat

/-- A write of a register's fields: bits outside them are ignored, and so is a reserved code for its own field (R14, R16). -/
def wrFields (old v : Word) : List RwField → Word
  | [] => old
  | (lo, len, res) :: r =>
    let n := fld v lo len
    wrFields (if res.contains n then old else setFld old lo len n) v r

/-- The whole word. -/
def wholeW : List RwField := [(0, 32, [])]

/-- The fields of a brick's configuration register at an offset; none where no register lies. A route-slot entry's fields
depend on TW of the word written; a write may set TW or SRC where the loader would refuse them, and the router then reads the entry
as it stands. [DESIGN CHOICE log 128] -/
def cfgFields (ofs : Nat) (v : Word) : Option (List RwField) :=
  if ofs % 4 ≠ 0 then none
  else if 0x200 ≤ ofs ∧ ofs < 0x220 then some [(31, 1, []), (24, 3, [6, 7])]
  else if 0x240 ≤ ofs ∧ ofs < 0x280 then
    match ofs % 0x10 with
    | 0 => some [(31, 1, []), (29, 2, []), (28, 1, []), (27, 1, []), (21, 6, [0]), (0, 16, [])]
    | 4 => some [(24, 8, []), (20, 3, []), (0, 12, [0])]
    | 8 => some [(0, 16, [])]
    | _ => none
  else if ofs = 0x280 then some [(31, 1, []), (16, 12, []), (0, 16, [])]
  else if 0x300 ≤ ofs ∧ ofs < 0x580 then
    some (if bitAt v 30 then [(11, 21, [])]
      else [(31, 1, []), (30, 1, []), (27, 3, [7]), (22, 5, []), (21, 1, []), (18, 3, [7]), (13, 5, []), (11, 2, [])])
  else if 0x600 ≤ ofs ∧ ofs < 0x610 then some [(31, 1, []), (29, 2, [2, 3]), (0, 5, [])]
  else if 0x620 ≤ ofs ∧ ofs < 0x660 then
    some (if ofs % 8 = 0 then [(31, 1, []), (29, 2, []), (0, 16, [])] else wholeW)
  else if 0x680 ≤ ofs ∧ ofs < 0x700 then some wholeW
  else if ofs = 0x700 ∨ ofs = 0x704 then some wholeW
  else none

/-- A write of a configuration register. -/
def writeCfg (b : Brick) (ofs : Nat) (v : Word) : Brick :=
  match cfgFields ofs v with
  | some fs => setCfg b ofs (wrFields (cfgW b ofs) v fs)
  | none => b

end Sys2Proof.Machine
end

