-- ==== Sys2Proof/Machine/Image.lean ====
section
/-! DEFINITION. Chromer images: the container, its sections and records, the checks of form and checksum (R392-R398, R400, R409). -/
namespace Sys2Proof.Machine

/-- The little-endian number of n bytes at offset o of an image (R392). -/
def imNum (im : List Byte) (o n : Nat) : Nat := ofBytesLE ((im.drop o).take n)
/-- The 32-bit word at offset o. -/
def imW (im : List Byte) (o : Nat) : Word := BitVec.ofNat 32 (imNum im o 4)

/-- A breach: its code (R408), its image offset, the index of its section (0xFF for header and section table), its brick. -/
structure Breach where
  code : Nat
  ofs : Nat
  sect : Nat := 0xFF
  brick : Option (Nat × Nat) := none
deriving DecidableEq, Repr

/-- The order of report (R409): the lowest code, then header and section table, then the lowest offset. -/
def Breach.before (a b : Breach) : Bool :=
  if a.code ≠ b.code then decide (a.code < b.code)
  else if (a.sect == 0xFF) != (b.sect == 0xFF) then a.sect == 0xFF
  else decide (a.ofs < b.ofs)

/-- The breach to report. [DEDUCED log 49] -/
def firstBreach : List Breach → Option Breach
  | [] => none
  | a :: r => match firstBreach r with
    | none => some a
    | some b => if b.before a then some b else some a

/-- A breach where a condition holds. -/
def breachIf (c : Bool) (b : Breach) : List Breach := if c then [b] else []

/-- The codes of R408. -/
def cFORMAT : Nat := 0x02
def cCHECKSUM : Nat := 0x03
def cBRICKS : Nat := 0x04
def cUNBACKED : Nat := 0x05
def cPROGRAM : Nat := 0x06
def cSRAM : Nat := 0x07
def cSLOTS : Nat := 0x08
def cBARRIERS : Nat := 0x09
def cPAGES : Nat := 0x0A
def cSTESY : Nat := 0x0B
def cVOCAB : Nat := 0x0C
def cENCODING : Nat := 0x0D
def cROUTE : Nat := 0x0E
def cHERITAGE : Nat := 0x0F
def cPORT : Nat := 0x10
def cSTREAM : Nat := 0x11
def cEXPERT : Nat := 0x12
def cTEXT : Nat := 0x13
def cGRAMMAR : Nat := 0x14
def cPIECE : Nat := 0x15

/-- One step of the reflected CRC-32 (R395). -/
def crcBits : Nat → Nat → Nat
  | 0, c => c
  | n + 1, c => crcBits n (if c % 2 = 1 then (c / 2) ^^^ 0xEDB88320 else c / 2)

/-- CRC-32 of IEEE 802.3 (R395). -/
def crc32 (l : List Byte) : Nat := (l.foldl (fun c b => crcBits 8 (c ^^^ b.toNat)) 0xFFFFFFFF) ^^^ 0xFFFFFFFF

/-- An entry of the section table (R394): its index and its fields. -/
structure Sect where
  ix : Nat
  typ : Nat
  count : Nat
  ofs : Nat
  len : Nat
  scrc : Nat
deriving DecidableEq, Repr

/-- A brick record (R397): where it lies, its brick, its program, its register writes (image offset, brick offset, value), its
segments (image offset, ADDR, LEN). -/
structure BRec where
  ofs : Nat
  sect : Nat
  bx : Nat
  by_ : Nat
  prog : List DWord
  regs : List (Nat × Nat × Word)
  segs : List (Nat × Nat × Nat)
deriving DecidableEq, Repr

/-- A DRAM record (R404): its image offset, section, MED, VA, LEN; the bytes lie 0x20 on. -/
structure DRec where
  ofs : Nat
  sect : Nat
  med : Nat
  va : Nat
  len : Nat
deriving DecidableEq, Repr

/-- An image taken apart: header, sections, records; records of fixed size by image offset and section. -/
structure Img where
  id : Nat
  pieces : Nat
  piece : Nat
  home : Bool
  w : Nat
  h : Nat
  nb : Nat
  timed : Nat
  pages : List Nat
  sects : List Sect
  bricks : List BRec
  edges : List (Nat × Nat)
  text : List (Nat × Nat)
  lex : List (Nat × Nat)
  gram : List (Nat × Nat)
  drams : List DRec
  stesy : List (Nat × Nat)
deriving DecidableEq, Repr

/-! ### Header and section table -/

/-- A byte of [o, o+n) is not zero: a breach of form there. -/
def zeroAt (im : List Byte) (o n sect : Nat) : List Breach :=
  breachIf (imNum im o n != 0) ⟨cFORMAT, o, sect, none⟩

/-- The header's breaches of R393; `len` is the length delivered. -/
def headerForm (im : List Byte) : List Breach :=
  let bad := fun (c : Bool) (o : Nat) => breachIf c ⟨cFORMAT, o, 0xFF, none⟩
  let nsect := imNum im 0x14 4
  bad (im.length < 0x80) 0 ++ bad (imNum im 0 4 != 0x31524843) 0 ++ bad (imNum im 4 4 != 1) 4
  ++ bad (imNum im 8 8 != im.length) 8 ++ bad (nsect == 0 || decide (255 ≤ nsect) || decide (im.length < 0x80 + 32 * nsect)) 0x14
  ++ bad (imNum im 0x22 2 == 0 || decide (32768 < imNum im 0x22 2) || decide (imNum im 0x22 2 ≤ imNum im 0x20 2)) 0x20
  ++ bad (decide (2 ≤ imNum im 0x24 4)) 0x24 ++ bad (imNum im 0x28 2 == 0 || imNum im 0x2A 2 == 0) 0x28
  ++ bad (decide (128 ≤ imNum im 0x2C 4)) 0x2C ++ zeroAt im 0x38 8 0xFF
  ++ (List.range 8).flatMap (fun m => bad (decide (0x4000 ≤ imNum im (0x40 + 4 * m) 4)) (0x40 + 4 * m))
  ++ zeroAt im 0x60 32 0xFF

/-- The section table. -/
def imSects (im : List Byte) : List Sect :=
  (List.range (imNum im 0x14 4 % 256)).map (fun i =>
    let o := 0x80 + 32 * i
    ⟨i, imNum im o 4, imNum im (o + 4) 4, imNum im (o + 8) 8, imNum im (o + 0x10) 8, imNum im (o + 0x18) 4⟩)

/-- Bytes of a record of fixed size (R396). -/
def recSize : Nat → Option Nat
  | 2 => some 4 | 3 => some 32 | 4 => some 96 | 5 => some 32 | 8 => some 16
  | _ => none

/-- The section table's breaches of R394 and R396; an EDGE section may end in four zero bytes that fill up its last 8. -/
def tableForm (im : List Byte) : List Breach :=
  let ss := imSects im
  let tend := 0x80 + 32 * ss.length
  ss.flatMap (fun v =>
    let o := 0x80 + 32 * v.ix
    let bad := fun (c : Bool) (d : Nat) => breachIf c ⟨cFORMAT, o + d, 0xFF, none⟩
    bad (v.typ == 0 || decide (8 < v.typ) || (v.typ != 6 && v.typ != 7 && (ss.take v.ix).any (fun u => u.typ == v.typ))) 0
    ++ bad ((v.typ == 6 && v.count != 0) || (v.typ == 3 && v.count != 1)) 4
    ++ bad (v.ofs % 8 != 0 || decide (v.ofs < tend) || decide (im.length < v.ofs + v.len)
        || (ss.take v.ix).any (fun u => decide (u.ofs < v.ofs + v.len ∧ v.ofs < u.ofs + u.len))) 8
    ++ bad ((recSize v.typ).any (fun n => n * v.count != v.len && !(v.typ == 2 && 8 * ((v.count + 1) / 2) == v.len
          && imNum im (v.ofs + 4 * v.count) 4 == 0))) 0x10
    ++ zeroAt im (o + 0x1C) 4 0xFF)

/-! ### Sections -/

/-- SRAM segments of a brick record; none where they pass the limit. -/
def parseSegs (im : List Byte) (lim : Nat) : Nat → Nat → Option (List (Nat × Nat × Nat) × Nat)
  | 0, o => some ([], o)
  | n + 1, o =>
    let len := imNum im (o + 2) 2
    let next := o + 8 + (len + 7) / 8 * 8
    if lim < o + 8 ∨ lim < next then none
    else (parseSegs im lim n next).map (fun p => ((o, imNum im o 2, len) :: p.1, p.2))

/-- The brick record at offset o, and where the next one begins; none where it does not lie in its section as R397 states. -/
def parseBrick (im : List Byte) (sect lim o : Nat) : Option (BRec × Nat) :=
  let np := imNum im (o + 4) 2 % 4096
  let nr := imNum im (o + 6) 2 % 4096
  let len := imNum im (o + 0xC) 4
  let ro := o + 0x10 + 8 * np
  if lim < o + 0x10 ∨ lim < o + len ∨ lim < ro + 8 * nr ∨ len % 8 ≠ 0 then none
  else match parseSegs im lim (imNum im (o + 8) 2) (ro + 8 * nr) with
    | none => none
    | some (segs, e) =>
      if e ≠ o + len then none
      else some (⟨o, sect, imNum im o 2, imNum im (o + 2) 2,
        (List.range np).map (fun i => BitVec.ofNat 64 (imNum im (o + 0x10 + 8 * i) 8)),
        (List.range nr).map (fun i => (ro + 8 * i, imNum im (ro + 8 * i) 4, imW im (ro + 8 * i + 4))), segs⟩, e)

/-- The brick records of a section, and the offset at which they end, or fail; `fuel` records at most. -/
def parseBricks (im : List Byte) (sect lim : Nat) : Nat → Nat → List BRec × Nat × Bool
  | 0, o => ([], o, decide (o = lim))
  | n + 1, o =>
    match parseBrick im sect lim o with
    | none => ([], o, false)
    | some (r, e) => let p := parseBricks im sect lim n e; (r :: p.1, p.2)

/-- The DRAM records of a section (R404). -/
def parseDrams (im : List Byte) (sect lim : Nat) : Nat → Nat → List DRec × Nat × Bool
  | 0, o => ([], o, decide (o = lim))
  | n + 1, o =>
    let len := imNum im (o + 0x10) 8
    let e := o + 0x20 + (len + 7) / 8 * 8
    if lim < o + 0x20 ∨ lim < e then ([], o, false)
    else
      let p := parseDrams im sect lim n e
      (⟨o, sect, imNum im o 4 % 16, imNum im (o + 4) 4 + 2 ^ 32 * imNum im (o + 8) 2, len⟩ :: p.1, p.2)

/-- Records of fixed size: image offset and section. -/
def fixedRecs (ss : List Sect) (typ n : Nat) : List (Nat × Nat) :=
  (ss.filter (fun v => v.typ == typ)).flatMap (fun v => (List.range v.count).map (fun i => (v.ofs + n * i, v.ix)))

/-- An image taken apart. -/
def parseImg (im : List Byte) : Img :=
  let ss := imSects im
  { id := imNum im 0x18 8
    pieces := imNum im 0x22 2
    piece := imNum im 0x20 2
    home := imNum im 0x24 4 == 1
    w := imNum im 0x28 2
    h := imNum im 0x2A 2
    nb := imNum im 0x2C 4
    timed := imNum im 0x30 8
    pages := (List.range 8).map (fun m => imNum im (0x40 + 4 * m) 4)
    sects := ss
    bricks := (ss.filter (fun v => v.typ == 1)).flatMap (fun v => (parseBricks im v.ix (v.ofs + v.len) v.count v.ofs).1)
    edges := fixedRecs ss 2 4
    text := fixedRecs ss 3 32
    lex := fixedRecs ss 4 96
    gram := fixedRecs ss 5 32
    drams := (ss.filter (fun v => v.typ == 7)).flatMap (fun v => (parseDrams im v.ix (v.ofs + v.len) v.count v.ofs).1)
    stesy := fixedRecs ss 8 16 }

/-- The zero bits of a brick record's head (R397). -/
def brickHead (im : List Byte) (sect o bx by_ : Nat) : List Breach :=
  breachIf (decide (4096 ≤ imNum im (o + 4) 2) || decide (4096 ≤ imNum im (o + 6) 2)) ⟨cFORMAT, o + 4, sect, some (bx, by_)⟩
  ++ breachIf (imNum im (o + 0xA) 2 != 0) ⟨cFORMAT, o + 8, sect, some (bx, by_)⟩

/-- Form of one brick record (R397, R398): zero fields, padding, register windows, offsets written once. [DEDUCED log 49] -/
def brickForm (im : List Byte) (r : BRec) : List Breach :=
  let bad := fun (c : Bool) (o : Nat) => breachIf c ⟨cFORMAT, o, r.sect, some (r.bx, r.by_)⟩
  brickHead im r.sect r.ofs r.bx r.by_
  ++ (r.regs.zipIdx.flatMap (fun p =>
      bad (((cfgFields p.1.2.1 p.1.2.2).isNone && !decide (0x580 ≤ p.1.2.1 ∧ p.1.2.1 < 0x600))
        || (r.regs.take p.2).any (fun q => q.2.1 == p.1.2.1)) p.1.1))
  ++ r.segs.flatMap (fun g =>
      bad (imNum im (g.1 + 4) 4 != 0) (g.1 + 4)
      ++ bad (imNum im (g.1 + 8 + g.2.2) ((8 - g.2.2 % 8) % 8) != 0) (g.1 + 8 + g.2.2))

/-- No brick is named by two records. -/
def brickTwice (rs : List BRec) : List Breach :=
  rs.zipIdx.flatMap (fun p =>
    breachIf ((rs.take p.2).any (fun q => q.bx == p.1.bx && q.by_ == p.1.by_))
      ⟨cFORMAT, p.1.ofs, p.1.sect, some (p.1.bx, p.1.by_)⟩)

/-- Fields of an EDGE record (R400). -/
def edCol (w : Word) : Nat := fld w 0 11
def edSouth (w : Word) : Bool := bitAt w 11
def edLane (w : Word) : Nat := fld w 12 1
def edKind (w : Word) : Nat := fld w 13 1
def edSlot (w : Word) : Nat := fld w 14 5
def edRole (w : Word) : Nat := fld w 19 3

/-- Form of the EDGE section (R400). [DEDUCED log 51] -/
def edgeForm (im : List Byte) (es : List (Nat × Nat)) : List Breach :=
  es.zipIdx.flatMap (fun p =>
    let w := imW im p.1.1
    breachIf (fld w 22 10 != 0 || (if edKind w = 0 then decide (3 < edRole w) else decide (2 < edRole w))
      || (es.take p.2).any (fun q => (imW im q.1) &&& 0x7FFFF == w &&& 0x7FFFF)) ⟨cFORMAT, p.1.1, p.1.2, none⟩)

/-- Form of the other sections' records: fields that a layout marks zero (R392, R402-R404). [DEDUCED log 51] -/
def recordForm (im : List Byte) (g : Img) : List Breach :=
  g.lex.flatMap (fun p =>
    let bad := fun (c : Bool) (d : Nat) => breachIf c ⟨cFORMAT, p.1 + d, p.2, none⟩
    let f := imW im p.1
    let n := fld f 16 5
    bad (!onlyFields f [(0, 3), (8, 3), (16, 5)] || decide (16 < n)) 0
    ++ bad (imNum im (p.1 + 7) 1 != 0) 4 ++ bad (imNum im (p.1 + 0x1A) 2 != 0) 0x18
    ++ bad (fld (imW im (p.1 + 0x1C)) 18 13 != 0) 0x1C
    ++ (List.range 16).flatMap (fun k =>
      let v := imNum im (p.1 + 0x20 + 4 * k) 4
      bad (if k < n then decide (2 ^ 22 ≤ v) else v != 0) (0x20 + 4 * k)))
  ++ g.gram.flatMap (fun p =>
    let bad := fun (c : Bool) (d : Nat) => breachIf c ⟨cFORMAT, p.1 + d, p.2, none⟩
    bad (!onlyFields (imW im p.1) [(0, 3), (7, 1), (8, 12), (20, 4)]) 0
    ++ bad (imNum im (p.1 + 0xA) 2 != 0) 8 ++ bad (imNum im (p.1 + 0x18) 8 != 0) 0x18)
  ++ g.drams.flatMap (fun r =>
    let bad := fun (c : Bool) (d : Nat) => breachIf c ⟨cFORMAT, r.ofs + d, r.sect, none⟩
    bad (decide (16 ≤ imNum im r.ofs 4)) 0 ++ bad (imNum im (r.ofs + 0xA) 2 != 0) 8
    ++ bad (imNum im (r.ofs + 0xC) 4 != 0) 0xC ++ bad (imNum im (r.ofs + 0x18) 8 != 0) 0x18
    ++ bad (imNum im (r.ofs + 0x20 + r.len) ((8 - r.len % 8) % 8) != 0) (0x20 + r.len))

/-- Where a variable record that does not fit its section breaks the form: bytes past the last record; at its length field
(+d); at COUNT if no byte of it lies in the section. `n` records were read whole. -/
def lengthAt (im : List Byte) (v : Sect) (n o d : Nat) : Breach :=
  let lim := v.ofs + v.len
  if n = v.count then ⟨cFORMAT, o, v.ix, none⟩
  else if lim ≤ o then ⟨cFORMAT, 0x84 + 32 * v.ix, 0xFF, none⟩
  else if lim < o + 2 * d then ⟨cFORMAT, o, v.ix, none⟩
  else ⟨cFORMAT, o + d, v.ix, if v.typ = 1 then some (imNum im o 2, imNum im (o + 2) 2) else none⟩

/-- Sections of variable records that do not hold exactly COUNT of them. -/
def lengthForm (im : List Byte) (ss : List Sect) : List Breach :=
  ss.flatMap (fun v =>
    if v.typ = 1 then
      let e := parseBricks im v.ix (v.ofs + v.len) v.count v.ofs
      let o := e.2.1
      if e.2.2 then []
      else lengthAt im v e.1.length o 0xC ::
        (if e.1.length < v.count ∧ o + 0x10 ≤ v.ofs + v.len then brickHead im v.ix o (imNum im o 2) (imNum im (o + 2) 2) else [])
    else if v.typ = 7 then
      let e := parseDrams im v.ix (v.ofs + v.len) v.count v.ofs
      if e.2.2 then [] else [lengthAt im v e.1.length e.2.1 0x10]
    else [])

/-- Every breach of form of an image's sections. [DEDUCED log 49, DEDUCED log 51] -/
def sectionForm (im : List Byte) (g : Img) : List Breach :=
  lengthForm im g.sects ++ g.bricks.flatMap (brickForm im) ++ brickTwice g.bricks ++ edgeForm im g.edges ++ recordForm im g

/-- CRC of a section's bytes. -/
def sectCrc (im : List Byte) (v : Sect) : Nat := crc32 ((im.drop v.ofs).take v.len)

/-- Breaches of R395. -/
def checksums (im : List Byte) (ss : List Sect) : List Breach :=
  let head := im.take 0x10 ++ [0, 0, 0, 0] ++ (im.drop 0x14).take (0x6C + 32 * ss.length)
  breachIf (crc32 head != imNum im 0x10 4) ⟨cCHECKSUM, 0x10, 0xFF, none⟩
  ++ ss.flatMap (fun v => breachIf (sectCrc im v != v.scrc) ⟨cCHECKSUM, v.ofs, v.ix, none⟩)

end Sys2Proof.Machine
end

