-- ==== Sys2Proof/Machine/ImageFit.lean ====
section
/-! DEFINITION. Chromer images: fit of bricks, programs, SRAM, slots and barriers; encodings; routes and Tirkan route words; port
owners (R39, R47, R61, R126, R134, R137, R161, R194, R200, R211-R216, R238, R263, R298, R407). -/
namespace Sys2Proof.Machine

/-- The configuration that a record's register writes make, on a brick of their own. -/
def recBrick (r : BRec) : Brick := r.regs.foldl (fun b p => writeCfg b p.2.1 p.2.2) {}

/-- The image offset of the write of a brick offset, or the record's. -/
def regAt (r : BRec) (ofs : Nat) : Nat :=
  match r.regs.find? (fun p => p.2.1 == ofs) with
  | some p => p.1
  | none => r.ofs

/-- Image offset of program word i of a record. -/
def wordAt (r : BRec) (i : Nat) : Nat := r.ofs + 0x10 + 8 * i

/-- A breach in a record. -/
def recBreach (r : BRec) (code ofs : Nat) : Breach := ⟨code, ofs, r.sect, some (r.bx, r.by_)⟩

/-! ### Fit (R407) -/

/-- REFUSE_BRICKS. -/
def fitBricks (bd : Board) (g : Img) : List Breach :=
  breachIf (decide (bd.x1 - bd.x0 + 1 < g.w) || decide (bd.y1 - bd.y0 + 1 < g.h)) ⟨cBRICKS, 0x28, 0xFF, none⟩
  ++ g.bricks.flatMap (fun r => breachIf (decide (g.w ≤ r.bx) || decide (g.h ≤ r.by_)) (recBreach r cBRICKS r.ofs))

/-- A logical brick is absent (R38): no position backs it, or its position has become defective. [DESIGN CHOICE log 50] -/
def absent (s : State) (x y : Nat) : Bool :=
  match physX s x y with
  | some p => (segDefects (getSeg s (x / 92) y)).getLsbD (p % 96) || exhausted (segDefects (getSeg s (x / 92) y))
  | none => true

/-- REFUSE_UNBACKED (R39): the breach names the first absent brick, by row and then column. [DESIGN CHOICE log 50] -/
def fitBacked (s : State) (bd : Board) : List Breach :=
  let w := bd.x1 + 1 - bd.x0
  match (List.range (w * (bd.y1 + 1 - bd.y0))).find? (fun n => absent s (bd.x0 + n % w) (bd.y0 + n / w)) with
  | some n => [⟨cUNBACKED, 0, 0xFF, some (n % w, n / w)⟩]
  | none => []

/-- REFUSE_PROGRAM. -/
def fitProgram (g : Img) : List Breach :=
  g.bricks.flatMap (fun r => breachIf (decide (2048 < r.prog.length)) (recBreach r cPROGRAM (r.ofs + 4)))

/-- REFUSE_SRAM. -/
def fitSram (g : Img) : List Breach :=
  g.bricks.flatMap (fun r => r.segs.zipIdx.flatMap (fun p =>
    breachIf (decide (0xC000 < p.1.2.1 + p.1.2.2)
      || (r.segs.take p.2).any (fun q => decide (p.1.2.1 < q.2.1 + q.2.2 ∧ q.2.1 < p.1.2.1 + p.1.2.2)))
      (recBreach r cSRAM p.1.1)))

/-- Does an edge port of the image's column BX at an end belong to the board (R262)? -/
def portOk (bd : Board) (col : Nat) (south : Bool) : Bool :=
  decide (bd.x0 + col ≤ bd.x1) && facesBoard bd (bd.x0 + col) south

/-- REFUSE_SLOTS. -/
def fitSlots (im : List Byte) (bd : Board) (g : Img) : List Breach :=
  let ep := fun (o sect : Nat) (w : Word) => breachIf (!portOk bd (edCol w) (edSouth w)) ⟨cSLOTS, o, sect, none⟩
  g.bricks.flatMap (fun r => r.regs.flatMap (fun p =>
    breachIf (decide (0x580 ≤ p.2.1 ∧ p.2.1 < 0x600)) (recBreach r cSLOTS p.1)))
  ++ g.edges.flatMap (fun p => ep p.1 p.2 (imW im p.1))
  ++ g.text.flatMap (fun p => (List.range 3).flatMap (fun i =>
      let w := imW im (p.1 + 4 * i)
      if bitAt w 31 then ep (p.1 + 4 * i) p.2 w else []))
  ++ g.lex.flatMap (fun p => ep (p.1 + 0x1C) p.2 (imW im (p.1 + 0x1C)))
  ++ g.stesy.flatMap (fun p =>
      breachIf (!portOk bd (fld (imW im (p.1 + 4)) 0 11) (bitAt (imW im p.1) 17)) ⟨cSLOTS, p.1, p.2, none⟩)

/-- REFUSE_BARRIERS (R137, R298). -/
def fitBarriers (g : Img) : List Breach :=
  let part := fun (r : BRec) (k : Nat) => barPart (recBrick r) k
  breachIf (decide (64 < g.nb)) ⟨cBARRIERS, 0x2C, 0xFF, none⟩
  ++ breachIf (decide (g.nb ≤ 64) && g.timed / 2 ^ g.nb != 0) ⟨cBARRIERS, 0x30, 0xFF, none⟩
  ++ breachIf (decide (g.nb ≤ 64) && (List.range g.nb).any (fun k => g.bricks.all (fun r => !part r k)))
      ⟨cBARRIERS, 0x2C, 0xFF, none⟩
  ++ g.bricks.flatMap (fun r =>
      [0x700, 0x704].flatMap (fun o =>
        breachIf ((List.range 32).any (fun i => bitAt (cfgW (recBrick r) o) i && decide (g.nb ≤ 8 * (o - 0x700) + i)))
          (recBreach r cBARRIERS (regAt r o)))
      ++ r.prog.zipIdx.flatMap (fun p => match iBOp p.1 with
        | some .arrive | some .waitb =>
          breachIf (decide (g.nb ≤ fld p.1 0 6) || !part r (fld p.1 0 6)) (recBreach r cBARRIERS (wordAt r p.2))
        | _ => []))

/-! ### Encodings (R104, R126) -/

/-- The REPEATs of a program: word and block length. -/
def repeatsOf (r : BRec) : List (Nat × Nat) :=
  r.prog.zipIdx.filterMap (fun p => match iBOp p.1 with
    | some .repi | some .repg => some (p.2, fld p.1 16 11)
    | _ => none)

/-- REFUSE_ENCODING. -/
def encodingBreaches (g : Img) : List Breach :=
  g.bricks.flatMap (fun r =>
    let reps := repeatsOf r
    r.prog.zipIdx.flatMap (fun p => breachIf (!wordOk p.1) (recBreach r cENCODING (wordAt r p.2)))
    ++ reps.flatMap (fun q =>
      let around := reps.filter (fun o => decide (o.1 < q.1 ∧ q.1 ≤ o.1 + o.2))
      breachIf (decide (2047 < q.1 + q.2) || around.any (fun o => decide (o.1 + o.2 < q.1 + q.2)) || decide (4 ≤ around.length))
        (recBreach r cENCODING (wordAt r q.1))))

/-! ### Tirkan route words (R211-R216) -/

/-- What a Tirkan route word of logical brick (x, y) means (R213-R215): refused with a code, or its logical destination. A position
that the map leaves unused for any reason, a good brick of an exhausted segment included, is refused as an unused one. [DESIGN CHOICE log 127] -/
def twTarget (s : State) (x y : Nat) (w : Word) : Except Nat (Nat × Nat) :=
  match physX s x y with
  | none => .error cROUTE
  | some px =>
    let dx : Int := if bitAt w 29 then -(fld w 23 6 : Int) else fld w 23 6
    let dy : Int := if bitAt w 22 then -(fld w 16 6 : Int) else fld w 16 6
    let p := ((px % 96 : Nat) : Int) + dx
    let t := ((79 - y % 80 : Nat) : Int) + dy
    let c := ((x / 92 : Nat) : Int) + p.fdiv 96
    let r := ((y / 80 : Nat) : Int) - t.fdiv 80
    if c < 0 ∨ 12 ≤ c ∨ r < 0 ∨ 7 ≤ r then .error cROUTE
    else
      let p' := (p.fmod 96).toNat
      let y' := 80 * r.toNat + 79 - (t.fmod 80).toNat
      let d := (getSeg s c.toNat y').mapDef
      if !posUsed d p' || 92 ≤ p' then .error cHERITAGE
      else .ok (92 * c.toNat + (p' - popBelow d p'), y')

/-- The directions of the path from (x, y) to (xd, yd): along the row, then along the column. -/
def twDirs (x y xd yd : Nat) : List Nat :=
  List.replicate (xd - x) 1 ++ List.replicate (x - xd) 3 ++ List.replicate (yd - y) 2 ++ List.replicate (y - yd) 0

/-- The hops of a path: brick left, direction. -/
def twHops : Nat → Nat → List Nat → List (Nat × Nat × Nat)
  | _, _, [] => []
  | x, y, d :: r => (x, y, d) :: (match neighbour x y d with
    | some (x', y') => twHops x' y' r
    | none => [])

/-- Joints that a path crosses. -/
def twJoints (hs : List (Nat × Nat × Nat)) : Nat := (hs.filter (fun h => crossesJoint h.1 h.2.1 h.2.2)).length

/-- The derived entries of a path in slot sl: brick, input, word (R216). -/
def twDerived (sl port : Nat) (hs : List (Nat × Nat × Nat)) : List (Nat × Nat × Nat × Word) :=
  hs.zipIdx.filterMap (fun p =>
    match neighbour p.1.1 p.1.2.1 p.1.2.2 with
    | none => none
    | some (x', y') =>
      let w := match (hs[p.2 + 1]?).map (·.2.2) with
        | some d => packW [(31, 1, 1), (27, 3, d), (22, 5, sl)]
        | none => packW [(31, 1, 1), (27, 3, 4), (22, 5, port)]
      some (x', y', facing p.1.2.2, w))

/-! ### Route entries -/

/-- An enabled route-slot entry, at its logical brick; the image offset of its write, or of the word it is derived from. -/
structure REnt where
  x : Nat
  y : Nat
  i : Nat
  sl : Nat
  w : Word
  at_ : Nat
  derived : Bool
  brick : Nat × Nat
  sect : Nat
deriving DecidableEq, Repr

/-- Key of a router slot. -/
def rtKey (x y i sl : Nat) : Nat := ((1104 * y + x) * 5 + i) * 32 + sl

/-- The route-slot entries that the records of an image write, enabled or not. -/
def writtenEnts (bd : Board) (g : Img) : List REnt :=
  g.bricks.flatMap (fun r => r.regs.filterMap (fun p =>
    if 0x300 ≤ p.2.1 ∧ p.2.1 < 0x580 then
      some ⟨bd.x0 + r.bx, bd.y0 + r.by_, (p.2.1 - 0x300) / 0x80, (p.2.1 / 4) % 32, p.2.2, p.1, false, (r.bx, r.by_), r.sect⟩
    else none))

/-- The enabled ones. -/
def ownEnts (bd : Board) (g : Img) : List REnt := (writtenEnts bd g).filter (fun e => bitAt e.w 31)

/-- Does an entry hold a Tirkan route word where R212 lets one stand? -/
def isTw (e : REnt) : Bool := bitAt e.w 30 && e.i == 4 && decide (24 ≤ e.sl)

/-- The hops of an entry's Tirkan route word. -/
def entHops (s : State) (e : REnt) : List (Nat × Nat × Nat) :=
  match twTarget s e.x e.y e.w with
  | .ok (xd, yd) => twHops e.x e.y (twDirs e.x e.y xd yd)
  | .error _ => []

/-- The direction in which the path of an entry's Tirkan route word begins: 4 where it has no hop; none for a refused word (R217). -/
def entFirst (s : State) (e : REnt) : Option Nat :=
  match twTarget s e.x e.y e.w with
  | .ok _ => some (((entHops s e).head?.map (·.2.2)).getD 4)
  | .error _ => none

/-- An entry as the router reads it, in the form of an ordinary one: a Tirkan route word leads where its path begins; a word that is
refused leads nowhere (code 7 of DIR). [DEDUCED log 123] -/
def entWord (s : State) (e : REnt) : Word :=
  if isTw e then
    let d := (entFirst s e).getD 7
    packW [(31, 1, b2n (bitAt e.w 31)), (27, 3, d), (22, 5, if d = 4 then fld e.w 13 3 else e.sl), (11, 2, fld e.w 11 2)]
  else e.w

/-- BRK_RT_TWX of an entry's Tirkan route word (R220). -/
def entTwx (s : State) (e : REnt) : Word :=
  match twTarget s e.x e.y e.w with
  | .error _ => packW [(31, 1, 1)]
  | .ok (xd, yd) =>
    packW [(31, 1, 1), (20, 11, xd), (10, 10, yd), (9, 1, b2n (decide (0 < twJoints (entHops s e)))), (0, 7, (entHops s e).length)]

/-- The derived entries of an entry's Tirkan route word. -/
def entDerived (s : State) (e : REnt) : List REnt :=
  if isTw e then
    (twDerived e.sl (fld e.w 13 3) (entHops s e)).map (fun p =>
      ⟨p.1, p.2.1, p.2.2.1, e.sl, p.2.2.2, e.at_, true, e.brick, e.sect⟩)
  else []

/-- Every entry of an image, with the derived ones. -/
def allEnts (s : State) (bd : Board) (g : Img) : List REnt :=
  let own := ownEnts bd g
  own ++ own.flatMap (entDerived s)

/-- The words by slot, as the routers read them. [DEDUCED log 54] -/
def routeMap (s : State) (es : List REnt) : SMap Word :=
  es.foldl (fun m e => sset 0 m (rtKey e.x e.y e.i e.sl) (entWord s e)) []

/-- The branches of an entry in an image: none of a Tirkan route word that is refused. -/
def entBranches (s : State) (e : REnt) : List Branch :=
  if bitAt e.w 30 && (!isTw e || (entFirst s e).isNone) then [] else branches (entWord s e) e.sl

/-- What a branch leads to: a router slot, a port of its brick (numbers from 10^9 on), or an edge lane. -/
def branchTarget (e : REnt) (br : Branch) : Option Nat :=
  if br.dir = 4 then some (1000000000 + 8 * (1104 * e.y + e.x) + br.next)
  else if br.dir = 5 ∨ br.dir = 6 then none
  else (neighbour e.x e.y br.dir).map (fun p => rtKey p.1 p.2 (facing br.dir) br.next)

/-- How many branches lead to each slot and port. -/
def targetCounts (s : State) (es : List REnt) : SMap Nat :=
  es.foldl (fun m e => (entBranches s e).foldl (fun m br => match branchTarget e br with
    | some k => smod 0 m k (· + 1)
    | none => m) m) []

/-- The role that the EDGE section gives a slot (R400). -/
def roleOf (im : List Byte) (g : Img) (kind : Nat) (south : Bool) (col lane slot : Nat) : Nat :=
  match g.edges.find? (fun p => let w := imW im p.1
      edKind w == kind && edSouth w == south && edCol w == col && edLane w == lane && edSlot w == slot) with
  | some p => edRole (imW im p.1)
  | none => 0

/-- A hop cannot be made: a dead tie, a quarantined in-field link or a dead edge bridge (R200, R204, R615). -/
def hopDead (s : State) (x y d : Nat) : Bool :=
  if d = 5 ∨ d = 6 then (getEdge s (edgeKey x (y != 0))).dead
  else match neighbour x y d with
    | none => true
    | some (x', y') =>
      if fieldOf x y != fieldOf x' y' then
        (getTie s (tieKey x' y' (facing d))).dead || (getTie s (tieKey x y d)).dead
      else (keyOf s x' y').any (fun k => (getB s k).quarLinks.getLsbD (facing d))

/-- The fields of an ordinary entry that break R194 or R205, whatever else the image holds. -/
def entFieldsBad (e : REnt) : Bool :=
  let w := e.w
  let fork := bitAt w 21
  let exists_ := fun (d : Nat) =>
    if d = 0 then e.y != 0 else if d = 1 then e.x != 1103 else if d = 2 then e.y != 559 else if d = 3 then e.x != 0
    else if d = 4 then true else if d < 7 then e.y == 0 || e.y == 559 else false
  !exists_ (fld w 27 3) || (fld w 27 3 == 4 && decide (8 ≤ fld w 22 5))
    || (if fork then !exists_ (fld w 18 3) || fld w 18 3 == fld w 27 3 || (fld w 18 3 == 4 && decide (8 ≤ fld w 13 5))
        else fld w 18 3 != 0 || fld w 13 5 != 0)
    || (e.i != 4 && fld w 11 2 != 0)

/-- A Tirkan route word that breaks R211 or R212. -/
def twFieldsBad (e : REnt) : Bool :=
  !isTw e || fld e.w 0 11 != 0 || (bitAt e.w 29 && fld e.w 23 6 == 0) || (bitAt e.w 22 && fld e.w 16 6 == 0)

/-- REFUSE_ROUTE of the entries that are not enabled: reserved codes, and Tirkan route words that R212 does not allow (R194). [DEDUCED log 54] -/
def offRoutes (bd : Board) (g : Img) : List Breach :=
  ((writtenEnts bd g).filter (fun e => !bitAt e.w 31)).flatMap (fun e =>
    breachIf (if bitAt e.w 30 then twFieldsBad e else fld e.w 27 3 == 7 || fld e.w 18 3 == 7) ⟨cROUTE, e.at_, e.sect, some e.brick⟩)

/-- REFUSE_ROUTE and REFUSE_HERITAGE of one entry. [DEDUCED log 54] -/
def entRoute (s : State) (im : List Byte) (bd : Board) (g : Img) (rt : SMap Word) (cnt : SMap Nat) (e : REnt) : List Breach :=
  let at_ := fun (c : Nat) => (⟨c, e.at_, e.sect, some e.brick⟩ : Breach)
  let bad := fun (c : Bool) => breachIf c (at_ cROUTE)
  let col := e.x - bd.x0
  let tw := bitAt e.w 30
  let here := sget 0 cnt (rtKey e.x e.y e.i e.sl)
  bad (if tw then twFieldsBad e else entFieldsBad e)
  ++ (if isTw e then match twTarget s e.x e.y e.w with
      | .error c => [at_ c]
      | .ok _ =>
        let hs := entHops s e
        breachIf (decide (1 < twJoints hs)) (at_ cHERITAGE)
        ++ bad (hs.any (fun h => hopDead s h.1 h.2.1 h.2.2))
        ++ bad ((entDerived s e).any (fun d =>
            !inRect bd d.x d.y || !g.bricks.any (fun r => r.bx == d.x - bd.x0 && r.by_ == d.y - bd.y0)
              || (ownEnts bd g).any (fun o => rtKey o.x o.y o.i o.sl == rtKey d.x d.y d.i d.sl)
              || (((ownEnts bd g).flatMap (entDerived s)).filter (fun o => rtKey o.x o.y o.i o.sl == rtKey d.x d.y d.i d.sl)).length
                  != 1))
      else [])
  ++ (entBranches s e).flatMap (fun br =>
      bad (if br.dir = 4 then false
        else if br.dir = 5 ∨ br.dir = 6 then
          hopDead s e.x e.y br.dir || roleOf im g 0 (e.y != 0) col (br.dir - 5) br.next == 0
        else match neighbour e.x e.y br.dir with
          | none => true
          | some (x', y') => !inRect bd x' y' || hopDead s e.x e.y br.dir
              || !bitAt (sget 0 rt (rtKey x' y' (facing br.dir) br.next)) 31)
      ++ bad ((branchTarget e br).any (fun k => decide (2 ≤ sget 0 cnt k))))
  ++ bad (if e.i = 4 then here != 0
      else if edgeInput e.y e.i then
        here != 0 || (roleOf im g 1 (e.i == 2) col 0 e.sl == 0 && roleOf im g 1 (e.i == 2) col 1 e.sl == 0)
      else here != 1)

/-- Both lanes of a column port give injection slot s a role (R263). -/
def bothLanes (im : List Byte) (g : Img) : List Breach :=
  g.edges.flatMap (fun p =>
    let w := imW im p.1
    breachIf (edKind w == 1 && edLane w == 1 && edRole w != 0 && roleOf im g 1 (edSouth w) (edCol w) 0 (edSlot w) != 0)
      ⟨cROUTE, p.1, p.2, none⟩)

/-! ### Channels of an image -/

/-- A leaf of a channel in an image: a port of a brick, or an edge lane and slot. -/
inductive ImLeaf where
  | port (x y n : Nat)
  | edge (x y lane slot : Nat)
deriving DecidableEq, Repr

/-- The leaves of a channel from slot sl of input i on. -/
def imLeaves (rt : SMap Word) : Nat → Nat → Nat → Nat → Nat → List ImLeaf
  | 0, _, _, _, _ => []
  | fuel + 1, x, y, i, sl =>
    (branches (sget 0 rt (rtKey x y i sl)) sl).flatMap (fun br =>
      if br.dir = 4 then [.port x y br.next]
      else if br.dir = 5 ∨ br.dir = 6 then [.edge x y (br.dir - 5) br.next]
      else match neighbour x y br.dir with
        | some (x', y') => imLeaves rt fuel x' y' (facing br.dir) br.next
        | none => [])

/-- The local entry of a brick's slot, if it is enabled. -/
def localW (rt : SMap Word) (x y sl : Nat) : Option Word :=
  let w := sget 0 rt (rtKey x y 4 sl)
  if bitAt w 31 then some w else none

/-- The leaves of a local slot's channel. -/
def slotLeaves (rt : SMap Word) (x y sl : Nat) : List ImLeaf := imLeaves rt 4096000 x y 4 sl

/-! ### Senders and owners -/

/-- REFUSE_ROUTE for what programs and streams name (R134, R161, R194, R232, R238). -/
def senderRoute (bd : Board) (g : Img) (rt : SMap Word) : List Breach :=
  g.bricks.flatMap (fun r =>
    let x := bd.x0 + r.bx
    let y := bd.y0 + r.by_
    let b := recBrick r
    r.prog.zipIdx.flatMap (fun p => match (iBOp p.1).bind (fun op => sendsOf op p.1) with
      | some (sl, _) => breachIf (match localW rt x y sl with
          | none => true
          | some w => entrySrc w != (if queOf p.1 == .v then 1 else 0)) (recBreach r cROUTE (wordAt r p.2))
      | none => [])
    ++ (List.range 4).flatMap (fun k => (ctxOps b k).flatMap (fun q => match sSlot q.2.1 q.2.2 with
      | some (sl, _) => breachIf ((match localW rt x y sl with
          | none => true
          | some w => entrySrc w != 2)
          || (q.2.1 == .sfar && !(slotLeaves rt x y sl).all (fun l => match l with | .edge _ _ _ _ => true | _ => false)))
          (recBreach r cROUTE (regAt r (0x680 + 4 * q.1)))
      | none => [])))

/-- REFUSE_PORT_OWNER (R61, R232). -/
def ownerBreaches (s : State) (bd : Board) (g : Img) (es : List REnt) : List Breach :=
  g.bricks.flatMap (fun r =>
    let b := recBrick r
    r.prog.zipIdx.flatMap (fun p => match iBOp p.1 with
      | some op => breachIf ((popsOf op p.1).any (fun n =>
          portOwner b n != (match queOf p.1 with | .s => 1 | .v => 2 | .t => 3))) (recBreach r cPORT (wordAt r p.2))
      | none => [])
    ++ (List.range 4).flatMap (fun k => (ctxOps b k).flatMap (fun q => match sPort q.2.1 q.2.2 with
      | some (n, _) => breachIf (portOwner b n != 4) (recBreach r cPORT (regAt r (0x680 + 4 * q.1)))
      | none => [])))
  ++ es.flatMap (fun e => (entBranches s e).flatMap (fun br =>
      breachIf (br.dir == 4 && !((g.bricks.find? (fun r => bd.x0 + r.bx == e.x && bd.y0 + r.by_ == e.y)).any
        (fun r => portEn (recBrick r) br.next))) ⟨cPORT, e.at_, e.sect, some e.brick⟩))

end Sys2Proof.Machine
end

