-- ==== Sys2Proof/Machine/ImageBind.lean ====
section
/-! DEFINITION. Chromer images: streams, castled buffers, expert queues, pages, Stesy maps, vocabularies, the text interface, grammars,
pieces, and the whole check (R20, R232, R234, R246, R334, R341, R345, R352, R357, R381, R401-R409, R417). -/
namespace Sys2Proof.Machine

/-! ### Streams and castled buffers (R232, R234, R246) -/

/-- The bits that R224 lists for a stream word, besides its opcode, and those that R228 keeps zero in a LAND. [DEDUCED log 53] -/
def stFields : SOp → List (Nat × Nat)
  | .sbase => [(0, 16)]
  | .sloop => [(23, 5), (22, 1), (19, 3), (0, 16)]
  | .sstride => [(26, 2), (0, 16)]
  | .sbank => [(27, 1), (26, 1), (24, 2), (0, 2)]
  | .emit => [(25, 2), (24, 1), (21, 3), (20, 1), (18, 2), (17, 1), (12, 5)]
  | .land => [(27, 1), (25, 2), (24, 1), (21, 3), (17, 1), (12, 3)]
  | .sgather => [(25, 3), (20, 5), (19, 1), (0, 16)]
  | .sfar => [(16, 5)]
  | .sgate => [(25, 3)]
  | .sstop => []

/-- Is castled buffer n declared with context k as its filler? -/
def cbOf (b : Brick) (n k : Nat) : Bool := cbDecl b n && fld (cfgW b (0x620 + 8 * n)) 29 2 == k

/-- A reachable word of context k that breaks R232, R234 or R246. [DEDUCED log 53] -/
def stWordBad (b : Brick) (k : Nat) (op : SOp) (w : Word) : Bool :=
  !onlyFields w ((28, 4) :: stFields op)
  || (match op with
    | .sbase => fld w 0 2 != 0 || decide (0xC000 ≤ fld w 0 16)
    | .sloop => bitAt w 22 && !cbOf b (fld w 19 3) k
    | .emit => decide (2 ≤ fld w 25 2) || (fld w 25 2 == 1 && decide (24 ≤ fld w 12 5))
    | .land => decide (3 ≤ fld w 25 2)
    | .sgather => fld w 0 16 == 0 || (bitAt w 19 && decide (24 ≤ fld w 20 5))
    | _ => false)
  || (sCbr op w).any (fun n => !cbOf b n k)
  || (List.range 4).any (fun j => j != k && (ctxOps b j).any (fun q =>
      (match sPort op w, sPort q.2.1 q.2.2 with | some a, some c => a.1 == c.1 | _, _ => false)
      || (match sSlot op w, sSlot q.2.1 q.2.2 with | some a, some c => a.1 == c.1 | _, _ => false)))

/-- The breaches of R234 in a castled-buffer declaration, by brick offset: CB_A for half 0 and OWNER, CB_B for LEN and half 1. -/
def cbBad (b : Brick) (n : Nat) : List Nat :=
  let len := cbLen b n
  let meet := fun (p q : Nat × Nat) => decide (p.1 < q.1 + q.2 ∧ q.1 < p.1 + p.2)
  let others := (List.range n).flatMap (fun m => if cbDecl b m then (List.range 2).map (fun h => (cbBase b m h, cbLen b m)) else [])
  let half := fun (h : Nat) =>
    let p := (cbBase b n h, len)
    p.1 % 32 != 0 || decide (0xC000 < p.1 + p.2) || others.any (fun q => meet p q)
  let a := half 0 || !bitAt (cfgW b (0x600 + 4 * fld (cfgW b (0x620 + 8 * n)) 29 2)) 31
  let c := len % 32 != 0 || decide (len < 32) || decide (0x6000 < len) || half 1 || meet (cbBase b n 0, len) (cbBase b n 1, len)
  (if a then [0x620 + 8 * n] else []) ++ (if c then [0x624 + 8 * n] else [])

/-- REFUSE_STREAM. -/
def streamBreaches (g : Img) : List Breach :=
  g.bricks.flatMap (fun r =>
    let b := recBrick r
    (List.range 4).flatMap (fun k =>
      (ctxReach b k).flatMap (fun p =>
        breachIf (p.2.2 || (sopOf (stProg b p.1)).any (fun op => stWordBad b k op (stProg b p.1)))
          (recBreach r cSTREAM (regAt r (0x680 + 4 * p.1)))))
    ++ (List.range 8).flatMap (fun n => if cbDecl b n then (cbBad b n).map (fun o => recBreach r cSTREAM (regAt r o)) else []))

/-! ### Expert queues (R334, R341, R345) -/

/-- The channels of an image: first entry and leaf. -/
def feedsOf (rt : SMap Word) (es : List REnt) : List (REnt × ImLeaf) :=
  (es.filter (fun e => e.i == 4 || edgeInput e.y e.i)).flatMap (fun e =>
    (imLeaves rt 4096000 e.x e.y e.i e.sl).map (fun l => (e, l)))

/-- A queue's configuration that breaks R345; `ends` says whether a port of the brick is the end of a channel. -/
def eqBad (b : Brick) (q : Nat) (ends : Nat → Bool) : Bool :=
  let k := eqKind b q
  let slots := eqSlots b q
  let bytes := if slots then 4 * eqNS b q * eqLen b q else 8 * eqNS b q * (eqLen b q - 1)
  let inp := fld (eqB b q) 24 8
  let qs := (List.range 4).filter (fun j => eqEn b j)
  let dp := eqDport b q
  (k != 1 && eqInt b q) || fld (eqA b q) 21 6 == 0 || eqNS b q == 0 || eqBase b q % 4 != 0 || decide (0xC000 < eqBase b q + bytes)
  || (List.range 8).any (fun p => inp.testBit p && portOwner b p != 5)
  || (if k = 3 then dp != 0
      else !(decide (1 ≤ portOwner b dp ∧ portOwner b dp ≤ 4)) || qs.any (fun j => (fld (eqB b j) 24 8).testBit dp)
        || qs.any (fun j => j != q && eqKind b j != 3 && eqDport b j == dp) || ends dp)
  || (if k = 1 ∨ k = 2 then eqCount b q == 0 else eqCount b q != 0)
  || (k == 3 && (scTsize b == 0 || decide (0xC000 < scTbase b + 4 * scTsize b)))

/-- REFUSE_EXPERT. [DEDUCED log 54] -/
def expertBreaches (bd : Board) (g : Img) (rt : SMap Word) (es : List REnt) (feeds : List (REnt × ImLeaf)) : List Breach :=
  let recOf := fun (x y : Nat) => g.bricks.find? (fun r => bd.x0 + r.bx == x && bd.y0 + r.by_ == y)
  g.bricks.flatMap (fun r =>
    let b := recBrick r
    let x := bd.x0 + r.bx
    let y := bd.y0 + r.by_
    let into := fun (p : Nat) => feeds.filter (fun f => f.2 == ImLeaf.port x y p)
    (List.range 4).flatMap (fun q =>
      if !eqEn b q then []
      else
        let inps := (List.range 8).filter (fun p => (fld (eqB b q) 24 8).testBit p)
        breachIf (eqBad b q (fun p => !(into p).isEmpty)
          || (eqKind b q == 3 && !eqScatter b q)
          || inps.any (fun p => (into p).any (fun f =>
              if eqScatter b q then
                !(edgeInput f.1.y f.1.i && f.1.i != 4) && entrySrc f.1.w != 3
                  && !(f.1.x == x && f.1.y == y && decide (entrySrc f.1.w < 2))
              else f.1.i == 4 && entrySrc f.1.w == 3)))
          (recBreach r cEXPERT (regAt r (0x240 + 0x10 * q))))
    ++ (List.range 8).flatMap (fun p =>
      breachIf (portOwner b p == 5
        && ((List.range 4).filter (fun q => eqEn b q && (fld (eqB b q) 24 8).testBit p)).length != 1)
        (recBreach r cEXPERT (regAt r (0x200 + 4 * p)))))
  ++ es.flatMap (fun e =>
      breachIf (e.i == 4 && entrySrc e.w == 3 && (decide (24 ≤ e.sl) || (slotLeaves rt e.x e.y e.sl).any (fun l => match l with
        | .edge _ _ _ _ => false
        | .port x y n => !(recOf x y).any (fun r => (eqOfPort (recBrick r) n).any (fun q => eqScatter (recBrick r) q)))))
        ⟨cEXPERT, e.at_, e.sect, some e.brick⟩)

/-! ### Bindings -/

/-- Does [o, o+n) lie inside a BLOB section? -/
def inBlob (g : Img) (o n : Nat) : Bool := g.sects.any (fun v => v.typ == 6 && decide (v.ofs ≤ o ∧ o + n ≤ v.ofs + v.len))

/-- A LEXICON record (R402). -/
structure LexRec where
  ofs : Nat
  sect : Nat
  chan : Nat
  flags : Word
  limit : Nat
  voff : Nat
  vlen : Nat
  va : Nat
  ingress : Word
  stops : List Nat
deriving DecidableEq, Repr

def lexRec (im : List Byte) (p : Nat × Nat) : LexRec :=
  let f := imW im p.1
  { ofs := p.1, sect := p.2, chan := fld f 0 3, flags := f, limit := imNum im (p.1 + 4) 3, voff := imNum im (p.1 + 8) 8
    vlen := imNum im (p.1 + 0x10) 4, va := imNum im (p.1 + 0x14) 4 + 2 ^ 32 * imNum im (p.1 + 0x18) 2
    ingress := imW im (p.1 + 0x1C), stops := (List.range (fld f 16 5)).map (fun k => imNum im (p.1 + 0x20 + 4 * k) 4) }

/-- A GRAMMAR record (R403). -/
structure GramRec where
  ofs : Nat
  sect : Nat
  chan : Nat
  enable : Bool
  start : Nat
  med : Nat
  va : Nat
  glen : Nat
  goff : Nat
deriving DecidableEq, Repr

def gramRec (im : List Byte) (p : Nat × Nat) : GramRec :=
  let f := imW im p.1
  { ofs := p.1, sect := p.2, chan := fld f 0 3, enable := bitAt f 7, start := fld f 8 12, med := fld f 20 4
    va := imNum im (p.1 + 4) 4 + 2 ^ 32 * imNum im (p.1 + 8) 2, glen := imNum im (p.1 + 0xC) 4, goff := imNum im (p.1 + 0x10) 8 }

/-- The channel that a record names, if the Slate gave it to board b. -/
def boardChan (s : State) (b c : Nat) : Option Chan :=
  let ch := getCh s (b / 4) c
  if ch.en && ch.board == b then some ch else none

/-- The fields of a LEXICON record that a resident placement keeps zero (R402). [DEDUCED log 51] -/
def residentForm (s : State) (b : Nat) (ls : List LexRec) : List Breach :=
  ls.flatMap (fun l => breachIf ((boardChan s b l.chan).any (fun ch => !ch.cached) && l.va != 0) ⟨cFORMAT, l.ofs + 0x14, l.sect, none⟩)

/-- The frame of a page of board b in MED m, as the loader translates it (R404): the READ_ONLY check left out. -/
def pageFrame (s : State) (b m page : Nat) : Option Nat :=
  if 8 ≤ m ∨ 2 ^ 27 ≤ page then none
  else match translate (getMed s m) (quotaW s m b) (page * 2 ^ 21) none false with
    | .ok pa => some (pa / 2 ^ 21)
    | .error _ => none

/-- The spans of MED memory that the loader writes: image offset of the record's VA, section, MED, VA, length, image offset of
the bytes. -/
def loadSpans (s : State) (b : Nat) (g : Img) (ls : List LexRec) (gs : List GramRec) : List (Nat × Nat × Nat × Nat × Nat × Nat) :=
  g.drams.map (fun r => (r.ofs + 4, r.sect, r.med, r.va, r.len, r.ofs + 0x20))
  ++ ls.filterMap (fun l => match boardChan s b l.chan with
    | some ch => if ch.cached then some (l.ofs + 0x14, l.sect, ch.med, l.va, l.vlen, l.voff) else none
    | none => none)
  ++ gs.map (fun r => (r.ofs + 4, r.sect, r.med, r.va, r.glen, r.goff))

/-- The pages that a span touches. -/
def spanPages (va n : Nat) : List Nat :=
  if n = 0 then [] else (List.range ((va + n - 1) / 2 ^ 21 + 1 - va / 2 ^ 21)).map (fun i => va / 2 ^ 21 + i)

/-- REFUSE_PAGES. -/
def pageBreaches (s : State) (b : Nat) (g : Img) (spans : List (Nat × Nat × Nat × Nat × Nat × Nat)) : List Breach :=
  g.pages.zipIdx.flatMap (fun p => breachIf (decide (pfnCount (quotaW s p.2 b) - 1 < p.1)) ⟨cPAGES, 0x40 + 4 * p.2, 0xFF, none⟩)
  ++ spans.flatMap (fun q => breachIf ((spanPages q.2.2.2.1 q.2.2.2.2.1).any (fun pg => (pageFrame s b q.2.2.1 pg).isNone))
      ⟨cPAGES, q.1, q.2.1, none⟩)

/-- Fields of a STESY record (R405). -/
def stChan (im : List Byte) (o : Nat) : Nat := imNum im o 2
def stIn (im : List Byte) (o : Nat) : Bool := bitAt (imW im o) 16
def stPeer (im : List Byte) (o : Nat) : Nat := imNum im (o + 8) 2

/-- REFUSE_STESY. -/
def stesyBreaches (im : List Byte) (bd : Board) (g : Img) : List Breach :=
  g.stesy.zipIdx.flatMap (fun p =>
    let o := p.1.1
    let w := imW im o
    let role := roleOf im g (b2n (stIn im o)) (bitAt w 17) (fld (imW im (o + 4)) 0 11) (fld w 18 1) (fld w 19 5)
    breachIf (decide (bd.stesyCh ≤ p.2) || fld w 24 8 != 0 || decide (2048 ≤ imNum im (o + 4) 4) || decide (65536 ≤ imNum im (o + 8) 4)
      || imNum im (o + 0xC) 4 != 0 || role != (if stIn im o then 2 else 3)
      || (g.stesy.take p.2).any (fun q => stChan im q.1 == stChan im o) || decide (g.pieces ≤ stPeer im o) || stPeer im o == g.piece)
      ⟨cSTESY, o, p.1.2, none⟩)

/-! ### Vocabularies (R352, R355-R357) -/

/-- A scratch state whose HED0 SRAM holds bytes from 0 on: tables are read there as anywhere. -/
def scratch (bs : List Byte) : State := setHed {} 0 (hedPut {} 0 bs)

/-- The nodes of a trie whose token has not the string of the path to it (R357); `fuel` bounds the depth. -/
def trieAt (s : State) (ot oe v : Nat) : Nat → Nat → List Byte → List Nat
  | 0, _, _ => []
  | fuel + 1, node, path =>
    let src := TSrc.sram 0 0
    let rd := fun (o n : Nat) => (tabRead s src {} o n).2
    let w0 := rd (ot + 8 * node) 4
    let w1 := rd (ot + 8 * node + 4) 4
    (if nfld w0 31 1 = 1 ∧ (v ≤ nfld w0 0 22 ∨ (tokString s src {} (nfld w0 0 22)).2 ≠ path) then [ot + 8 * node] else [])
      ++ (List.range (nfld w1 23 9)).flatMap (fun i =>
        let e := rd (oe + 4 * (nfld w1 0 23 + i)) 4
        trieAt s ot oe v fuel (nfld e 0 24) (path ++ [BitVec.ofNat 8 (nfld e 24 8)]))

/-- Breaches of a vocabulary's header (R352, R355), by offset; `room` is the size of the resident region. -/
def vocabHead (bs : List Byte) (cached : Bool) (room : Nat) : List Nat :=
  let w := fun (o : Nat) => imNum bs o 4
  let bad := fun (c : Bool) (o : Nat) => if c then [o] else []
  let nb := w 0x14
  bad (decide (bs.length < 64) || decide (room < bs.length) || w 0 != 0x3156584C) 0
  ++ bad (w 4 == 0 || decide ((if cached then 4194304 else 131072) < w 4)) 4
  ++ bad (!(w 8 % 4 == 1 || w 8 % 4 == 2) || w 8 / 4 % 64 != 0 || decide (512 ≤ w 8)) 8
  ++ bad (nb == 0 || decide ((if cached then 2 ^ 23 else 2 ^ 18) < nb) || (w 8 % 4 == 1 && nb &&& (nb - 1) != 0)) 0x14
  ++ [0x18, 0x1C, 0x20, 0x24, 0x28, 0x30, 0x34].flatMap (fun o => bad (w o % 64 != 0) o)
  ++ bad (decide ((if cached then 33554432 else 1572864) < w 0x2C)) 0x2C
  ++ bad (w 8 % 4 == 1 && w 0x34 != 0) 0x34 ++ bad (imNum bs 0x38 8 != 0) 0x38

/-- Sections of a vocabulary that do not lie inside it (R357). [DEDUCED log 52] -/
def vocabSects (bs : List Byte) : List Nat :=
  let w := fun (o : Nat) => imNum bs o 4
  [(0x18, 256), (0x1C, 32), (0x20, 1024), (0x24, 8 * w 4), (0x28, w 0x2C),
   (0x30, (if w 8 % 4 = 1 then 4 else 8) * w 0x14)].filterMap (fun p => if bs.length < w p.1 + p.2 then some p.1 else none)

/-- Breaches of the hash table (R357, R360). -/
def vocabHash (bs : List Byte) (s : State) : List Nat :=
  let src := TSrc.sram 0 0
  let w := fun (o : Nat) => imNum bs o 4
  let str := fun (t : Nat) => (tokString s src {} t).2
  let es := (List.range (w 0x14)).filterMap (fun i =>
    let e := w (w 0x30 + 4 * i)
    if nfld e 31 1 = 1 then some (w 0x30 + 4 * i, nfld e 0 22, str (nfld e 0 22)) else none)
  (if es.length = w 0x14 then [0x30] else [])
  ++ es.zipIdx.filterMap (fun p =>
    if w 4 ≤ p.1.2.1 ∨ (lookup s src {} p.1.2.2).2 ≠ some p.1.2.1 ∨ (es.take p.2).any (fun q => q.2.2 == p.1.2.2)
    then some p.1.1 else none)

/-- Breaches of the trie (R357): edges outside the tables, edges to no node or to a node already reached, wrong tokens. -/
def vocabTrie (bs : List Byte) (s : State) : List Nat :=
  let w := fun (o : Nat) => imNum bs o 4
  let nb := w 0x14
  let node := fun (n : Nat) => w (w 0x30 + 8 * n + 4)
  let outside := (List.range nb).filterMap (fun n =>
    let x := node n
    if 0 < nfld x 23 9 ∧ bs.length < w 0x34 + 4 * (nfld x 0 23 + nfld x 23 9) then some (w 0x30 + 8 * n + 4) else none)
  if !outside.isEmpty then outside
  else
    let kids := (List.range nb).flatMap (fun n =>
      (List.range (nfld (node n) 23 9)).map (fun i =>
        let o := w 0x34 + 4 * (nfld (node n) 0 23 + i)
        (o, nfld (w o) 0 24)))
    let badKids := kids.zipIdx.filterMap (fun p =>
      if nb ≤ p.1.2 ∨ p.1.2 = 0 ∨ (kids.take p.2).any (fun q => q.2 == p.1.2) then some p.1.1 else none)
    if !badKids.isEmpty then badKids else trieAt s (w 0x30) (w 0x34) (w 4) (nb + 1) 0 []

/-- The breaches of R352, R355 and R357 in a vocabulary's bytes, by offset from its header; what cannot be read past an earlier
breach is not looked at. -/
def vocabBad (bs : List Byte) (cached : Bool) (room : Nat) (startEn : Bool) : List Nat :=
  let s := scratch bs
  let src := TSrc.sram 0 0
  let w := fun (o : Nat) => imNum bs o 4
  let v := w 4
  let h := vocabHead bs cached room
  if !h.isEmpty then h
  else if !(vocabSects bs).isEmpty then vocabSects bs
  else
    let strs := (List.range v).filterMap (fun t =>
      let x := (tokIndex s src {} t).2.1
      if x.1 ≤ 64 ∧ x.2 + x.1 ≤ w 0x2C then none else some (w 0x24 + 8 * t))
    (if (w 8).testBit 8 ∧ v ≤ w 0xC then [0xC] else []) ++ (if startEn ∧ v ≤ w 0x10 then [0x10] else []) ++ strs
    ++ (if !strs.isEmpty then []
      else
        (List.range 256).filterMap (fun c =>
          let e := w (w 0x20 + 4 * c)
          if nfld e 31 1 = 1 ∧ (v ≤ nfld e 0 22 ∨ (tokString s src {} (nfld e 0 22)).2 ≠ [BitVec.ofNat 8 c]) then some (w 0x20 + 4 * c)
          else none)
        ++ (if w 8 % 4 = 1 then vocabHash bs s else vocabTrie bs s))

/-- The section that holds an image offset: the BLOB section, for tables. -/
def sectAt (g : Img) (o : Nat) : Nat :=
  match g.sects.find? (fun v => decide (v.ofs ≤ o ∧ o < v.ofs + v.len)) with
  | some v => v.ix
  | none => 0xFF

/-- REFUSE_VOCAB. -/
def vocabBreaches (s : State) (b : Nat) (im : List Byte) (g : Img) (ls : List LexRec) : List Breach :=
  ls.zipIdx.flatMap (fun p =>
    let l := p.1
    match boardChan s b l.chan with
    | none => []
    | some ch =>
      let room := if ch.cached then l.vlen else ch.regLen
      let shared := (ls.take p.2).any (fun q => (boardChan s b q.chan).any (fun ch' =>
        ch'.cached == ch.cached && (if ch.cached then ch'.med == ch.med else ch'.regOfs == ch.regOfs)
          && !(q.voff == l.voff && q.vlen == l.vlen && q.va == l.va)))
      breachIf (!inBlob g l.voff l.vlen || shared) ⟨cVOCAB, l.ofs + 8, l.sect, none⟩
      ++ (if !inBlob g l.voff l.vlen then []
        else (vocabBad ((im.drop l.voff).take l.vlen) ch.cached room (bitAt l.flags 10)).map (fun o =>
          ⟨cVOCAB, l.voff + o, sectAt g (l.voff + o), none⟩)))

/-! ### Text interface (R20, R401, R402, R406) -/

/-- Fields of an endpoint word (R401). -/
def epSlot (w : Word) : Nat := fld w 13 5
def epLane (w : Word) : Nat := fld w 12 1
def epSouth (w : Word) : Bool := bitAt w 11
def epCol (w : Word) : Nat := fld w 0 11

/-- The section of a type, if the image has one: breaches that its presence makes. -/
def sectPresent (g : Img) (typ code : Nat) : List Breach :=
  (g.sects.filter (fun v => v.typ == typ)).map (fun v => ⟨code, v.ofs, v.ix, none⟩)

/-- REFUSE_TEXT. [DEDUCED log 52, DEDUCED log 54] -/
def textBreaches (s : State) (b : Nat) (im : List Byte) (bd : Board) (g : Img) (rt : SMap Word) (es : List REnt) (ls : List LexRec) :
    List Breach :=
  let gram := !g.gram.isEmpty
  let begins := fun (w : Word) =>
    bitAt (sget 0 rt (rtKey (bd.x0 + epCol w) (if epSouth w then 559 else 0) (if epSouth w then 2 else 0) (epSlot w))) 31
  let ends := fun (w : Word) => es.any (fun e => e.x == bd.x0 + epCol w && (e.y == (if epSouth w then 559 else 0))
    && (entBranches s e).any (fun br => br.dir == 5 + epLane w && br.next == epSlot w))
  if !g.home then sectPresent g 3 cTEXT ++ sectPresent g 4 cTEXT
  else
    (if g.text.isEmpty then [⟨cTEXT, 0x24, 0xFF, none⟩] else [])
    ++ g.text.flatMap (fun p =>
      let bad := fun (c : Bool) (d : Nat) => breachIf c ⟨cTEXT, p.1 + d, p.2, none⟩
      let ing := imW im p.1
      let ret := imW im (p.1 + 4)
      let msk := imW im (p.1 + 8)
      let inj := fun (w : Word) => roleOf im g 1 (epSouth w) (epCol w) (epLane w) (epSlot w) == 2 && begins w
      bad (!bitAt ing 31 || fld ing 18 13 != 0 || !inj ing) 0
      ++ bad (!bitAt ret 31 || fld ret 18 13 != 0 || roleOf im g 0 (epSouth ret) (epCol ret) (epLane ret) (epSlot ret) != 3 || !ends ret) 4
      ++ bad (bitAt msk 31 != gram || fld msk 18 13 != 0 || (bitAt msk 31 && !inj msk)) 8
      ++ bad (decide (2 ^ 18 ≤ imNum im (p.1 + 0xC) 4) || (!bitAt msk 31 && imNum im (p.1 + 0xC) 4 != 0)) 0xC
      ++ bad (imNum im (p.1 + 0x10) 16 != 0) 0x10)
    ++ ls.zipIdx.flatMap (fun p =>
      breachIf ((boardChan s b p.1.chan).isNone || (ls.take p.2).any (fun q => q.chan == p.1.chan)) ⟨cTEXT, p.1.ofs, p.1.sect, none⟩
      ++ breachIf (!g.text.any (fun t => imW im t.1 == p.1.ingress)) ⟨cTEXT, p.1.ofs + 0x1C, p.1.sect, none⟩)

/-! ### Grammars (R379-R381) -/

/-- A token set at an offset of the set area: its tokens as bits, or none where it breaks R380 or R381. -/
def setBits (bs : List Byte) (base o bytes v : Nat) : Option Nat :=
  let n := imNum bs (base + o) 4
  if o % 4 ≠ 0 ∨ n = 0 ∨ bytes < o + 4 + 4 * n then none
  else
    let runs := (List.range n).map (fun i => imNum bs (base + o + 4 + 4 * i) 4)
    let r := runs.foldl (fun (a : Nat × Nat × Bool × Option Nat) w =>
      let len := nfld w 0 23
      let bit := nfld w 31 1
      (a.1 ||| (if bit = 1 then (2 ^ len - 1) <<< a.2.1 else 0), a.2.1 + len,
        a.2.2.1 && len != 0 && nfld w 23 8 == 0 && a.2.2.2 != some bit, some bit)) (0, 0, true, none)
    if r.2.1 = v ∧ r.2.2.1 then some r.1 else none

/-- Breaches of a grammar's header (R379), by offset; V of the channel's vocabulary. -/
def gramHead (bs : List Byte) (vv : Nat) : List Nat :=
  let w := fun (o : Nat) => imNum bs o 4
  let bad := fun (c : Bool) (o : Nat) => if c then [o] else []
  let inside := fun (o n : Nat) => decide (o % 64 = 0 ∧ o + n ≤ bs.length)
  bad (decide (bs.length < 64) || w 0 != 0x31574750) 0 ++ bad (w 4 == 0 || decide (4096 < w 4)) 4
  ++ bad (w 8 == 0 || decide (65536 < w 8)) 8 ++ bad (w 0xC != vv) 0xC ++ bad (!inside (w 0x10) (8 * w 4)) 0x10
  ++ bad (!inside (w 0x14) (8 * w 8)) 0x14 ++ bad (!inside (w 0x18) (w 0x1C)) 0x18 ++ bad (decide (16777216 < w 0x1C)) 0x1C
  ++ bad (imNum bs 0x20 32 != 0) 0x20

/-- The breaches of R379 to R381 in a grammar's tables, by offset from its header: V of the channel's vocabulary. -/
def gramBad (bs : List Byte) (vv : Nat) : List Nat :=
  let w := fun (o : Nat) => imNum bs o 4
  let bad := fun (c : Bool) (o : Nat) => if c then [o] else []
  if !(gramHead bs vv).isEmpty then gramHead bs vv
  else
    let ns := w 4
    let nt := w 8
    let ts := (List.range nt).map (fun i => (w (w 0x14 + 8 * i), w (w 0x14 + 8 * i + 4)))
    let sets := ts.map (fun t => setBits bs (w 0x18) t.2 (w 0x1C) vv)
    ts.zipIdx.flatMap (fun p =>
      let t := p.1.1
      let act := nfld t 30 2
      bad (act == 3 || nfld t 24 6 != 0 || (if act = 2 then nfld t 12 12 != 0 else decide (ns ≤ nfld t 12 12))
        || (if act = 1 then decide (ns ≤ nfld t 0 12) else nfld t 0 12 != 0)) (w 0x14 + 8 * p.2))
    ++ sets.zipIdx.flatMap (fun p => bad p.1.isNone (w 0x14 + 8 * p.2 + 4))
    ++ (List.range ns).flatMap (fun q =>
      let o := w 0x10 + 8 * q
      let a := w o
      let n := w (o + 4)
      let mine := ((sets.drop (nfld a 0 16)).take n).map (fun m => m.getD 0)
      bad (nfld a 16 14 != 0 || decide (256 < n) || decide (nt < nfld a 0 16 + n)
        || mine.zipIdx.any (fun p => (mine.take p.2).any (fun m => m &&& p.1 != 0))) o)

/-- V of the vocabulary that a LEXICON record supplies. -/
def lexV (im : List Byte) (l : LexRec) : Nat := imNum im (l.voff + 4) 4

/-- REFUSE_GRAMMAR. -/
def gramBreaches (im : List Byte) (g : Img) (ls : List LexRec) (gs : List GramRec) : List Breach :=
  let w := (g.text.head?.map (fun t => imNum im (t.1 + 0xC) 4 % 2 ^ 18)).getD 0
  gs.zipIdx.flatMap (fun p =>
    let r := p.1
    let bad := fun (c : Bool) (d : Nat) => breachIf c ⟨cGRAMMAR, r.ofs + d, r.sect, none⟩
    bad ((gs.take p.2).any (fun q => q.chan == r.chan) || ls.any (fun l => decide (32 * w < lexV im l))) 0
    ++ bad (!inBlob g r.goff r.glen) 0x10
    ++ (match ls.find? (fun l => l.chan == r.chan) with
      | none => bad true 0
      | some l =>
        let bs := (im.drop r.goff).take r.glen
        if !inBlob g r.goff r.glen then []
        else
          bad (decide (imNum bs 4 4 ≤ r.start)) 0
          ++ (gramBad bs (lexV im l)).map (fun o => ⟨cGRAMMAR, r.goff + o, sectAt g (r.goff + o), none⟩)))

/-! ### Pieces (R406, R417) -/

/-- REFUSE_PIECE within one piece; `pm` is the piece map. -/
def pieceBreaches (s : State) (b : Nat) (g : Img) (pm : List Word) : List Breach :=
  let e := (pm[g.piece]?).getD 0
  (if g.pieces = 1 then breachIf (!g.home) ⟨cPIECE, 0x24, 0xFF, none⟩ ++ sectPresent g 8 cPIECE
   else breachIf (fld e 4 15 != s.wafer || fld e 0 4 != b || !(decide (pm.map (fun w => fld w 4 15)).Nodup)) ⟨cPIECE, 0, 0xFF, none⟩)
  ++ (if g.home then [] else sectPresent g 5 cPIECE)

/-! ### The whole check -/

/-- The piece map as the loader reads it: none where it cannot be read or breaks R417. -/
def readPmap (pieces : Nat) (pmap : Option (List Byte)) : Option (List Word) :=
  if pieces ≤ 1 then some []
  else match pmap with
    | none => none
    | some bs =>
      let ws := (List.range pieces).map (fun p => imW bs (4 * p))
      if bs.length = 4 * pieces ∧ ws.all (fun w => onlyFields w [(4, 15), (0, 4)]) then some ws else none

/-- Every breach that the check pass finds for board b's image (R408): those of form first, since nothing else can be read
past them. [DEDUCED log 49] -/
def imageBreaches (s : State) (b : Nat) (im : List Byte) (pmap : Option (List Byte)) : List Breach :=
  let bd := getBd s b
  let head := headerForm im
  if !head.isEmpty then head
  else if !(tableForm im).isEmpty then tableForm im
  else
    let g := parseImg im
    let ls := g.lex.map (lexRec im)
    let gs := g.gram.map (gramRec im)
    match readPmap g.pieces pmap with
    | none => [⟨cFORMAT, 0, 0xFF, none⟩]
    | some pm =>
      let form := sectionForm im g ++ residentForm s b ls
      if !form.isEmpty then form
      else
        let es := allEnts s bd g
        let rt := routeMap s es
        checksums im g.sects ++ fitBricks bd g ++ fitBacked s bd ++ fitProgram g ++ fitSram g ++ fitSlots im bd g ++ fitBarriers g
        ++ pageBreaches s b g (loadSpans s b g ls gs) ++ stesyBreaches im bd g ++ vocabBreaches s b im g ls ++ encodingBreaches g
        ++ offRoutes bd g ++ es.flatMap (entRoute s im bd g rt (targetCounts s es)) ++ bothLanes im g ++ senderRoute bd g rt
        ++ ownerBreaches s bd g es ++ streamBreaches g ++ expertBreaches bd g rt es (feedsOf rt es)
        ++ textBreaches s b im bd g rt es ls ++ gramBreaches im g ls gs ++ pieceBreaches s b g pm

/-- The lengths that a load list of n entries names: an 8-byte host address and an 8-byte length each, both multiples of 8, the
length at least 8 (R417); none where the list cannot be read or breaks the rule. -/
def readList (n : Nat) (list : Option (List Byte)) : Option (List Nat) :=
  match list with
  | none => none
  | some bs =>
    let lens := (List.range n).map (fun i => imNum bs (16 * i + 8) 8)
    if n = 0 ∨ 65536 < n ∨ bs.length ≠ 16 * n ∨ lens.any (fun v => v % 8 != 0 || decide (v < 8))
        ∨ (List.range n).any (fun i => imNum bs (16 * i) 8 % 8 != 0) then none
    else some lens

/-- The load list of board b, as the loader reads it. -/
def loadList (s : State) (b : Nat) (list : Option (List Byte)) : Option (List Nat) :=
  readList (((getBd s b).loadArgs[2]?).getD 0).toNat list

/-- The breach that a load's check pass reports, if the image is refused; a load list that cannot be read, or breaks R417, is one
of form. -/
def imageRefusal (s : State) (b : Nat) (list : Option (List Byte)) (im : List Byte) (pmap : Option (List Byte)) : Option Breach :=
  match loadList s b list with
  | none => some ⟨cFORMAT, 0, 0xFF, none⟩
  | some _ => firstBreach (imageBreaches s b im pmap)

end Sys2Proof.Machine
end

