-- ==== Sys2Proof/Machine/ImageLoad.lean ====
section
/-! DEFINITION. Loading: the end of the check pass and of the write pass, assembly of an image's pieces (R399-R405, R410-R412,
R418-R420, R426-R429, R439, R443, R591, R593, R600, R601). -/
namespace Sys2Proof.Machine

/-! ### Check pass -/

/-- The refusal registers of a breach (R412). -/
def refuseWith (bd : Board) (r : Breach) : Board :=
  setRefusal bd (packW [(31, 1, 1), (8, 8, r.sect), (0, 8, r.code)])
    (match r.brick with
      | some (bx, by_) => packW [(31, 1, 1), (16, 11, bx), (0, 10, by_)]
      | none => 0)
    (BitVec.ofNat 32 r.ofs) (BitVec.ofNat 32 (r.ofs / 2 ^ 32 % 2 ^ 16))

/-- The frames of the pages that the loader writes, as translated in the check pass: MED, page, PFN (R404). -/
def framesOf (s : State) (b : Nat) (spans : List (Nat × Nat × Nat × Nat × Nat × Nat)) : List (Nat × Nat × Nat) :=
  spans.flatMap (fun q => (spanPages q.2.2.2.1 q.2.2.2.2.1).filterMap (fun pg =>
    (pageFrame s b q.2.2.1 pg).map (fun f => (q.2.2.1, pg, f))))

/-- The image is the concatenation of what the load list's entries name (R417). -/
def listCovers (s : State) (b : Nat) (list : Option (List Byte)) (im : List Byte) : Bool :=
  match loadList s b list with
  | none => true
  | some lens => lens.foldl (· + ·) 0 == im.length

/-- LOAD_CHECK_PASS_END (R417, R418): the image is refused and the board is EMPTY, or the write pass begins. The pass has not ended
before every byte that the list names is read (R558); its end is signalled (R573). [DEDUCED log 55, DESIGN CHOICE log 110] -/
def checkPassEnd (b : Nat) (list : Option (List Byte)) (im : List Byte) (pmap : Option (List Byte)) (s : State) : Option State :=
  let bd := getBd s b
  if bd.st ≠ .loading ∨ bd.loadPass ≠ 1 ∨ !fnMaster s bd.loadFn ∨ !listCovers s b list im then none
  else match imageRefusal s b list im pmap with
    | some r => some (sigBoard (setBd s b { refuseWith bd r with st := .empty, loadPass := 0, loadArgs := [], progBytes := im.length }) b)
    | none =>
      let g := parseImg im
      some (setBd s b { bd with
        loadPass := 2
        progBytes := 0
        progPass := true
        loadHead := im.take (0x80 + 32 * g.sects.length)
        loadPages := framesOf s b (loadSpans s b g (g.lex.map (lexRec im)) (g.gram.map (gramRec im)))
        pieceMap := (readPmap g.pieces pmap).getD [] })

/-! ### What loading writes -/

/-- HALT, which the loader writes at word 0 of a relay (R399). -/
def relayWord : DWord := 0x33F0000000000000

/-- The counters that loading a brick clears: contract counters, stream elements, retries and corrected link flits (R438). -/
def keptCnt (i : Nat) : Bool := i == cSecPmem || i == cSecSram

/-- A brick as a record leaves it (R399, R162, R221, R235, R299, R344, R438). [DEDUCED log 57] -/
def loadBrick (im : List Byte) (r : BRec) (old : Brick) : Brick :=
  let words := if r.prog.isEmpty then [relayWord] else r.prog
  let b : Brick := { recBrick r with
    st := .loaded
    wrIgnored := old.wrIgnored
    pmem := words.zipIdx.foldl (fun m p => sset 0 m p.2 p.1) []
    pmemAddr := old.pmemAddr
    pmemLoHold := old.pmemLoHold
    pmemHiShadow := old.pmemHiShadow
    sram := r.segs.foldl (fun m g => writeBytes 0 m g.2.1 ((im.drop (g.1 + 8)).take g.2.2)) []
    sramAddr := old.sramAddr
    g := old.g
    p := old.p
    v := old.v
    nf := old.nf
    useT := old.useT
    used := old.used
    obs := old.obs.filter (fun p => !(([0xC00, 0xC04, 0x8AC, 0x8FC, 0x830, 0x110, 0x114, 0x118, 0x11C] : List Nat).contains p.1))
    cnt := old.cnt.filter (fun p => keptCnt p.1)
    bridgeDead := old.bridgeDead
    quarLinks := old.quarLinks
    linkFaults := old.linkFaults
    hist := old.hist
    dedWords := old.dedWords
    missed := old.missed }
  let b1 := (List.range 8).foldl (fun b n => if cbDecl b n then { b with cb := smod {} b.cb n (fun c => { c with rd := 1 }) } else b) b
  (List.range 4).foldl (fun b q => setEq b q (eqFresh b q)) b1

/-- The initial credits of a branch of an enabled entry of (x, y) (R184). -/
def branchCredits (x y : Nat) (br : Branch) : Nat :=
  if br.dir = 4 then 4
  else if br.dir = 5 ∨ br.dir = 6 then edgeCap br.next
  else if crossesJoint x y br.dir then tieCap br.next else slotCap br.next

/-- A loaded brick with its derived entries and the credits of every branch and of its senders. -/
def giveCredits (x y : Nat) (b : Brick) : Brick :=
  (List.range 160).foldl (fun b ix =>
    if !bitAt (rtEntry b (ix / 32) (ix % 32)) 31 then b
    else
      let b1 := (slotBranches b ix).zipIdx.foldl (fun b p =>
        { b with cred := sset 0 b.cred (credKey ix p.2) (branchCredits x y p.1) }) b
      if ix / 32 = 4 then { b1 with sndCred := sset 0 b1.sndCred (ix % 32) (slotCap (ix % 32)) } else b1) b

/-- The entries of a brick besides its own record's: derived entries are written, Tirkan route words are translated once (R216-R218). -/
def loadEnt (s : State) (b : Brick) (e : REnt) : Brick :=
  if e.derived then setCfg b (rtOfs e.i e.sl) e.w
  else if isTw e then
    let ix := 32 * e.i + e.sl
    { b with twDir := sset 0 b.twDir ix (((entFirst s e).map (· + 1)).getD 0), twx := sset 0 b.twx ix (entTwx s e) }
  else b

/-- Every named brick of the image is loaded, with the derived entries and the translated words of its routes. -/
def loadBricks (im : List Byte) (bd : Board) (g : Img) (s0 : State) : State :=
  let es := allEnts s0 bd g
  let mine := fun (x y : Nat) => es.filter (fun e => e.x == x && e.y == y)
  g.bricks.foldl (fun s r =>
    let x := bd.x0 + r.bx
    let y := bd.y0 + r.by_
    match keyOf s x y with
    | none => s
    | some k => modB s k (fun old =>
        if old.st = .quarantined then old
        else giveCredits x y ((mine x y).foldl (loadEnt s0) (loadBrick im r old)))) s0

/-- The route-slot entries of the board's bricks that no record names are disabled: a router serves only the board's channels (R193,
R399). -/
def clearUnnamed (bd : Board) (g : Img) (s : State) : State :=
  { s with bricks := s.bricks.filterMap (fun p =>
      let x := logX s (p.1 % 1152) (p.1 / 1152)
      let y := p.1 / 1152
      if x.any (fun x => inRect bd x y && !g.bricks.any (fun r => bd.x0 + r.bx == x && bd.y0 + r.by_ == y)) then
        let v : Brick := { p.2 with cfg := disableSlots p.2.cfg }
        if v = Brick.reset then none else some (p.1, v)
      else some p) }

/-! ### Classes (R439, R443) -/

/-- The leaves of every channel that begins in the image: first entry, leaf, whether a joint is crossed. [DEDUCED log 56] -/
def classFeeds (s : State) (es : List REnt) : List (REnt × Leaf × Bool) :=
  (es.filter (fun e => e.i == 4 || edgeInput e.y e.i)).flatMap (fun e =>
    (leaves s e.x e.y e.i e.sl).map (fun l => (e, l.1, l.2)))

/-- A brick at a port is the end of a channel into a SCATTER queue. [DEDUCED log 56] -/
def scatterPort (s : State) (x y n : Nat) : Bool :=
  (keyOf s x y).any (fun k => (eqOfPort (getB s k) n).any (fun q => eqScatter (getB s k) q))

/-- The class registers of a brick, by offset: CLS_PORT, CLS_SLOT, CLS_SENT, CLS_CB. -/
def classWords (s : State) (fs : List (REnt × Leaf × Bool)) (x y : Nat) (b : Brick) : List (Nat × Word) :=
  let elastic := fun (f : REnt × Leaf × Bool) => f.2.2 || (edgeInput f.1.y f.1.i && f.1.i != 4) || (match f.2.1 with
    | .edge _ _ _ _ => true
    | _ => false)
  -- A channel that crosses a joint or an edge port on the way to any leaf makes every port that it feeds elastic (R44, R204).
  let fed := fun (n : Nat) => fs.any (fun f => f.2.1 == Leaf.port x y n && fs.any (fun g => g.1 == f.1 && elastic g))
  let qs := (List.range 4).filter (fun q => eqEn b q)
  let inOf := fun (q n : Nat) => (fld (eqB b q) 24 8).testBit n
  let dpEl := fun (n : Nat) => qs.any (fun q => eqKind b q != 3 && eqDport b q == n
    && (eqScatter b q || (List.range 8).any (fun p => inOf q p && fed p)))
  let portEl := fun (n : Nat) => fed n || dpEl n || qs.any (fun q => eqScatter b q && inOf q n)
  let own := fun (sl : Nat) => fs.filter (fun f => f.1.x == x && f.1.y == y && f.1.i == 4 && f.1.sl == sl)
  let toSc := fun (sl : Nat) => (own sl).any (fun f => match f.2.1 with
    | .port x' y' n => scatterPort s x' y' n
    | _ => false)
  let src3 := fun (sl : Nat) => bitAt (rtEntry b 4 sl) 31 && entrySrc (rtEntry b 4 sl) == 3
  let slotEl := fun (sl : Nat) => src3 sl || toSc sl || (own sl).any elastic
  let recvEl := fun (n : Nat) => qs.any (fun q => eqScatter b q && (inOf q n || (eqKind b q != 3 && eqDport b q == n)))
  let cbEl := fun (n : Nat) => cbDecl b n
    && (ctxOps b (fld (cfgW b (0x620 + 8 * n)) 29 2)).any (fun q => (sPort q.2.1 q.2.2).any (fun p => fed p.1))
  let bits := fun (n : Nat) (f : Nat → Bool) => (List.range n).foldl (fun (a : Nat) i => a + (if f i then 2 ^ i else 0)) 0
  [(0x110, packW [(8, 8, bits 8 recvEl), (0, 8, bits 8 portEl)]), (0x114, BitVec.ofNat 32 (bits 32 slotEl)),
   (0x118, BitVec.ofNat 32 (bits 32 (fun sl => src3 sl || toSc sl))), (0x11C, BitVec.ofNat 32 (bits 8 cbEl))]

/-- The class registers of every named brick. -/
def loadClasses (bd : Board) (g : Img) (es : List REnt) (s : State) : State :=
  let fs := classFeeds s es
  g.bricks.foldl (fun t r =>
    let x := bd.x0 + r.bx
    let y := bd.y0 + r.by_
    match keyOf s x y with
    | none => t
    | some k => modB t k (fun b => (classWords s fs x y (getB s k)).foldl (fun b p => setObs b p.1 p.2) b)) s

/-! ### Edge dies, HED, DRAM -/

/-- The roles of the board's edge slots (R263, R400). -/
def loadRoles (im : List Byte) (bd : Board) (g : Img) (s : State) : State :=
  g.edges.foldl (fun s p =>
    let w := imW im p.1
    let x := bd.x0 + edCol w
    let key := slotKey (colOf x) (edLane w) (edSlot w)
    modMed s (medOf x (edSouth w)) (fun d =>
      if edKind w = 0 then { d with role := sset 0 d.role key (edRole w) }
      else { d with injRole := sset 0 d.injRole key (edRole w) })) s

/-- Bytes written at a VA of board b in MED m, page by page, to the frames found in the check pass. [DEDUCED log 55] -/
def loadBytes (b m : Nat) (pages : List (Nat × Nat × Nat)) : Nat → Nat → List Byte → State → State
  | 0, _, _, s => s
  | fuel + 1, va, bs, s =>
    if bs.isEmpty then s
    else
      let n := 2 ^ 21 - va % 2 ^ 21
      let s1 := match pages.find? (fun p => p.1 == m && p.2.1 == va / 2 ^ 21) with
        | none => s
        | some p =>
          match dramWrite (getMed s m) (p.2.2 * 2 ^ 21 + va % 2 ^ 21) (bs.take n) with
          | (d, none) => setMed s m d
          | (d, some f) => raiseBoard (setMed s m d) fMEM_DED b (packW [(0, 14, f), (16, 4, m)])
      loadBytes b m pages fuel (va + n) (bs.drop n) s1

/-- A span's bytes (R402-R404). -/
def loadSpan (b : Nat) (im : List Byte) (pages : List (Nat × Nat × Nat)) (s : State)
    (q : Nat × Nat × Nat × Nat × Nat × Nat) : State :=
  let va := q.2.2.2.1
  let n := q.2.2.2.2.1
  loadBytes b q.2.2.1 pages (n / 2 ^ 21 + 2) va ((im.drop q.2.2.2.2.2).take n) s

/-- A LEXICON record binds its channel (R351, R374, R402). -/
def loadLex (b : Nat) (im : List Byte) (bd : Board) (grams : List GramRec) (s : State) (l : LexRec) : State :=
  let h := b / 4
  let ch := getCh s h l.chan
  let s1 := if ch.cached then s else modHed s h (fun e => hedPut e ch.regOfs ((im.drop l.voff).take l.vlen))
  let ing := l.ingress
  let x := bd.x0 + epCol ing
  setCh s1 h l.chan { ch with
    bound := true
    alg := imNum im (l.voff + 8) 4 % 4
    vsize := lexV im l
    vbase := if ch.cached then l.va else ch.regOfs
    cfg := packW [(31, 1, b2n (bitAt l.flags 8)), (30, 1, b2n (bitAt l.flags 9)), (29, 1, b2n (bitAt l.flags 10)),
      (28, 1, b2n (grams.any (fun r => r.chan == l.chan))), (16, 5, l.stops.length)]
    stops := l.stops
    limit := l.limit
    inMed := medOf x (epSouth ing)
    inCol := colOf x
    inLane := epLane ing
    inSlot := epSlot ing }

/-- Loading clears the Lexicon and walker registers of a board's channel; its rings stay (R375, R389, R576). -/
def loadChan (ch : Chan) : Chan :=
  { clearChan ch with
    ring := ch.ring
    txtHead := ch.txtHead
    txtProd := ch.txtProd
    cplTail := ch.cplTail
    cplCons := ch.cplCons
    phase := ch.phase
    dbErr := ch.dbErr
    entryErr := ch.entryErr
    fetchErr := ch.fetchErr
    hold := ch.hold
    holdPend := ch.holdPend }

/-- Every channel of the board as a load begins to write it. -/
def loadChans (b : Nat) (s : State) : State :=
  modHed s (b / 4) (fun e => { e with
    chans := e.chans.map (fun p => if p.2.en && p.2.board == b then (p.1, loadChan p.2) else p) })

/-- A GRAMMAR record binds its channel's walker (R376, R389, R403). -/
def loadGram (b : Nat) (s : State) (r : GramRec) : State :=
  modCh s (b / 4) r.chan (fun ch => { ch with
    gBound := true
    gMed := r.med
    gBase := r.va
    gEnable := r.enable
    gStart := r.start })

/-- The Stesy slots of board b in its HED: the first one and their number (R590). -/
def stesyRange (s : State) (b : Nat) : Nat × Nat :=
  (((List.range (b % 4)).map (fun i => (getBd s (4 * (b / 4) + i)).stesyCh)).foldl (· + ·) 0, (getBd s b).stesyCh)

/-- A STESY record is given the lowest slot of the board's range that is not USED (R591). -/
def loadStesy (b : Nat) (im : List Byte) (bd : Board) (s : State) (p : Nat × Nat) : State :=
  let h := b / 4
  let (lo, n) := stesyRange s b
  match ((List.range n).map (fun i => lo + i)).find? (fun k => !(getSlot s h k).used) with
  | none => s
  | some k =>
    let o := p.1
    let w := imW im o
    let inn := stIn im o
    let x := bd.x0 + fld (imW im (o + 4)) 0 11
    let m := medOf x (bitAt w 17)
    let lane := fld w 18 1
    let slot := fld w 19 5
    let v : Slot := {
      used := true
      dirIn := inn
      opened := inn
      board := b
      epoch := ((getSlot s h k).epoch + 1) % 16
      chan := stChan im o
      peer := stPeer im o
      inMed := m
      inCol := colOf x
      inLane := lane
      inSlot := slot }
    let s1 := setSlot s h k v
    if inn then s1 else modMed s1 m (fun d => { d with chan := sset 0 d.chan (slotKey (colOf x) lane slot) (k + 1) })

/-- The board slot of own record i: the i-th slot given to the board. -/
def recSlot (s : State) (b i : Nat) : Option Nat :=
  (((getHed s (b / 4)).slots.filter (fun p => p.2.used && p.2.board == b)).map (·.1))[i]?

/-! ### The board's record -/

/-- BRD_BAR_DECL_k (R298, R323). -/
def barDecls (g : Img) : SMap Word :=
  (List.range g.nb).foldl (fun m k =>
    let n := (g.bricks.filter (fun r => barPart (recBrick r) k)).length
    sset 0 m k (packW [(31, 1, 1), (30, 1, b2n (g.timed.testBit k)), (0, 20, n)])) []

/-- The board as a load leaves it (R299, R418, R449, R455). -/
def loadedBoard (im : List Byte) (g : Img) (bd : Board) : Board :=
  let msk := (g.text.head?.map (fun t => imW im (t.1 + 8))).getD 0
  let x := bd.x0 + epCol msk
  let bd1 := setRefusal bd 0 0 0 0
  { bd1 with
    st := .loaded
    home := g.home
    assembled := decide (g.pieces ≤ 1)
    lastDrain := 0
    loadPass := 0
    loadArgs := []
    loadHead := []
    loadPages := []
    progBytes := im.length
    progPass := true
    pieceBad := false
    heldDrain := none
    imageId := g.id
    piece := g.piece
    pieces := g.pieces
    barDecl := barDecls g
    barGen := []
    barC := []
    barGate := []
    arrivals := []
    releases := []
    words := 0
    samples := 0
    abandonedWords := false
    abandonedDesc := false
    checking := false
    checkIgnored := false
    checkDone := false
    checkOutcome := 0
    depBricks := 0
    fltValid := false
    fltHard := false
    fltQuar := false
    fltJournaled := false
    fltLost := false
    fltCode := 0
    fltCount := 0
    fltBrick := false
    fltX := 0
    fltY := 0
    fltPX := 0
    fltDetail := 0
    fltTick := 0
    maskOn := bitAt msk 31
    maskMed := medOf x (epSouth msk)
    maskCol := colOf x
    maskLane := epLane msk
    maskSlot := epSlot msk
    maskW := (g.text.head?.map (fun t => imNum im (t.1 + 0xC) 4 % 2 ^ 18)).getD 0
    stesyRecs := g.stesy.map (fun p => (im.drop p.1).take 16)
    regs := bd1.regs.filter (fun p => !(0xC14 ≤ p.1 && p.1 ≤ 0xC1C)) }

/-- Bit k of BRD_CC_BAR: TIMED, or participants in several fields (R305). -/
def loadBarClass (b : Nat) (s : State) : State :=
  let bd := getBd s b
  let v := (List.range 64).foldl (fun (a : Nat) k =>
    if barOn bd k && (barTimed bd k || !oneField s b k) then a + 2 ^ k else a) 0
  setBd s b { bd with regs := sset 0 (sset 0 bd.regs 0xC38 (BitVec.ofNat 32 v)) 0xC3C (BitVec.ofNat 32 (v / 2 ^ 32)) }

/-- Ties inside the board and edge bridges at it hold no spent credit. -/
def freshLinks (b : Nat) (s : State) : State := clearEdges (clearTies s b) b

/-! ### Assembly (R428, R601) -/

/-- A record of this piece as words 0 and 2: CHAN, DIR, PEER. -/
def recChan (r : List Byte) : Nat := stChan r 0
def recIn (r : List Byte) : Bool := stIn r 0
def recPeer (r : List Byte) : Nat := stPeer r 0

/-- A loaded notice is held: the LOADED notice and every RECORD notice after it. -/
def noteHeld (n : LoadedNote) : Bool := n.records.length == n.count

/-- The record that piece q sent for a CHAN and DIR, if it did. -/
def noteRec (bd : Board) (q chan : Nat) (inn : Bool) : Option Word :=
  (bd.notes.find? (fun n => n.piece == q)).bind (fun n =>
    (n.records.find? (fun r => fld r.1 0 16 == chan && bitAt r.1 16 == inn)).map (·.2))

/-- The pairs that this piece can see break R406. [DEDUCED log 60] -/
def pairsBad (bd : Board) : Bool :=
  bd.stesyRecs.any (fun r => (noteRec bd (recPeer r) (recChan r) (!recIn r)).isNone)
  || bd.notes.any (fun n => n.records.any (fun w =>
      !bd.stesyRecs.any (fun r => recChan r == fld w.1 0 16 && recIn r != bitAt w.1 16 && recPeer r == n.piece)))

/-- REFUSE_PIECE reported for several pieces (R411, R412, R428): a LOADED piece stays so with ASSEMBLED clear, and does not
start. [DEDUCED log 60] -/
def pieceRefused (bd : Board) : Board :=
  let bd1 := setRefusal bd (packW [(31, 1, 1), (8, 8, 0xFF), (0, 8, cPIECE)]) 0 0 0
  if bd.st = .loaded then
    { bd1 with pieceBad := true, assembled := false, startPending := false, startHeld := false, heldDrain := none }
  else bd1

/-- Every slot of the board learns its peer's address; the OUT slots open with 256 credits (R593, R595). -/
def openOut (b : Nat) (s : State) : State :=
  let bd := getBd s b
  modHed s (b / 4) (fun e => { e with slots := e.slots.map (fun p =>
    let v := p.2
    if v.used && v.board == b then
      let w := (noteRec bd v.peer v.chan (!v.dirIn)).getD 0
      let dst := (bd.pieceMap[v.peer]?).getD 0
      (p.1, { v with
        opened := true
        credits := if v.dirIn then v.credits else 256
        pWafer := fld dst 4 15
        pHed := fld dst 0 4 / 4
        pSlot := fld w 0 8
        pEpoch := fld w 8 4 })
    else p) })

/-- A piece that holds every loaded notice is assembled, or reports a breach; a START notice held until then starts it. [DEDUCED log 58, DEDUCED log 60] -/
def tryAssemble (b : Nat) (s : State) : State :=
  let bd := getBd s b
  let others := (List.range bd.pieces).filter (fun p => p != bd.piece)
  if bd.st ≠ .loaded ∨ !multi bd ∨ bd.assembled ∨ bd.pieceBad ∨ others.any (fun p => !bd.notes.any (fun n => n.piece == p && noteHeld n)) then s
  else if pairsBad bd then sendAll (setBd s b (pieceRefused bd)) b nREFUSE 0 0 0 0
  else
    let s1 := openOut b (setBd s b { bd with assembled := true, startHeld := false })
    if bd.startHeld then startGo b (s.now + 8) s1 else s1

/-- The loaded notices of a piece whose load has completed (R427, R601). -/
def sendLoaded (b : Nat) (s : State) : State :=
  let bd := getBd s b
  (List.range bd.pieces).foldl (fun s p =>
    if p = bd.piece then s
    else
      let rs := bd.stesyRecs.zipIdx.filter (fun r => recPeer r.1 == p)
      rs.foldl (fun s r =>
        let k := (recSlot s b r.2).getD 0
        sendNotice s b p nRECORD 0 (packW [(16, 1, b2n (recIn r.1)), (0, 16, recChan r.1)])
          (packW [(8, 4, (getSlot s (b / 4) k).epoch), (0, 8, k)]) 0)
        (sendNotice s b p nLOADED 0 (BitVec.ofNat 32 rs.length) 0 0)) s

/-! ### Write pass -/

/-- What an accepted image writes (R418). -/
def writeImage (b : Nat) (im : List Byte) (s : State) : State :=
  let bd := getBd s b
  let g := parseImg im
  let ls := g.lex.map (lexRec im)
  let gs := g.gram.map (gramRec im)
  let es := allEnts s bd g
  let s1 := loadClasses bd g es (freshLinks b (loadBricks im bd g (clearUnnamed bd g s)))
  let s2 := loadRoles im bd g s1
  let s3 := (loadSpans s b g ls gs).foldl (loadSpan b im bd.loadPages) s2
  let s4 := gs.foldl (loadGram b) (ls.foldl (loadLex b im bd gs) (loadChans b s3))
  let s5 := g.stesy.foldl (loadStesy b im bd) s4
  let s6 := modHed s5 (b / 4) (fun e => hedPut (hedPut (dropCache b e) (egrBase b + 0x800) (bytesLE 4 0)) (egrBase b + 0x840) (bytesLE 4 0))
  let s7 := loadBarClass b (setBd s6 b (loadedBoard im g (getBd s6 b)))
  if multi (getBd s7 b) then tryAssemble b (sendLoaded b s7) else s7

/-- LOAD_WRITE_PASS_END (R418, R420): a section whose SCRC differs ends the load with LOAD_FAILED and a board reset; else the
named bricks and the board are LOADED, and the end of the load is signalled (R573). [DEDUCED log 55] -/
def writePassEnd (b : Nat) (img : List Byte) (s : State) : Option State :=
  let bd := getBd s b
  if bd.st ≠ .loading ∨ bd.loadPass ≠ 2 ∨ !fnMaster s bd.loadFn then none
  else
    let im := bd.loadHead ++ img.drop bd.loadHead.length
    if (imSects im).any (fun v => sectCrc im v != v.scrc) then
      some (modBd (doReset b (setBd s b (setRefusal bd 0 0 0 0))) b (fun bd => { bd with loadFailed := true }))
    else some (sigBoard (writeImage b im s) b)

/-- LOAD_CHECK_PASS_END (R418). -/
def execLoadCheckPassEnd (b : Fin 16) (list : Option (List Byte)) (img : List Byte) (pmap : Option (List Byte)) (s : State) :
    Host.Outcome State Fault Refusal :=
  answerRun s (checkPassEnd b list img pmap s)
/-- LOAD_WRITE_PASS_END (R418). -/
def execLoadWritePassEnd (b : Fin 16) (img : List Byte) (s : State) : Host.Outcome State Fault Refusal :=
  answerRun s (writePassEnd b img s)

end Sys2Proof.Machine
end

