-- ==== Sys2Proof/Machine/Contract.lean ====
section
/-! DEFINITION. The Chromer contract: reports, checks, departures (R436, R443, R445-R455). -/
namespace Sys2Proof.Machine

/-- The matchable indices of R436, in increasing order. -/
def matchable : List Nat :=
  List.range 4 ++ (List.range 8).map (· + 0x08) ++ (List.range 32).map (· + 0x10) ++ (List.range 7).map (· + 0x31)
    ++ (List.range 7).map (· + 0x41) ++ (List.range 7).map (· + 0x51)

/-- An index that R436 lists. -/
def ccIndex (i : Nat) : Bool := matchable.contains i || [0x38, 0x39, 0x48, 0x49, 0x58, 0x59].contains i

/-- An entry of a report's block (R446). -/
structure RptEntry where
  index : Nat
  exempt : Bool
  fixed : Nat
  perWord : Nat
  perSample : Nat
deriving DecidableEq, Repr

/-- A brick block of a report. -/
structure RptBlock where
  bx : Nat
  by_ : Nat
  ents : List RptEntry
deriving DecidableEq, Repr

/-- n blocks from offset o on, if they lie within the report, with every zero field zero; and where they end. -/
def rptBlocks (bs : List Byte) : Nat → Nat → Option (List RptBlock × Nat)
  | 0, o => some ([], o)
  | k + 1, o =>
    let w1 := imNum bs (o + 4) 4
    let n := w1 % 256
    let e := o + 8 + 16 * n
    let es := (List.range n).map (fun i => o + 8 + 16 * i)
    if bs.length < o + 8 ∨ bs.length < e ∨ 256 ≤ w1 ∨ 65 < n ∨ es.any (fun a => fld (imW bs a) 24 7 != 0) then none
    else (rptBlocks bs k e).map (fun p =>
      (⟨imNum bs o 2, imNum bs (o + 2) 2, es.map (fun a =>
          ⟨fld (imW bs a) 0 8, bitAt (imW bs a) 31, 2 ^ 32 * fld (imW bs a) 8 16 + imNum bs (a + 4) 4, imNum bs (a + 8) 4,
            imNum bs (a + 12) 4⟩)⟩ :: p.1, p.2))

/-- Strictly rising numbers. -/
def rising : List Nat → Bool
  | a :: b :: r => decide (a < b) && rising (b :: r)
  | _ => true

/-- The blocks of a well-formed report for board bd (R447): `len` is the length given to the check. -/
def rptOk (bs : List Byte) (len : Nat) (bd : Board) : Option (List RptBlock) :=
  let crc := crc32 (bs.take 0x10 ++ [0, 0, 0, 0] ++ bs.drop 0x14)
  if bs.length < 0x40 ∨ imNum bs 0 4 ≠ 0x31505243 ∨ imNum bs 4 4 ≠ 1 ∨ imNum bs 8 8 ≠ len ∨ bs.length ≠ len
      ∨ imNum bs 0x10 4 ≠ crc ∨ imNum bs 0x22 2 ≠ 0 ∨ imNum bs 0x24 28 ≠ 0 ∨ bs.length < 8 * imNum bs 0x14 4 then none
  else match rptBlocks bs (imNum bs 0x14 4) 0x40 with
    | some (ks, e) =>
      if e = bs.length ∧ rising (ks.map (fun k => 65536 * k.by_ + k.bx))
          ∧ ks.all (fun k => decide (bd.x0 + k.bx ≤ bd.x1 ∧ bd.y0 + k.by_ ≤ bd.y1)
            && rising (k.ents.map (·.index)) && k.ents.all (fun n => matchable.contains n.index)) then some ks else none
    | none => none

/-- A counter of a brick that R443 marks elastic, by the class registers. -/
def elasticCnt (b : Brick) (i : Nat) : Bool :=
  if 8 ≤ i ∧ i < 16 then bitAt (obsW b 0x110) i
  else if 0x10 ≤ i ∧ i < 0x30 then bitAt (obsW b 0x118) (i - 0x10)
  else false

/-- One brick compared (R451): departed indices, and how many counters are excluded. -/
def compareBrick (b : Brick) (ents : List RptEntry) (w smp : Nat) : List Nat × Nat :=
  let excl := fun (i : Nat) =>
    ents.any (fun n => n.index == i && n.exempt) || elasticCnt b i || decide (2 ^ 48 ≤ sget 0 b.cnt i)
  let expect := fun (i : Nat) => match ents.find? (fun n => n.index == i) with
    | some n => n.fixed + n.perWord * w + n.perSample * smp
    | none => 0
  (matchable.filter (fun i => !excl i && sget 0 b.cnt i != expect i), (matchable.filter excl).length)

/-- Every logical brick of a board's rectangle, in order of rising row and column. -/
def rectBricks (bd : Board) : List (Nat × Nat) :=
  (List.range (bd.y1 + 1 - bd.y0)).flatMap (fun j => (List.range (bd.x1 + 1 - bd.x0)).map (fun i => (bd.x0 + i, bd.y0 + j)))

/-- BRK_CC_STAT of a compared brick, from its departed indices. -/
def ccStat (dep : List Nat) : Word :=
  packW [(31, 1, 1), (30, 1, b2n (!dep.isEmpty)), (8, 8, dep.length), (0, 7, dep.headD 0)]

/-- Is ABANDONED set (R450)? -/
def abandoned (bd : Board) : Bool := bd.abandonedWords || bd.abandonedDesc

/-- R450's conditions hold: the board is HALTED after a quiescent drain with no fault, and nothing was abandoned. [DEDUCED log 61] -/
def comparable (bd : Board) : Bool := bd.st == .halted && bd.lastDrain == 1 && !bd.faultDrain && !abandoned bd

/-- CHECK (R450): the registers are read once; the last of the arguments is 1 if the board is comparable. [DEDUCED log 61] -/
def checkCmd (f : Fn) (b : Nat) (s : State) : State :=
  let bd := getBd s b
  if bd.st = .undefined then { s with resp := .ignored }
  else if bd.checking then { setBd s b { bd with checkIgnored := true } with resp := .ignored }
  else
    { setBd s b { bd with
        checking := true
        checkDone := false
        checkFn := fnIx f
        checkArgs := [sget 0 bd.regs 0xC00, sget 0 bd.regs 0xC04, sget 0 bd.regs 0xC08, BitVec.ofNat 32 (b2n (comparable bd))] }
      with resp := .done }

/-- The end of a check with an outcome: departed indices by brick in order, counters excluded, and whether bricks were compared
(R452). [DEDUCED log 61] -/
def publish (b outcome : Nat) (deps : List (Nat × Nat × List Nat)) (excl : Nat) (compared : Bool) (s : State) : State :=
  let bd := getBd s b
  let n := (deps.map (fun d => d.2.2.length)).foldl (· + ·) 0
  let first : Word := match deps.find? (fun d => !d.2.2.isEmpty) with
    | some d => packW [(31, 1, 1), (24, 7, d.2.2.headD 0), (10, 11, d.1 - bd.x0), (0, 10, d.2.1 - bd.y0)]
    | none => 0
  let s1 := (rectBricks bd).foldl (fun s p => match keyOf s p.1 p.2 with
    | some k => modB s k (fun v => setObs v 0x10C (if compared then
        ccStat (((deps.find? (fun d => d.1 == p.1 && d.2.1 == p.2)).map (·.2.2)).getD []) else 0))
    | none => s) s
  let s2 := setBd s1 b { bd with
    checking := false
    checkDone := true
    checkOutcome := outcome
    depBricks := (deps.filter (fun d => !d.2.2.isEmpty)).length
    depTot := evAdd bd.depTot n
    regs := sset 0 (sset 0 (sset 0 bd.regs 0xC14 (BitVec.ofNat 32 n)) 0xC18 (BitVec.ofNat 32 excl)) 0xC1C first }
  let s3 := sigBoard s2 b
  if outcome = 1 then raiseBoard s3 fDEPARTURE b first else s3

/-- CHECK_END (R451, R452): the report has been read; while the link is with its keeper its data are held (R519). [DESIGN CHOICE log 110] -/
def checkEnd (b : Nat) (rpt : List Byte) (s : State) : Option State :=
  let bd := getBd s b
  let len := 8 * ((bd.checkArgs[2]?).getD 0).toNat
  if !bd.checking || linkKept s then none
  else if (bd.checkArgs[3]?).getD 0 ≠ 1 then some (publish b 2 [] 0 false s)
  else if !fnMaster s bd.checkFn then none
  else match rptOk rpt len bd with
    | none => some (publish b 3 [] 0 false s)
    | some ks =>
      if imNum rpt 0x18 8 ≠ bd.imageId ∨ imNum rpt 0x20 2 ≠ bd.piece then some (publish b 4 [] 0 false s)
      else
        let w := bd.words % 2 ^ 48
        let smp := bd.samples % 2 ^ 48
        let rs := (rectBricks bd).map (fun p =>
          let v := ((keyOf s p.1 p.2).map (getB s)).getD Brick.reset
          let ents := ((ks.find? (fun k => bd.x0 + k.bx == p.1 && bd.y0 + k.by_ == p.2)).map (·.ents)).getD []
          (p, compareBrick v ents w smp))
        let deps := (rs.filter (fun r => !r.2.1.isEmpty)).map (fun r => (r.1.1, r.1.2, r.2.1))
        let excl := (rs.map (·.2.2)).foldl (· + ·) 0
        some (publish b (if deps.isEmpty then 0 else 1) deps excl true s)

/-- The report cannot be read (R565): BAD_REPORT. -/
def checkUnread (b : Nat) (s : State) : Option State :=
  let bd := getBd s b
  if !bd.checking || linkKept s then none else some (publish b (if (bd.checkArgs[3]?).getD 0 = 1 then 3 else 2) [] 0 false s)

/-- CHECK (R450). -/
def execCheck (f : Fn) (b : Fin 16) (s : State) : Host.Outcome State Fault Refusal :=
  reply s (access s f .other false (reaches f b) true 12 (checkCmd f b s))
/-- CHECK_END (R452). -/
def execCheckEnd (b : Fin 16) (rpt : List Byte) (s : State) : Host.Outcome State Fault Refusal := answer s (checkEnd b rpt s)

end Sys2Proof.Machine
end

