-- ==== Sys2Proof/Machine/Clocks.lean ====
section
/-! DEFINITION. References, the reference switch, waiting for a reference, oscillator meshes (R502-R521, R529-R531). -/
namespace Sys2Proof.Machine

/-- Is a reference GOOD: 0 REFCLK_A, 1 REFCLK_B? -/
def refOk (c : ClkSt) (r : Nat) : Bool := if r = 0 then c.aGood else c.bGood

/-- The number of the selected reference, and of the other one. -/
def selRef (c : ClkSt) : Nat := b2n c.sel
def othRef (c : ClkSt) : Nat := 1 - b2n c.sel

/-- A reference clock runs: it is selected, GOOD, and the device does not wait. -/
def refRuns (s : State) : Bool := s.clk.selected && !s.clk.waiting && refOk s.clk (selRef s.clk)

/-- The timestamp counts in holdover while no reference runs (R313). [DEDUCED log 86] -/
def holdIfNoRef (s : State) : State :=
  if refRuns s then s else { s with time := { s.time with holdover := true, holdSeen := true } }

/-- Every field's mesh under a change of state. -/
def mapMesh (f : FieldSt → FieldSt) (s : State) : State :=
  (List.range 84).foldl (fun s i => setField s i (f (getField s i))) s

/-- Every MED enters or leaves self-refresh. -/
def refreshAll (on : Bool) (s : State) : State :=
  (List.range 8).foldl (fun s m => modMed s m (fun d => { d with selfRefresh := on })) s

/-- Every board's stalemate detector is held at 0 (R308). -/
def holdStill (s : State) : State := (List.range 16).foldl (fun s b => modBd s b (fun bd => { bd with still := 0 })) s

/-- The device begins to wait (R518); a wait that has not ended in full goes on. [DEDUCED log 68] -/
def enterWait (s : State) : State :=
  let c := s.clk
  let s1 := refreshAll true { s with clk := { c with
    waiting := true, resuming := false, switching := false, waitStart := if c.resuming then c.waitStart else s.now } }
  let s2 := mapMesh (fun v => if v.mesh = .off then v else { v with mesh := .stopped, swM := false }) s1
  sigClock (holdStill { s2 with time := { s2.time with holdover := true, holdSeen := true } })

/-- Once every mesh has passed RELOCK the device has resumed: the link keepers hand back what they held, and the length of the
wait is recorded (R520, R529). [DEDUCED log 68] -/
def resumeEnd (s : State) : State :=
  let c := s.clk
  if c.resuming && (List.range 84).all (fun f => (getField s f).mesh != .relock) then
    sigClock (drainAllRx { s with clk := { c with
      resuming := false
      sticky := c.sticky ||| (1#32 <<< 24)
      waitLen := (s.now + 2 ^ 64 - c.waitStart) % 2 ^ 64 } })
  else s

/-- The device begins to resume on reference r (R520). [DEDUCED log 68] -/
def resumeOn (r : Nat) (s : State) : State :=
  let s1 := { s with
    clk := { s.clk with sel := r == 1, waiting := false, resuming := true }
    time := { s.time with holdover := false } }
  resumeEnd (mapMesh (fun v => if v.mesh = .stopped then { v with mesh := .relock } else v) (refreshAll false s1))

/-- The start of the boot in progress, moved as the timestamp takes value n instead of m, so that IDENT_BOOT_MS counts the time
passed (R500). [DEDUCED log 88] -/
def shiftStart (m n : Nat) (b : BootSt) : BootSt := { b with startT := (b.startT + n + (2 ^ 64 - m % 2 ^ 64)) % 2 ^ 64 }

/-- A reference is selected in boot step 1 (R511); after a vigil loss the timestamp is 0 at its first edge (R495). -/
def selectRef (r : Nat) (s : State) : State :=
  let z := s.vigil.zeroT
  { s with
    clk := { s.clk with selected := true, sel := r == 1 }
    vigil := { s.vigil with zeroT := false }
    time := { s.time with
      holdover := false
      holdSeen := s.time.holdSeen && !z
      frac := if z then 0 else s.time.frac }
    now := if z then 0 else s.now
    boot := if z then shiftStart s.now 0 s.boot else s.boot }

/-- REF_GOOD (R510, R511, R520). -/
def refGood (r : Nat) (s : State) : Option State :=
  let c := s.clk
  if refOk c r then none
  else
    let s1 := { s with clk := if r = 0 then { c with aGood := true } else { c with bGood := true } }
    some (if c.waiting then resumeOn r s1
      else if s.boot.running && s.boot.step == 1 && !c.selected then selectRef r s1
      else s1)

/-- REF_LOST (R510, R512, R518). -/
def refLost (r : Nat) (s : State) : Option State :=
  let c := s.clk
  if !refOk c r then none
  else
    let s1 := { s with clk := if r = 0 then { c with aGood := false, sticky := c.sticky ||| (1#32 <<< 26) }
      else { c with bGood := false, sticky := c.sticky ||| (1#32 <<< 25) } }
    some (if !c.selected || c.waiting then s1
      else if r = selRef c then
        (if refOk s1.clk (othRef c) then { s1 with clk := { s1.clk with switching := true } } else enterWait s1)
      else if c.switching then enterWait s1
      else s1)

/-- REF_SWITCH_REQUEST (R513): a write of CLK_REF_CTL. A request made during a switch is refused. [DEDUCED log 66] -/
def refSwitchRequest (v : Word) (s : State) : State :=
  let c := s.clk
  let tgt := fld v 0 1
  if fld v 16 16 ≠ 0x5E1C ∨ !bitAt v 1 then { s with resp := .ignored }
  else if refOk c tgt && c.selected && !c.switching && tgt != selRef c then
    { s with clk := { c with switching := true }, resp := .done }
  else { s with clk := { c with sticky := c.sticky ||| (1#32 <<< 23) }, resp := .done }

/-- The destination's gate opens on the next tick (R514, R517, R529): meshes realign to the new reference. [DEDUCED log 67] -/
def switched (s : State) : State :=
  let c := s.clk
  mapMesh (fun v => { v with mesh := if v.mesh = .locked then .rephase else v.mesh, swM := false })
    { s with clk := { c with sel := !c.sel, switching := false, lastSwitch := (s.now + 1) % 2 ^ 64 } }

/-- SWITCH_CLEAN (R514). -/
def switchClean (s : State) : Option State :=
  if !s.clk.switching || !refOk s.clk (othRef s.clk) then none else some (switched s)

/-- MESH_LOCKED (R505, R506, R520): a mesh completes LOCKING or RELOCK; the last RELOCK of a resumption ends it. -/
def meshLocked (f : Nat) (s : State) : Option State :=
  let v := getField s f
  if !(v.mesh == .locking || v.mesh == .relock) || s.clk.waiting || !s.clk.selected then none
  else some (resumeEnd (setField s f { v with mesh := .locked }))

/-- REPHASE_END (R517). -/
def rephaseEnd (f : Nat) (s : State) : Option State :=
  let v := getField s f
  if v.mesh ≠ .rephase ∨ s.clk.switching then none else some (setField s f { v with mesh := .locked })

/-- The code of a mesh state (R504). -/
def Mesh.code : Mesh → Nat
  | .off => 0 | .stopped => 1 | .locking => 2 | .locked => 3 | .relock => 4 | .rephase => 5

/-- The field select of R530 and R552 after a write: reserved codes are ignored field by field (R16). -/
def fieldSelW (old v : Word) : Word :=
  let c := if fld v 11 4 < 12 then fld v 11 4 else fld old 11 4
  let r := if fld v 8 3 < 7 then fld v 8 3 else fld old 8 3
  packW [(11, 4, c), (8, 3, r)]

/-- The field that a field select names. -/
def fieldSelIx (w : Word) : Nat := 12 * fld w 8 3 + fld w 11 4

/-- A write of CLK_FIELD_SEL (R530). [DESIGN CHOICE log 69] -/
def clkFieldSel (v : Word) (s : State) : State :=
  let w := fieldSelW s.clk.fieldSel v
  let f := getField s (fieldSelIx w)
  { s with
    clk := { s.clk with
      fieldSel := w
      fieldStat := packW [(29, 3, f.mesh.code), (23, 6, if f.mesh = .off then 0 else f.m), (22, 1, b2n (f.stretch != 0))] }
    resp := .done }

/-- REF_GOOD (R510). -/
def execRefGood (r : Fin 2) (s : State) : Host.Outcome State Fault Refusal := answer s (refGood r s)
/-- REF_LOST (R510). -/
def execRefLost (r : Fin 2) (s : State) : Host.Outcome State Fault Refusal := answer s (refLost r s)
/-- REF_SWITCH_REQUEST (R513). -/
def execRefSwitchRequest (f : Fn) (v : Word) (s : State) : Host.Outcome State Fault Refusal :=
  reply s (access s f .clk false (isPf f) true 12 (refSwitchRequest v s))
/-- SWITCH_CLEAN (R514). -/
def execSwitchClean (s : State) : Host.Outcome State Fault Refusal := answer s (switchClean s)
/-- MESH_LOCKED (R505). -/
def execMeshLocked (fld : Fin 84) (s : State) : Host.Outcome State Fault Refusal := answer s (meshLocked fld s)
/-- REPHASE_END (R517). -/
def execRephaseEnd (fld : Fin 84) (s : State) : Host.Outcome State Fault Refusal := answer s (rephaseEnd fld s)
/-- CLK_FIELD_SEL (R530). -/
def execClkFieldSel (f : Fn) (v : Word) (s : State) : Host.Outcome State Fault Refusal :=
  reply s (access s f .clk false (isPf f) true 12 (clkFieldSel v s))

end Sys2Proof.Machine
end

