-- ==== Sys2Proof/Machine/SlateCard.lean ====
section
/-! DEFINITION. What lies on a Slate card: identity, copies and the test of a copy, journals (R456-R471, R480, R528, R554, R590,
R598). An erased byte reads 0xFF. -/
namespace Sys2Proof.Machine

/-- The bytes of a card. -/
abbrev Card := SMap Byte

def cdBytes (c : Card) (o n : Nat) : List Byte := readBytes 0xFF c o n
def cdNum (c : Card) (o n : Nat) : Nat := ofBytesLE (cdBytes c o n)
def cdW (c : Card) (o : Nat) : Word := BitVec.ofNat 32 (cdNum c o 4)

/-- NOR programming only clears bits. -/
def cdProgram (c : Card) (a : Nat) : List Byte → Card
  | [] => c
  | b :: r => cdProgram (sset 0xFF c a (sget 0xFF c a &&& b)) (a + 1) r

/-- An erase leaves every byte of [a, a+n) 0xFF. -/
def cdErase (c : Card) (a n : Nat) : Card := c.filter (fun p => decide (p.1 < a ∨ a + n ≤ p.1))

/-! ### Identity -/

/-- ASCII "GU3-W84" padded with zeros. -/
def partName : List Byte := [0x47, 0x55, 0x33, 0x2D, 0x57, 0x38, 0x34, 0, 0, 0, 0, 0, 0, 0, 0, 0]

/-- The card declares every property of R456; a density of 512 MiB is read as exactly that. -/
def sfdpGood (v : Option Sfdp) : Bool := decide (v = some {})

/-- The BOOT_FAIL code of a card's identity (R460); 0 when boot accepts it. [DESIGN CHOICE log 62] -/
def identityFail (c : Card) : Nat :=
  if cdNum c 0 4 ≠ 0x31444953 ∨ cdNum c 4 4 ≠ 1 ∨ cdBytes c 0x20 16 ≠ partName
      ∨ !Config.ed25519 Config.identityKey (cdBytes c 0 0x100 ++ cdBytes c 0x10000 107520) (cdBytes c 0x100 64) then 3
  else if cdNum c 0x18 8 ≠ Config.moduleSerial.toNat then 4 else 0

/-- The factory map's entry for physical row y of field column fc (R459). -/
def factoryEntry (c : Card) (fc y : Nat) : BitVec 96 :=
  BitVec.ofNat 96 (cdNum c (0x10000 + 16 * (80 * (12 * (y / 80) + fc) + y % 80)) 12)

/-! ### Journals -/

def lifeAt (i : Nat) : Nat := 0x100000 + 64 * i
def defAt (j : Nat) : Nat := 0x300000 + 64 * j

/-- The first slot, from slot i on, whose 64 bytes are erased; `n` slots are left (R468). -/
def scanJournal (c : Card) (base : Nat) : Nat → Nat → Nat
  | 0, i => i
  | n + 1, i => if (cdBytes c (base + 64 * i) 64).all (· == 0xFF) then i else scanJournal c base n (i + 1)

def lifeUsed (c : Card) : Nat := scanJournal c (lifeAt 0) 32768 0
def defectsUsed (c : Card) : Nat := scanJournal c (defAt 0) 65536 0

/-- A used slot of the life journal is valid (R466, R468). -/
def lifeValid (c : Card) (i : Nat) : Bool :=
  let o := lifeAt i
  crc32 (cdBytes c o 0x18) == cdNum c (o + 0x18) 4 && cdNum c o 4 == i + 1 && cdNum c (o + 0x3C) 4 == 0

/-- A used slot of the defect journal is valid; its LSEQ fits when that life record is a DEFECT commit's and names the slot
(R467, R468). [DEDUCED log 82] -/
def defectValid (c : Card) (j : Nat) : Bool :=
  let o := defAt j
  let l := lifeAt (cdNum c o 4 - 1)
  crc32 (cdBytes c o 0x1C) == cdNum c (o + 0x1C) 4 && cdNum c (o + 0x3C) 4 == 0
  && decide (1 ≤ cdNum c o 4 ∧ cdNum c o 4 ≤ lifeUsed c) && nfld (cdNum c (l + 4) 4) 0 4 == 2 && cdNum c (l + 0x10) 4 == j

/-- The valid IMAGE record with the highest SEQ among the first n slots: SEQ and COPY (R471). -/
def lastImage (c : Card) : Nat → Option (Nat × Bool)
  | 0 => none
  | n + 1 =>
    let k := cdNum c (lifeAt n + 4) 4
    if lifeValid c n && nfld k 0 4 == 1 then some (n + 1, nfld k 4 1 == 1) else lastImage c n

/-! ### Copies -/

/-- Base of copy A or B (R457). -/
def copyBase (b : Bool) : Nat := if b then 0x10000000 else 0x01000000

/-- The section table of the copy at base o. -/
def cpSects (c : Card) (o : Nat) : List Sect :=
  (List.range (cdNum c (o + 0x10) 1)).map (fun i =>
    let e := o + 0x80 + 32 * i
    ⟨i, cdNum c e 4, cdNum c (e + 4) 4, cdNum c (e + 8) 8, cdNum c (e + 0x10) 8, cdNum c (e + 0x18) 4⟩)

/-- The section of a type. -/
def sectOf (ss : List Sect) (t : Nat) : Option Sect := ss.find? (fun v => v.typ == t)

/-- Word i of a section of the copy at base o; an absent section reads as the default. -/
def secW (c : Card) (o : Nat) (v : Option Sect) (i : Nat) (d : Word) : Word :=
  match v with
  | some v => cdW c (o + v.ofs + 4 * i)
  | none => d

/-- The header (R461). -/
def headOk (c : Card) (o : Nat) : Bool :=
  let n := cdNum c (o + 0x10) 1
  let total := cdNum c (o + 8) 4
  cdNum c o 4 == 0x31544C53 && cdNum c (o + 4) 4 == 1 && decide (total ≤ 0x0F000000) && cdNum c (o + 0x11) 7 == 0
  && cdNum c (o + 0x18) 8 == cdNum c 0x18 8 && cdNum c (o + 0x28) 88 == 0 && decide (0x80 + 32 * n ≤ total)
  && crc32 (cdBytes c o 0xC ++ [0, 0, 0, 0] ++ cdBytes c (o + 0x10) (0x70 + 32 * n)) == cdNum c (o + 0xC) 4

/-- The length that a section's layout gives it. [DEDUCED log 82] -/
def secLenOk (c : Card) (o : Nat) (v : Sect) : Bool :=
  match v.typ with
  | 0x101 => decide (64 ≤ v.len ∧ v.len ≤ 0x1800000)
  | 0x102 => v.len == 768
  | 0x103 => v.len == 512
  | 0x104 => v.len == 84
  | 0x105 => v.len == 340
  | 0x106 => v.len == 64
  | 0x107 => decide (8 ≤ v.len) && v.len == 8 + 8 * nfld (cdNum c (o + v.ofs + 4) 4) 0 13
  | 0x108 => v.len == 16
  | _ => false

/-- The section table and the checksums of the sections (R461, R462). -/
def sectsOk (c : Card) (o : Nat) : Bool :=
  let ss := cpSects c o
  let total := cdNum c (o + 8) 4
  ss.all (fun v =>
    secLenOk c o v && decide (0x80 + 32 * ss.length ≤ v.ofs ∧ v.ofs + v.len ≤ total) && cdNum c (o + 0x9C + 32 * v.ix) 4 == 0
    && (ss.take v.ix).all (fun u => u.typ != v.typ && decide (u.ofs + u.len ≤ v.ofs ∨ v.ofs + v.len ≤ u.ofs))
    && crc32 (cdBytes c (o + v.ofs) v.len) == v.scrc)
  && (sectOf ss 0x101).isSome && (sectOf ss 0x102).isSome

/-- The firmware: its last 64 bytes sign the rest (R462). -/
def firmwareGood (key fw : List Byte) : Bool := Config.ed25519 key (fw.take (fw.length - 64)) (fw.drop (fw.length - 64))

/-- The bytes of the FIRMWARE section. -/
def copyFirmware (c : Card) (o : Nat) : List Byte :=
  match sectOf (cpSects c o) 0x101 with
  | some v => cdBytes c (o + v.ofs) v.len
  | none => []

/-- A BOARDS record (R463): word i of board b. -/
def bdW (c : Card) (o : Nat) (b i : Nat) : Word := secW c o (sectOf (cpSects c o) 0x102) (12 * b + i) 0

/-- The board as a copy defines it (R463). -/
def copyBoard (c : Card) (o : Nat) (b : Nat) : Board :=
  let w0 := bdW c o b 0
  let w1 := bdW c o b 1
  if bitAt w0 31 then
    { st := .empty, x0 := fld w0 0 11, x1 := fld w0 16 11, y0 := fld w1 0 10, y1 := fld w1 16 10
      stesyCh := fld (bdW c o b 2) 0 11
      quota := (List.range 8).foldl (fun q m => sset 0 q m (bdW c o b (4 + m))) [] }
  else {}

/-- The boards of a copy. -/
def copyBoards (c : Card) (o : Nat) : List Board := (List.range 16).map (copyBoard c o)

def definedBd (b : Board) : Bool := b.st != .undefined

/-- A defined board meets R413. -/
def rectGood (b : Board) : Bool :=
  b.x0 % 4 == 0 && b.y0 % 4 == 0 && (b.x1 + 1) % 4 == 0 && (b.y1 + 1) % 4 == 0
  && decide (b.x0 ≤ b.x1 ∧ b.x1 < 1104 ∧ b.y0 ≤ b.y1 ∧ b.y1 < 560 ∧ (b.y0 = 0 ∨ b.y1 = 559))

def rectsMeet (a b : Board) : Bool :=
  decide (a.x0 ≤ b.x1 ∧ b.x0 ≤ a.x1 ∧ a.y0 ≤ b.y1 ∧ b.y0 ≤ a.y1)

/-- A frame quota in MED m: PFN_BASE and PFN_COUNT. -/
def quotaOf (b : Board) (m : Nat) : Nat × Nat := (fld (sget 0 b.quota m) 0 14, fld (sget 0 b.quota m) 14 14)

/-- No two of a list's elements meet. -/
def noneMeet {α : Type} (r : α → α → Bool) : List α → Bool
  | [] => true
  | a :: l => l.all (fun b => !r a b) && noneMeet r l

/-- The BOARDS section (R463, R465, R590). -/
def boardsOk (c : Card) (o : Nat) : Bool :=
  let bs := copyBoards c o
  let ds := bs.filter definedBd
  (List.range 16).all (fun b =>
    let w := bdW c o b
    if bitAt (w 0) 31 then
      onlyFields (w 0) [(31, 1), (16, 11), (0, 11)] && onlyFields (w 1) [(16, 10), (0, 10)] && onlyFields (w 2) [(0, 11)]
      && w 3 == 0 && (List.range 8).all (fun m => onlyFields (w (4 + m)) [(0, 28)])
    else (List.range 12).all (fun i => w i == 0))
  && ds.all rectGood && noneMeet rectsMeet ds
  && (List.range 4).all (fun n => decide ((((bs.drop (4 * n)).take 4).map (·.stesyCh)).foldl (· + ·) 0 ≤ 256))
  && (List.range 8).all (fun m =>
    let qs := (ds.map (fun b => quotaOf b m)).filter (fun q => q.2 != 0)
    qs.all (fun q => decide (q.1 + q.2 ≤ 16384))
    && noneMeet (fun p q => decide (p.1 < q.1 + q.2 ∧ q.1 < p.1 + p.2)) qs)

/-- A CHANNELS record (R464): word i of channel k of HED n. [DEDUCED log 82] -/
def chW (c : Card) (o : Nat) (n k i : Nat) : Word := secW c o (sectOf (cpSects c o) 0x103) (4 * (8 * n + k) + i) 0

/-- The channel as a copy places it (R464). -/
def copyChan (c : Card) (o : Nat) (n k : Nat) : Chan :=
  let w := chW c o n k 0
  if bitAt w 31 then
    { en := true, cached := bitAt w 30, med := fld w 20 4, board := fld w 0 4
      regOfs := (chW c o n k 1).toNat, regLen := (chW c o n k 2).toNat }
  else {}

/-- The CHANNELS section (R464, R465). -/
def channelsOk (c : Card) (o : Nat) : Bool :=
  (List.range 4).all (fun n =>
    let cs := (List.range 8).map (copyChan c o n)
    (List.range 8).all (fun k =>
      let w := chW c o n k
      let v := copyChan c o n k
      onlyFields (w 0) [(31, 1), (30, 1), (20, 4), (0, 4)] && w 3 == 0
      && (!bitAt (w 0) 30 || (w 1 == 0 && w 2 == 0))
      && (!v.en || (v.board / 4 == n && definedBd (copyBoard c o v.board)
        && (if v.cached then decide (v.med < 8 ∧ (quotaOf (copyBoard c o v.board) v.med).2 ≠ 0)
            else decide (0x40000 ≤ v.regOfs ∧ v.regOfs + v.regLen ≤ 0x400000)))))
    && noneMeet (fun a b => decide (a.regOfs < b.regOfs + b.regLen ∧ b.regOfs < a.regOfs + a.regLen)
          && !(a.regOfs == b.regOfs && a.regLen == b.regLen && a.board == b.board))
        (cs.filter (fun v => v.en && !v.cached)))

/-- The RIM section (R465). -/
def rimOk (c : Card) (o : Nat) : Bool :=
  let v := sectOf (cpSects c o) 0x104
  (List.range 21).all (fun m => (List.range 32).all (fun t => !bitAt (secW c o v m 0) t || pathExists m t))

/-- Default ENERGY words (R548). -/
def energyDefault : List Word :=
  [14000, 13000, 12000, 11000, 3000, 4000, 900, 5000, 1600000, 9000, 12000, 0, 0, 0, 0, 0]

def energyW (c : Card) (o i : Nat) : Word := secW c o (sectOf (cpSects c o) 0x106) i ((energyDefault[i]?).getD 0)
def powerW (c : Card) (o i : Nat) : Word := secW c o (sectOf (cpSects c o) 0x105) i (if i = 0 then 24000 else 0)
def periphW (c : Card) (o n : Nat) : Word := secW c o (sectOf (cpSects c o) 0x108) n (if n = 0 then 0x3038 else 0x3008)
def stesyW (c : Card) (o i : Nat) : Word := secW c o (sectOf (cpSects c o) 0x107) i 0

/-- The POWER and ENERGY sections (R554). [DEDUCED log 82] -/
def powerOk (c : Card) (o : Nat) : Bool :=
  let cap := fld (powerW c o 0) 0 16
  decide (4000 ≤ cap ∧ cap ≤ 27000)
  && (List.range 84).all (fun f => let v := fld (powerW c o (1 + f)) 0 16; decide (v = 0 ∨ (100 ≤ v ∧ v ≤ 1000)))
  && (List.range 5).all (fun i => energyW c o (11 + i) == 0) && decide ((energyW c o 10).toNat ≤ 50000)

/-- Entry i of the forwarding entries of a copy. -/
def fwdEntry (c : Card) (o i : Nat) : Word × Word := (stesyW c o (2 + 2 * i), stesyW c o (3 + 2 * i))
def nfwd (c : Card) (o : Nat) : Nat := fld (stesyW c o 1) 0 13

/-- The STESY section (R598). -/
def stesyOk (c : Card) (o : Nat) : Bool :=
  let es := (List.range (nfwd c o)).map (fwdEntry c o)
  onlyFields (stesyW c o 0) [(16, 16), (0, 15)] && onlyFields (stesyW c o 1) [(0, 13)] && decide (nfwd c o ≤ 4096)
  && (List.range 4).all (fun h => decide ((es.filter (fun e => fld e.1 28 2 == h)).length ≤ 1024))
  && es.all (fun e =>
    decide (fld e.2 0 15 ≤ fld e.2 16 15) && bitAt (stesyW c o 0) (16 + 4 * fld e.1 28 2 + fld e.1 16 2)
    && onlyFields e.1 [(31, 1), (28, 2), (24, 4), (16, 2)] && onlyFields e.2 [(16, 15), (0, 15)])

/-- The PERIPH section (R528). -/
def periphOk (c : Card) (o : Nat) : Bool :=
  let ds := (copyBoards c o).filter definedBd
  let needs := fun (m : Nat) (row : Nat) => ds.any (fun b => (quotaOf b m).2 != 0
    || decide (b.y0 ≤ row ∧ row ≤ b.y1 ∧ b.x0 < 276 * (m % 4 + 1) ∧ 276 * (m % 4) ≤ b.x1))
  (List.range 4).all (fun n =>
    let w := periphW c o n
    onlyFields w [(12, 2), (4, 2), (3, 1)] && (n == 0 || fld w 4 2 == 0)
    && (bitAt w 12 || !needs n 0) && (bitAt w 13 || !needs (n + 4) 559)
    && (bitAt w 3 || !(List.range 8).any (fun k => (copyChan c o n k).en)))

/-- A copy is valid (R465): the one test of boot and CLOSE. -/
def copyValid (c : Card) (b : Bool) : Bool :=
  let o := copyBase b
  headOk c o && sectsOk c o && firmwareGood (cdBytes c 0x38 32) (copyFirmware c o) && boardsOk c o && channelsOk c o && rimOk c o
  && powerOk c o && stesyOk c o && periphOk c o

end Sys2Proof.Machine
end

