-- ==== Sys2Proof/Machine/Power.lean ====
section
/-! DEFINITION. Power: operating points, sequencers, the governor, droop, heat, power stops, Steward resets, the floor governor, the
coolant and the energy model (R532-R553, R640, R645, R646). -/
namespace Sys2Proof.Machine

/-! ### Operating points and targets -/

/-- M of an operating point (R532). -/
def opM : Nat → Nat
  | 0 => 16 | 1 => 22 | 2 => 28 | 3 => 34 | 4 => 38 | 5 => 42 | 6 => 44 | _ => 50
/-- Its voltage in mV. -/
def opV : Nat → Nat
  | 0 => 620 | 1 => 660 | 2 => 700 | 3 => 750 | 4 => 790 | 5 => 830 | 6 => 850 | _ => 920

/-- A field rectangle that R534 allows. -/
def rectOk (v : Word) : Bool :=
  onlyFields v [(16, 3), (12, 3), (8, 4), (4, 4), (0, 3)] && decide (fld v 12 3 ≤ fld v 16 3 ∧ fld v 16 3 ≤ 6)
    && decide (fld v 4 4 ≤ fld v 8 4 ∧ fld v 8 4 ≤ 11)

/-- The fields of a rectangle. -/
def rectFields (v : Word) : List Nat :=
  (List.range 84).filter (fun f =>
    decide (fld v 12 3 ≤ f / 12 ∧ f / 12 ≤ fld v 16 3 ∧ fld v 4 4 ≤ f % 12 ∧ f % 12 ≤ fld v 8 4))

/-- A field is CAPPED, or THROTTLED (R538). -/
def capped (v : FieldSt) : Bool := decide (min v.fcap v.wcap < v.target)
def throttled (v : FieldSt) : Bool := decide (v.therm < v.target)

/-- PWR_EVENT bits. -/
def pwrEvent (s : State) (i : Nat) : State := { s with pwr := { s.pwr with event := s.pwr.event ||| (1#32 <<< i) } }

/-- CAP_SEEN and THROTTLE_SEEN: some field has become CAPPED or THROTTLED since state `old`. -/
def seenFlags (old s : State) : State :=
  let any := fun (p : FieldSt → Bool) => (List.range 84).any (fun f => p (getField s f) && !p (getField old f))
  let s1 := if any capped then pwrEvent s 26 else s
  if any throttled then pwrEvent s1 25 else s1

/-- The targets of a rectangle are set. -/
def setTargets (v : Word) (s : State) : State :=
  seenFlags s ((rectFields v).foldl (fun s f => setField s f { getField s f with target := fld v 0 3 }) s)

/-- TARGET_WRITE (R534). -/
def targetWrite (v : Word) (s : State) : State :=
  let r := v &&& 0xFFFFFF#32
  if rectOk r then { setTargets r s with resp := .done } else { pwrEvent s 27 with resp := .ignored }

/-! ### The sequencer -/

/-- The Steward may start or advance a voltage step: it runs, and neither a wait nor a stop holds (R518, R542, R546). -/
def stewardActs (s : State) : Bool := s.pwr.steward && !s.clk.waiting && !s.pwr.stopped

/-- An idle sequencer whose field is not at its granted point begins a transition (R536). -/
def seqStart (f : Nat) (s : State) : State :=
  let v := getField s f
  if v.phase ≠ 0 ∨ v.granted = v.current ∨ !stewardActs s ∨ s.pwr.floor ∨ v.mesh = .off then s
  else if v.current < v.granted then
    setField s f { v with phase := 1, dest := v.granted, up := true, voltCmd := opV v.granted, voltWait := true }
  else setField s f { v with phase := 2, dest := v.granted, up := false }

/-- The frequency steps of a transition have ended: the current point is the destination (R536); a down transition goes on with
its voltage, or stops where it stands while the Steward is away (R546). -/
def freqDone (f : Nat) (s : State) : State :=
  let v := getField s f
  if v.up then seqStart f (setField s f { v with current := v.dest, phase := 0 })
  else if s.pwr.steward && !s.pwr.floor then
    setField s f { v with current := v.dest, phase := 1, voltCmd := opV v.dest, voltWait := true }
  else setField s f { v with current := v.dest, phase := 3 }

/-- M_STEP (R507, R517, R536, R547): one change of M by 1; one may fall in a switch of references, and the next waits until
REPHASE ends. Under the floor governor a field with no transition steps down to 16. -/
def mStep (f : Nat) (s : State) : Option State :=
  let v0 := getField s f
  let v := { v0 with swM := s.clk.switching }
  if v0.mesh ≠ .locked ∨ s.clk.waiting ∨ s.pwr.stopped ∨ (s.clk.switching ∧ v0.swM) then none
  else if v.phase = 2 then
    if v.m = opM v.dest then none
    else
      let m1 := if v.up then v.m + 1 else v.m - 1
      let s1 := setField s f { v with m := m1 }
      some (if m1 = opM v.dest then freqDone f s1 else s1)
  else if s.pwr.floor && 16 < v.m then
    some (setField s f { v with m := v.m - 1, phase := 0, current := if v.m = 17 then 0 else v.current })
  else none

/-- Within 10 mV. [DEDUCED log 72] -/
def nearMv (a b : Nat) : Bool := decide (a ≤ b + 10 ∧ b ≤ a + 10)

/-- The floor governor's turn: it commands field f to 620 mV once every M is 16 (R547). [DEDUCED log 74] -/
def floorTurn (f : Nat) (s : State) : Bool :=
  s.pwr.floor && s.pwr.floorAt == f
    && (List.range 84).all (fun i => let v := getField s i; v.mesh == .off || (v.m == 16 && v.phase != 2))

/-- VOLTAGE_READ (R536, R546, R547): a reading within 10 mV of the command confirms it; what a Steward reset left unconfirmed is commanded
again. [DEDUCED log 72] -/
def voltageRead (f mv : Nat) (s : State) : Option State :=
  let v := getField s f
  if s.pwr.stopped then none
  else if floorTurn f s then
    let v1 := { v with voltCmd := opV 0, voltWait := true, phase := 0 }
    some (if nearMv mv (opV 0) then
        { setField s f { v1 with volt := opV 0, voltWait := false } with pwr := { s.pwr with floorAt := f + 1 } }
      else setField s f v1)
  else if s.clk.waiting || s.pwr.floor || !((v.phase == 1 && s.pwr.steward) || (v.phase == 3 && s.pwr.inReset)) then none
  else
    let v0 := if v.phase = 3 && !v.up then { v with voltCmd := opV v.dest } else v
    if !nearMv mv v0.voltCmd then some (setField s f { v0 with voltWait := true })
    else
      let v1 := { v0 with volt := v0.voltCmd, voltWait := false }
      some (if v.up then setField s f { v1 with phase := 2 } else seqStart f (setField s f { v1 with phase := 0 }))

/-- CONFIRM_TIMEOUT (R537): the voltage last confirmed is commanded again, and the transition ends. [DESIGN CHOICE log 8, DEDUCED log 71, DEDUCED log 74] -/
def confirmTimeout (f : Nat) (s : State) : Option State :=
  let v := getField s f
  if !v.voltWait || s.clk.waiting || s.pwr.stopped then none
  else
    let v1 := { v with voltCmd := v.volt, voltWait := false, phase := 0, target := v.current, granted := min v.granted v.current }
    let s1 := pwrEvent (setField s f v1) 28
    some (if floorTurn f s then { s1 with pwr := { s1.pwr with floorAt := f + 1 } } else s1)

/-! ### The governor -/

/-- Tmax of a field in eighths of a degree. -/
def fieldTmax (s : State) (f : Nat) : Int :=
  ((List.range 4).map (fun i => sget 0 s.pwr.sens (4 * f + i))).foldl max (sget 0 s.pwr.sens (4 * f))

/-- The per-field part of a loop: thermal and field cap ceilings; pf in mW. -/
def fieldCeilings (t : Int) (pf : Nat) (v : FieldSt) : FieldSt :=
  let th := if 760 ≤ t then v.therm - 1 else if t < 720 then min (v.therm + 1) 7 else v.therm
  let cap := 1000 * v.fcapW
  let fc := if v.fcapW = 0 then v.fcap
    else if cap < pf then v.fcap - 1
    else if 10 * pf < 9 * cap then min (v.fcap + 1) 7 else v.fcap
  { v with therm := th, fcap := fc }

/-- The wafer part of a loop; p in mW (R538). -/
def waferCeilings (p : Nat) (s : State) : State :=
  let cap := 1000 * s.pwr.capW
  let fs := List.range 84
  if cap < p then
    let h := (fs.map (fun f => (getField s f).granted)).foldl max 0
    fs.foldl (fun s f => let v := getField s f
      if v.granted = h ∧ 0 < h then setField s f { v with wcap := h - 1 } else s) s
  else if 10 * p < 9 * cap then
    let open_ := fs.filter (fun f => let v := getField s f; decide (v.wcap < min v.target 7))
    let l := (open_.map (fun f => (getField s f).wcap)).foldl min 7
    open_.foldl (fun s f => let v := getField s f
      if v.wcap = l ∧ (l + 1 < 7 ∨ 100 * p < 85 * cap) then setField s f { v with wcap := l + 1 } else s) s
  else s

/-- GOVERNOR_LOOP (R538): p and pf, the powers of the last 100 µs, in mW. [DESIGN CHOICE log 70] -/
def governorLoop (p : Nat) (pf : List Nat) (s : State) : Option State :=
  if !stewardActs s || s.pwr.floor || !s.boot.done then none
  else
    let fs := List.range 84
    let s1 := fs.foldl (fun s f => setField s f (fieldCeilings (fieldTmax s f) ((pf[f]?).getD 0) (getField s f))) s
    let s2 := waferCeilings p s1
    let s3 := fs.foldl (fun s f => let v := getField s f
      setField s f { v with granted := min v.target (min v.therm (min v.fcap v.wcap)) }) s2
    let s4 := fs.foldl (fun s f => seqStart f s) s3
    some (seenFlags s { s4 with pwr := { s4.pwr with waferW := p / 1000 } })

/-! ### Droop and heat -/

/-- DROOP_TRIGGER (R540): the full stretch, in eighths of its amount. -/
def droopTrigger (f : Nat) (s : State) : Option State :=
  let v := getField s f
  if v.mesh = .off ∨ v.mesh = .stopped then none else some (setField s f { v with stretch := 8, droop := evAdd v.droop 1 })

/-- STRETCH_STEP (R540). -/
def stretchStep (f : Nat) (s : State) : Option State :=
  let v := getField s f
  if v.stretch = 0 then none else some (setField s f { v with stretch := v.stretch - 1 })

/-- The vigil domain records a stop (R499): of two causes in one tick LAST is the lower. [DEDUCED log 73] -/
def recordStop (cause : Nat) (s : State) : State :=
  let v := s.vigil
  let same := v.last != 0 && v.stopTime == s.now
  { s with vigil := { v with
      last := if same then min v.last cause else cause
      seen := v.seen ||| 2 ^ cause
      stopTime := s.now } }

/-- What a power stop does to one board (R542): its request ends with ABORT and its final completion; it reads HALTED. [DEDUCED log 73] -/
def stopBoard (s : State) (b : Nat) : State :=
  if (getBd s b).st = .undefined then s
  else modBd (abortNow s b) b (fun bd => { bd with
    st := .halted
    faultDrain := true
    drain := none
    drainPending := false
    startPending := false
    startHeld := false
    loadPass := 0
    checking := false
    arrivals := []
    releases := [] })

/-- A power stop (R542), while the fields have power; another cause in the tick of the stop joins its record (R499). [DEDUCED log 73] -/
def powerStop (cause : Nat) (s : State) : State :=
  if !s.boot.done then s
  else if s.pwr.stopped then (if s.vigil.stopTime = s.now then recordStop cause s else s)
  else
    let s1 := recordStop cause s
    let s2 := mapMesh (fun v => { v with
      mesh := .off, m := 0, phase := 0, voltCmd := 0, volt := 0, voltWait := false, stretch := 0 }) s1
    let s3 := { s2 with bricks := [], ties := [], edges := [] }
    let s4 := (List.range 16).foldl stopBoard s3
    resumeEnd (sigPower { s4 with pwr := { s4.pwr with stopped := true, request := 100 } })

/-- THERMAL_SAMPLE (R541): a sensor at 110 °C or more in two samples in a row stops the fields. -/
def thermalSample (i : Nat) (t : Int) (s : State) : State :=
  let hot := decide (880 ≤ t)
  let was := s.pwr.hot.contains i
  let s1 := { s with pwr := { s.pwr with
    sens := sset 0 s.pwr.sens i t
    hot := if hot then (if was then s.pwr.hot else i :: s.pwr.hot) else s.pwr.hot.filter (· != i) } }
  if hot && was then powerStop 5 s1 else s1

/-- FLOW_OK_LOW (R542). -/
def flowOkLow (s : State) : Option State := if !s.flowOk then none else some (powerStop 4 { s with flowOk := false })

/-- RAIL_ALERT (R542): the Steward finds a regulator's fault. -/
def railAlert (s : State) : Option State :=
  if !s.pwr.steward || s.clk.waiting then none
  else some (powerStop 6 { s with pwr := { s.pwr with regs := sset 0 s.pwr.regs 0x100 (sget 0 s.pwr.regs 0x100 ||| (1#32 <<< 30)) } })

/-! ### Steward resets and the floor governor -/

/-- A Steward reset begins (R545, R546). -/
def stewardReset (s : State) : State :=
  let s1 := pwrEvent { s with pwr := { s.pwr with steward := false, inReset := true } } 31
  sigPower ((List.range 84).foldl (fun s f => let v := getField s f
    if v.phase = 1 then setField s f { v with phase := 3 } else s) s1)

/-- STEWARD_GO: a write of PWR_STEWARD. -/
def stewardGo (v : Word) (s : State) : State :=
  if fld v 16 16 ≠ 0x57E0 ∨ !bitAt v 0 ∨ !s.boot.done then { s with resp := .ignored } else { stewardReset s with resp := .done }

/-- WATCHDOG_EXPIRY: the Steward runs and its timers count (R526, R545). -/
def watchdogExpiry (s : State) : Option State :=
  if !s.pwr.steward || s.clk.waiting || !timerOn s then none else some (stewardReset s)

/-- FAULT_STEWARD (R545, R612, R628). -/
def faultSteward (s : State) : Option State :=
  if s.pwr.inReset || !s.boot.done || s.clk.waiting then none else some (stewardReset (sigDev (devBit s 30)))

/-- STEWARD_RETURN (R545-R547): the firmware store verifies, every voltage stands confirmed, and the floor governor has finished. [DEDUCED log 74] -/
def stewardReturn (s : State) : Option State :=
  if s.pwr.steward || s.clk.waiting || !s.boot.done || !firmwareGood s.slate.fwKey s.pwr.store || (s.pwr.floor && decide (s.pwr.floorAt < 84))
      || (List.range 84).any (fun f => (getField s f).phase == 3) then none
  else some { s with pwr := { s.pwr with steward := true, inReset := false, floor := false, floorAt := 84 } }

/-- The floor governor engages (R547): a transition in its frequency steps is completed first, any other one stops. -/
def floorGo (s : State) : State :=
  let s1 := pwrEvent { s with pwr := { s.pwr with floor := true, floorAt := 0, steward := false } } 30
  sigPower ((List.range 84).foldl (fun s f => let v := getField s f
    if v.phase = 1 ∨ v.phase = 3 then setField s f { v with phase := 0, voltWait := false } else s) s1)

/-- FLOOR_ENGAGE (R547): the Steward has not returned in time. -/
def floorEngage (s : State) : Option State :=
  if !s.pwr.inReset || s.pwr.floor || s.pwr.stopped then none else some (floorGo s)

/-- BACKSTOP (R539): wafer power w in W over 1 ms. [DEDUCED log 74] -/
def backstop (w : Nat) (s : State) : Option State :=
  if !s.pwr.steward || s.pwr.stopped || w ≤ 27000 then none else some (floorGo (pwrEvent s 29))

/-! ### Coolant -/

/-- The request of R544 for the hottest sensor of the wafer, in eighths of a degree. [DEDUCED log 73] -/
def coolFor (t : Int) : Nat := (min 100 (max 40 (40 + -((-(6 * (t - 560))).fdiv 8)))).toNat

/-- The hottest of the 360 sensors. -/
def waferTmax (s : State) : Int :=
  ((List.range 360).map (fun i => sget 0 s.pwr.sens i)).foldl max (sget 0 s.pwr.sens 0)

/-- COOLANT_REQUEST (R544, R640, R645): a new request with the next SEQ, or the last one again after a NACK. -/
def coolantRequest (ack : Bool) (s : State) : Option State :=
  let p := s.pwr
  if !p.steward || s.clk.waiting || !bitAt (enW s 0) 4 then none
  else
    let seq := if p.nackAgain then (p.coolSeq + 255) % 256 else p.coolSeq
    let req := if p.nackAgain then p.request else if p.stopped then 100 else coolFor (waferTmax s)
    let pins := sget 0 p.regs 0x100
    some { s with pwr := { p with
      request := req
      coolSeq := (seq + 1) % 256
      nackAgain := !ack
      regs := sset 0 p.regs 0x100 (if ack then setFld pins 0 8 seq else pins ||| (1#32 <<< 23)) } }

/-- TRAY_READ (R640, R646): flow in 0.1 L/min, inlet temperature in 0.1 °C; none for a read that fails. -/
def trayRead (flow : Option Nat) (tin : Option Int) (s : State) : Option State :=
  let p := s.pwr
  if !p.steward || s.clk.waiting || !bitAt (enW s 0) 4 then none
  else match flow, tin with
    | some f, some t => some { s with pwr := { p with trayOk := true, flow := f, tin := t } }
    | _, _ => some { s with pwr := { p with trayOk := false } }

/-! ### Energy -/

/-- A quotient of integers rounded to the nearest, ties to even. -/
def divEven (a : Int) (d : Nat) : Int :=
  let q := a.fdiv d
  let r := a.fmod d
  if 2 * r < d then q else if (d : Int) < 2 * r then q + 1 else if q % 2 = 0 then q else q + 1

def coef (s : State) (k : Nat) : Nat := (sget 0 s.pwr.coef k).toNat

/-- Logical bricks of field f inside a board's rectangle. -/
def bricksIn (bd : Board) (f : Nat) : Nat :=
  let c := f % 12
  let r := f / 12
  if bd.st = .undefined then 0
  else (min (bd.x1 + 1) (92 * c + 92) - max bd.x0 (92 * c)) * (min (bd.y1 + 1) (80 * r + 80) - max bd.y0 (80 * r))

/-- Static energy of n bricks of field f in a sub-interval, in fJ (R549). -/
def staticFJ (s : State) (v : FieldSt) (n : Nat) : Int :=
  divEven (((coef s 9 * n * 100000 * v.v0 * v.v0 : Nat) : Int) * (32000000 + ((coef s 10 : Nat) : Int) * (v.t0 - 1920)))
    (722500 * 32000000)

/-- Dynamic energy of board b in field f, in fJ. -/
def dynFJ (s : State) (v : FieldSt) (b : Nat) : Int :=
  let n := ((List.range 8).map (fun k => coef s k * sget 0 v.act (16 * b + k))).foldl (· + ·) 0
  divEven ((v.v0 * v.v0 * n : Nat) : Int) 722500

/-- The sum of a field's four sensors. -/
def fieldTsum (s : State) (f : Nat) : Int := ((List.range 4).map (fun i => sget 0 s.pwr.sens (4 * f + i))).foldl (· + ·) 0

/-- One field's sub-interval (R549). -/
def subField (f : Nat) (s : State) : State :=
  let v := getField s f
  let bs := (List.range 16).filter (fun b => (getBd s b).st != .undefined)
  let part := fun (b : Nat) => (dynFJ s v b + staticFJ s v (bricksIn (getBd s b) f)).toNat
  let dram := fun (b : Nat) => coef s 8 * sget 0 v.act (16 * b + 8)
  let un := (staticFJ s v (7360 - (bs.map (fun b => bricksIn (getBd s b) f)).foldl (· + ·) 0)).toNat
  let s1 := bs.foldl (fun s b => modBd s b (fun bd => { bd with energyFJ := bd.energyFJ + part b + dram b })) s
  let s2 := { s1 with pwr := { s1.pwr with
    unasgFJ := s1.pwr.unasgFJ + un
    dramFJ := s1.pwr.dramFJ + (bs.map dram).foldl (· + ·) 0 } }
  setField s2 f { v with
    act := []
    v0 := v.voltCmd
    t0 := fieldTsum s f
    modelFJ := v.modelFJ + (bs.map part).foldl (· + ·) 0 + un
    unasgFJ := v.unasgFJ + un }

/-- SUB_INTERVAL_END (R548, R549). [DESIGN CHOICE log 70] -/
def subIntervalEnd (s : State) : Option State :=
  if !s.boot.done || s.clk.waiting then none else some ((List.range 84).foldl (fun s f => subField f s) s)

/-- The whole µJ of accumulated fJ. -/
def wholeUJ (c fj : Nat) : Nat := (c + fj / 1000000000) % 2 ^ 64

/-- ENERGY_PUBLISH (R549, R550): measured energies of the millisecond in µJ, of each field and of the edge dies. -/
def energyPublish (meas : List Nat) (edge : Nat) (s : State) : Option State :=
  if !s.boot.done || s.clk.waiting then none
  else
    let s1 := (List.range 84).foldl (fun s f => let v := getField s f
      setField s f { v with
        meas := (v.meas + (meas[f]?).getD 0) % 2 ^ 64
        model := wholeUJ v.model v.modelFJ
        modelFJ := v.modelFJ % 1000000000
        unasg := wholeUJ v.unasg v.unasgFJ
        unasgFJ := v.unasgFJ % 1000000000 }) s
    let s2 := (List.range 16).foldl (fun s b => modBd s b (fun bd =>
      { bd with energy := wholeUJ bd.energy bd.energyFJ, energyFJ := bd.energyFJ % 1000000000 })) s1
    let p := s2.pwr
    some { s2 with pwr := { p with
      unasg := wholeUJ p.unasg p.unasgFJ
      unasgFJ := p.unasgFJ % 1000000000
      dram := wholeUJ p.dram p.dramFJ
      dramFJ := p.dramFJ % 1000000000
      edgeMeas := (p.edgeMeas + edge) % 2 ^ 64 } }

/-- CALIBRATION (R550): the regulators' reported currents. -/
def calibration (cur : List Nat) (s : State) : Option State :=
  if !s.pwr.steward || s.clk.waiting then none else some { s with pwr := { s.pwr with calib := cur } }

/-! ### Registers -/

/-- A write of PWR_FIELD_SEL (R552). [DESIGN CHOICE log 70] -/
def pwrFieldSel (v : Word) (s : State) : State :=
  let w := fieldSelW (sget 0 s.pwr.regs 0x20) v
  let f := fieldSelIx w
  let x := getField s f
  let resid := (x.meas + 2 ^ 64 - x.model) % 2 ^ 64
  let two := fun (o n : Nat) => [(o, BitVec.ofNat 32 n), (o + 4, BitVec.ofNat 32 (n / 2 ^ 32))]
  let caps : List (Nat × Word) :=
    [(0x20, w),
     (0x24, packW [(29, 3, x.target), (26, 3, x.granted), (23, 3, x.current), (20, 3, x.wcap), (17, 3, x.fcap), (14, 3, x.therm),
       (12, 2, x.phase), (0, 12, x.volt)]),
     (0x28, packW [(16, 16, x.fcapW), (0, 10, (fieldTmax s f).toNat)])]
    ++ two 0x30 x.meas ++ two 0x38 x.model ++ two 0x40 resid ++ two 0x48 x.unasg
    ++ [(0x50, evLo x.droop), (0x54, evHi x.droop)]
  { s with pwr := { s.pwr with regs := caps.foldl (fun m p => sset 0 m p.1 p.2) s.pwr.regs }, resp := .done }

/-! ### Rows -/

/-- GOVERNOR_LOOP (R538). -/
def execGovernorLoop (p : Nat) (pf : List Nat) (s : State) : Host.Outcome State Fault Refusal := answer s (governorLoop p pf s)
/-- TARGET_WRITE (R534). -/
def execTargetWrite (f : Fn) (v : Word) (s : State) : Host.Outcome State Fault Refusal :=
  reply s (access s f .other false (isPf f) true 12 (targetWrite v s))
/-- M_STEP (R536). -/
def execMStep (fld : Fin 84) (s : State) : Host.Outcome State Fault Refusal := answer s (mStep fld s)
/-- VOLTAGE_READ (R536). -/
def execVoltageRead (fld : Fin 84) (mv : Nat) (s : State) : Host.Outcome State Fault Refusal := answer s (voltageRead fld mv s)
/-- CONFIRM_TIMEOUT (R537). -/
def execConfirmTimeout (fld : Fin 84) (s : State) : Host.Outcome State Fault Refusal := answer s (confirmTimeout fld s)
/-- DROOP_TRIGGER (R540). -/
def execDroopTrigger (fld : Fin 84) (s : State) : Host.Outcome State Fault Refusal := answer s (droopTrigger fld s)
/-- STRETCH_STEP (R540). -/
def execStretchStep (fld : Fin 84) (s : State) : Host.Outcome State Fault Refusal := answer s (stretchStep fld s)
/-- THERMAL_SAMPLE (R541). -/
def execThermalSample (sens : Fin 360) (tc : Int) (s : State) : Host.Outcome State Fault Refusal :=
  answer s (some (thermalSample sens tc s))
/-- FLOW_OK_LOW (R542). -/
def execFlowOkLow (s : State) : Host.Outcome State Fault Refusal := answer s (flowOkLow s)
/-- RAIL_ALERT (R542). -/
def execRailAlert (s : State) : Host.Outcome State Fault Refusal := answer s (railAlert s)
/-- BACKSTOP (R539). -/
def execBackstop (w : Nat) (s : State) : Host.Outcome State Fault Refusal := answer s (backstop w s)
/-- STEWARD_GO (R545). -/
def execStewardGo (f : Fn) (v : Word) (s : State) : Host.Outcome State Fault Refusal :=
  reply s (access s f .other false (isPf f) true 12 (stewardGo v s))
/-- WATCHDOG_EXPIRY (R545). -/
def execWatchdogExpiry (s : State) : Host.Outcome State Fault Refusal := answer s (watchdogExpiry s)
/-- FAULT_STEWARD (R545). -/
def execFaultSteward (s : State) : Host.Outcome State Fault Refusal := answer s (faultSteward s)
/-- STEWARD_RETURN (R546). -/
def execStewardReturn (s : State) : Host.Outcome State Fault Refusal := answer s (stewardReturn s)
/-- FLOOR_ENGAGE (R547). -/
def execFloorEngage (s : State) : Host.Outcome State Fault Refusal := answer s (floorEngage s)
/-- COOLANT_REQUEST (R544). -/
def execCoolantRequest (ack : Bool) (s : State) : Host.Outcome State Fault Refusal := answer s (coolantRequest ack s)
/-- TRAY_READ (R640). -/
def execTrayRead (flow : Option Nat) (tin : Option Int) (s : State) : Host.Outcome State Fault Refusal :=
  answer s (trayRead flow tin s)
/-- SUB_INTERVAL_END (R549). -/
def execSubIntervalEnd (s : State) : Host.Outcome State Fault Refusal := answer s (subIntervalEnd s)
/-- ENERGY_PUBLISH (R550). -/
def execEnergyPublish (meas : List Nat) (edge : Nat) (s : State) : Host.Outcome State Fault Refusal :=
  answer s (energyPublish meas edge s)
/-- CALIBRATION (R550). -/
def execCalibration (cur : List Nat) (s : State) : Host.Outcome State Fault Refusal := answer s (calibration cur s)
/-- PWR_FIELD_SEL (R552). -/
def execPwrFieldSel (f : Fn) (v : Word) (s : State) : Host.Outcome State Fault Refusal :=
  reply s (access s f .other false (isPf f) true 12 (pwrFieldSel v s))

end Sys2Proof.Machine
end

