-- ==== Sys2Proof/Machine/Slate.lean ====
section
/-! DEFINITION. The Slate mailbox, its page programs and sector erases, defect commits, the card in its socket, reads through the
Slate window (R473-R483). -/
namespace Sys2Proof.Machine

/-! ### Operations on the card -/

/-- n open bytes, from the sequence of open values. [DESIGN CHOICE log 3] -/
def freeBytes (n k : Nat) : List Byte := (List.range n).map (fun i => Config.freeByte (k + i))

/-- A page program begins (R479). -/
def startPage (s : State) (a : Nat) (bs : List Byte) : State := { s with vigil := { s.vigil with page := some (a, bs) } }

/-- The bytes of the page in progress reach the card; a program that does not end well leaves open values, bits only cleared. [DEDUCED log 80] -/
def applyPage (ok : Bool) (a : Nat) (bs : List Byte) (s : State) : State :=
  { s with
    vigil := { s.vigil with page := none }
    slate := { s.slate with card := cdProgram s.slate.card a (if ok then bs else freeBytes bs.length s.freeCtr) }
    freeCtr := if ok then s.freeCtr else s.freeCtr + bs.length }

/-- A sector whose erase does not end holds open values. [DEDUCED log 80] -/
def breakSector (a : Nat) (s : State) : State :=
  { s with
    slate := { s.slate with
      card := writeBytes 0xFF s.slate.card a (freeBytes 0x10000 s.freeCtr), sector := none, suspended := false }
    freeCtr := s.freeCtr + 0x10000 }

/-! ### Records -/

/-- The first 0x1C bytes of a life record (R466). -/
def lifeRecord (seq kind tick ix : Nat) : List Byte :=
  let r := bytesLE 4 seq ++ bytesLE 4 kind ++ bytesLE 8 tick ++ bytesLE 4 ix ++ bytesLE 4 0
  r ++ bytesLE 4 (crc32 r)

/-- A defect record with its CLOSE word (R467). -/
def defectRecord (lseq : Nat) (j : DefectJob) : List Byte :=
  let r := bytesLE 4 lseq ++ bytesLE 4 1 ++ bytesLE 4 (packNat [(0, 10, j.Y), (16, 11, j.X)])
    ++ bytesLE 4 (packNat [(0, 8, j.code), (8, 4, j.board), (12, 1, b2n j.imported)]) ++ bytesLE 8 j.tick
    ++ bytesLE 4 (packNat [(0, 10, j.y), (16, 11, j.x)])
  r ++ bytesLE 4 (crc32 r) ++ List.replicate 28 0xFF ++ bytesLE 4 0

/-! ### The mailbox -/

/-- The bytes that SLATE_DONE shows once a command has ended: an ERASE or PROGRAM gives its own (R483). -/
def doneBytes (sl : SlateSt) : Nat :=
  match sl.job with
  | some (.erase _ _) => sl.count
  | some (.program _ _ _) => sl.count
  | _ => sl.bytes

/-- The command ends: RESULT and SLATE_DONE are written, BUSY clears, the vector is signalled (R475). -/
def slateEnd (s : State) (code : Nat) : State :=
  sigSlate { s with slate := { s.slate with result := code, bytes := doneBytes s.slate, busy := false, job := none, count := 0 } }

/-- The inactive copy (R471, R474): true for B. -/
def inactiveB (s : State) : Bool := if s.slate.bootFail = 5 then s.slate.prefA else !s.slate.runB

/-- Nothing that goes before a mailbox command is under way (R477). -/
def slateFree (s : State) : Bool :=
  s.vigil.page.isNone && s.slate.commit.isNone && s.slate.queue.isEmpty

/-- What the mailbox does next, once nothing goes before it: the command begins, or goes on with its next page or sector;
the data of a PROGRAM come by DMA of HED0's PF (R557, R558). [DEDUCED log 81] -/
def slateGo (s : State) : State :=
  let sl := s.slate
  if !slateFree s then s
  else match sl.job with
    | none => s
    | some .journal => s
    | some .open_ =>
      if 19500 ≤ sl.life then slateEnd s 4
      else startPage { s with slate := { sl with life := sl.life + 1, openSeq := some (sl.life + 1) } } (lifeAt sl.life)
        (lifeRecord (sl.life + 1) (1 + 16 * b2n (inactiveB s)) s.now 0)
    | some .close =>
      if copyValid sl.card (inactiveB s) then startPage s (lifeAt (sl.openSeq.getD 1 - 1) + 0x3C) (bytesLE 4 0) else slateEnd s 7
    | some .abort => startPage s (lifeAt (sl.openSeq.getD 1 - 1) + 0x3C) (bytesLE 4 0xFFFF)
    | some (.erase ofs _) =>
      if sl.sector.isSome then { s with slate := { sl with suspended := false } }
      else { s with slate := { sl with sector := some (copyBase (inactiveB s) + ofs) } }
    | some (.program ofs _ data) =>
      if data.length < 256 || !fnMaster s (pfIx 0) then s else startPage s (copyBase (inactiveB s) + ofs) (data.take 256)

/-- Does a command's job need an open commit, an absence of one, or neither: is the state wrong (R475, R476)? -/
def stateWrong (s : State) : SlateJob → Bool
  | .open_ => s.slate.openSeq.isSome
  | .journal => false
  | _ => s.slate.openSeq.isNone

/-- OFS and LEN misaligned, zero or beyond the copy (R476). -/
def rangeWrong : SlateJob → Bool
  | .erase ofs len => decide (ofs % 0x10000 ≠ 0 ∨ len % 0x10000 ≠ 0 ∨ len = 0 ∨ 0x0F000000 < ofs + len)
  | .program ofs len _ => decide (ofs % 256 ≠ 0 ∨ len % 256 ≠ 0 ∨ len = 0 ∨ 0x0F000000 < ofs + len)
  | _ => false

/-- Boot has read the card, or failed: the mailbox knows the journals and the inactive copy. [DEDUCED log 81] -/
def slateReady (s : State) : Bool := s.boot.done || s.boot.failed || decide (6 ≤ s.boot.step)

/-- The board that a JOURNAL command's record names and the tick of its fault are open values. [DESIGN CHOICE log 83] -/
def importJob (s : State) : DefectJob :=
  { X := fld s.slate.argOfs 16 11, Y := fld s.slate.argOfs 0 10, code := fld s.slate.argLen 0 8
    board := fld (Config.freeWord s.freeCtr) 0 4, imported := true
    tick := (Config.freeWord (s.freeCtr + 1)).toNat + 2 ^ 32 * (Config.freeWord (s.freeCtr + 2)).toNat, x := 0, y := 0 }

/-- A mailbox command: ignored while one runs, refused at once, or begun (R474-R476). [DEDUCED log 84, DESIGN CHOICE log 110] -/
def slateRun (job : SlateJob) (s : State) : State :=
  let sl := s.slate
  let s0 : State := { s with resp := .done, slate := { sl with busy := true, job := some job, count := 0 } }
  if sl.busy then { s with slate := { sl with result := 1 }, resp := .ignored }
  else if !sl.present || decide (1 ≤ sl.bootFail ∧ sl.bootFail ≤ 4) then slateEnd s0 9
  else if stateWrong s job then slateEnd s0 2
  else if rangeWrong job then slateEnd s0 3
  else if job = .journal then
    { s0 with slate := { s0.slate with queue := sl.queue ++ [importJob s] }, freeCtr := s.freeCtr + 3 }
  else slateGo s0

/-- A host PF: the mailbox is reached only through it (R475). -/
def hostPf : Fn → Bool
  | .pf _ => true
  | _ => false

/-- A write of SLATE_CMD with command `code` through a function; none: it waits until boot has read the card. -/
def slateCmd (f : Fn) (v : Word) (code : Nat) (job : State → SlateJob) (s : State) : Option State :=
  if fld v 28 4 ≠ code ∨ !slateReady s then none
  else access s f .slate false (hostPf f) (slateOn s) 16 (slateRun (job s) s)

/-! ### Ends of page programs and sector erases -/

/-- The quarantine entry and the board's fault record of a defect commit that ends (R615, R627, R628). -/
def commitMark (j : DefectJob) (lost : Bool) (s : State) : State :=
  if j.imported then s
  else
    let bd := getBd s j.board
    let s1 := if bd.fltHard && bd.fltQuar && bd.fltPX == j.X && bd.fltY == j.Y then
        setBd s j.board { bd with fltJournaled := !lost, fltLost := lost }
      else s
    if lost then s1
    else { s1 with flt := { s1.flt with quar := s1.flt.quar.map (fun q =>
      if fld q.a 31 1 = 0 ∧ fld q.a 16 11 = j.X ∧ fld q.a 0 10 = j.Y then { q with a := setFld q.a 28 1 1 } else q) } }

/-- A defect commit is refused (R478): JOURNAL_LOST, or the result of a JOURNAL command. -/
def commitLost (j : DefectJob) (code : Nat) (s : State) : State :=
  let s1 := commitMark j true { s with slate := { s.slate with journalLost := true } }
  slateGo (if j.imported then slateEnd s1 code else s1)

/-- The card does not respond to a page of the defect commit in progress: the commit is lost, unless its defect record is already
valid (R476, R480). [DEDUCED log 80] -/
def commitFail (j : DefectJob) (step : Nat) (s : State) : State :=
  let s1 := { s with slate := { s.slate with commit := none } }
  if step = 3 then
    let s2 := commitMark j false s1
    slateGo (if j.imported then slateEnd s2 9 else s2)
  else commitLost j 9 s1

/-- The next step of the defect commit in progress (R477). [DEDUCED log 85] -/
def commitNext (j : DefectJob) (step life dfx : Nat) (s : State) : State :=
  let sl := s.slate
  match step with
  | 1 => startPage { s with slate := { sl with defUsed := sl.defUsed + 1, commit := some (j, 2, life, dfx) } } (defAt dfx)
      (defectRecord (life + 1) j)
  | 2 => startPage { s with slate := { sl with defValid := sl.defValid + 1, commit := some (j, 3, life, dfx) } }
      (lifeAt life + 0x3C) (bytesLE 4 0)
  | _ =>
    let s1 := commitMark j false { s with slate := { sl with commit := none } }
    slateGo (if j.imported then slateEnd s1 0 else s1)

/-- The mailbox command whose page has ended goes on: a page of a PROGRAM is read back (R475, R476); OPEN, CLOSE and ABORT end, with
CARD if the card did not respond. [DEDUCED log 80] -/
def jobNext (ok : Bool) (a : Nat) (bs : List Byte) (s : State) : State :=
  let sl := s.slate
  match sl.job with
  | some (.program ofs left data) =>
    if !ok || cdBytes sl.card a bs.length != bs then slateEnd s 5
    else
      let s1 : State := { s with slate := { sl with
        count := sl.count + 256, job := some (.program (ofs + 256) (left - 256) (data.drop 256)) } }
      if left ≤ 256 then slateEnd s1 0 else slateGo s1
  | some .open_ => if ok then slateEnd s 0 else slateEnd { s with slate := { sl with openSeq := none } } 9
  | some .close => if ok then slateEnd { s with slate := { sl with openSeq := none } } 0 else slateEnd s 9
  | some .abort => if ok then slateEnd { s with slate := { sl with openSeq := none } } 0 else slateEnd s 9
  | _ => s

/-- PAGE_PROGRAM_DONE (R477, R479, R501): the page is on the card; a program that the vigil domain completes shows. [DEDUCED log 80] -/
def pageDone (ok : Bool) (s : State) : Option State :=
  match s.vigil.page with
  | none => none
  | some (a, bs) =>
    let s1 : State := { applyPage ok a bs s with resp := .done }
    some (if !s.vigil.vstby then { s1 with vigil := { s1.vigil with programDone := s1.vigil.programDone || ok } }
      else match s.slate.commit with
        | some (j, step, life, dfx) => if ok then commitNext j step life dfx s1 else commitFail j step s1
        | none => jobNext ok a bs s1)

/-- SECTOR_ERASE_DONE (R475, R479): the sector is erased; if the card did not answer, the command ends with CARD. [DEDUCED log 80] -/
def sectorDone (ok : Bool) (s : State) : Option State :=
  match s.slate.sector, s.slate.job with
  | some a, some (.erase ofs left) =>
    if s.slate.suspended then none
    else if !ok then some (slateEnd (breakSector a { s with resp := .done }) 9)
    else
      let s1 : State := { s with
        resp := .done
        slate := { s.slate with
          card := cdErase s.slate.card a 0x10000
          sector := none
          count := s.slate.count + 0x10000
          job := some (.erase (ofs + 0x10000) (left - 0x10000)) } }
      some (if left ≤ 0x10000 then slateEnd s1 0 else slateGo s1)
  | _, _ => none

/-- DEFECT_COMMIT (R477, R478): the oldest queued commit is refused or begins; a running erase is suspended, and a page program
ends first. [DEDUCED log 85] -/
def commitStart (s : State) : Option State :=
  let sl := s.slate
  match sl.queue with
  | [] => none
  | j :: r =>
    if sl.commit.isSome || s.vigil.page.isSome || !slateOn s || !slateReady s then none
    else
      let s1 : State := { s with resp := .done, slate := { sl with queue := r } }
      if !sl.present || decide (1 ≤ sl.bootFail ∧ sl.bootFail ≤ 4) then some (commitLost j 9 s1)
      else if 20000 ≤ sl.life then some (commitLost j 4 s1)
      else if 32768 ≤ sl.life ∨ 65536 ≤ sl.defUsed then some (commitLost j 8 s1)
      else some (startPage { s1 with slate := { s1.slate with
          suspended := sl.sector.isSome
          life := sl.life + 1
          commit := some (j, 1, sl.life, sl.defUsed) } } (lifeAt sl.life)
        (lifeRecord (sl.life + 1) 2 s.now sl.defUsed))

/-! ### The card -/

/-- CARD_REMOVAL (R483): PRESENT clears; what runs on the card ends with CARD, a defect commit is lost. [DEDUCED log 84] -/
def cardOut (s : State) : Option State :=
  if !s.slate.present then none
  else
    let s1 : State := { s with
      resp := .done
      vigil := { s.vigil with page := none }
      slate := { s.slate with present := false, card := [], sfdp := none, sector := none, suspended := false, commit := none } }
    let s2 := match s.slate.commit with
      | some (j, _, _, _) => commitMark j true { s1 with slate := { s1.slate with journalLost := true } }
      | none => s1
    let imports := (s.slate.commit.toList.map (·.1)).any (·.imported)
    some (match s.slate.job with
      | none => s2
      | some .journal => if imports then slateEnd s2 9 else s2
      | some _ => slateEnd s2 9)

/-- CARD_INSERTION (R483). [DEDUCED log 84] -/
def cardIn (card : List (Nat × Byte)) (sfdp : Option Sfdp) (s : State) : Option State :=
  if s.slate.present then none
  else some { s with
    resp := .done
    slate := { s.slate with present := true, sfdp := sfdp, card := card.foldl (fun c p => sset 0xFF c (p.1 % 0x20000000) p.2) [] } }

/-- SLATE_WINDOW_READ (R481, R482), zero at a misaligned offset (R13): waits for a program of the page or an erase of the sector; a suspended erase reads 0xFF. [DEDUCED log 116] -/
def windowRead (f : Fn) (ofs : Nat) (s : State) : Option State :=
  let a := 0x80000 * fld s.slate.win 0 10 + ofs
  let waits := s.vigil.page.any (fun p => p.1 / 256 == a / 256)
    || (s.slate.sector.any (fun v => v == a / 0x10000 * 0x10000) && !s.slate.suspended)
  let ok := isPf f && decide (ofs < 0x80000)
  if ofs % 4 ≠ 0 then (if linkOk s f then some { s with resp := .value 0 } else none)
  else if ok && waits && slateOn s then none
  else access s f .ident true ok (slateOn s) 16
    (if !s.slate.present then { s with resp := .value (Config.freeWord s.freeCtr), freeCtr := s.freeCtr + 1 }
     else if s.slate.sector.any (fun v => v == a / 0x10000 * 0x10000) then { s with resp := .value 0xFFFFFFFF }
     else { s with resp := .value (cdW s.slate.card a) })

/-! ### Meanings -/

/-- SLATE_WINDOW_READ (R481). -/
def execSlateWindowRead (f : Fn) (ofs : Nat) (s : State) : Host.Outcome State Fault Refusal := reply s (windowRead f ofs s)
/-- OPEN (R475). -/
def execSlateOpen (f : Fn) (v : Word) (s : State) : Host.Outcome State Fault Refusal :=
  reply s (slateCmd f v 1 (fun _ => .open_) s)
/-- ERASE (R475). -/
def execSlateErase (f : Fn) (v : Word) (s : State) : Host.Outcome State Fault Refusal :=
  reply s (slateCmd f v 2 (fun s => .erase s.slate.argOfs.toNat s.slate.argLen.toNat) s)
/-- PROGRAM (R475): `data` is what the DMA read, cut to LEN; none or too little: the DMA has not read it yet. -/
def execSlateProgram (f : Fn) (v : Word) (data : Option (List Byte)) (s : State) : Host.Outcome State Fault Refusal :=
  reply s (slateCmd f v 3 (fun s =>
    .program s.slate.argOfs.toNat s.slate.argLen.toNat ((data.getD []).take s.slate.argLen.toNat)) s)
/-- CLOSE (R475). -/
def execSlateClose (f : Fn) (v : Word) (s : State) : Host.Outcome State Fault Refusal :=
  reply s (slateCmd f v 4 (fun _ => .close) s)
/-- ABORT (R475). -/
def execSlateAbort (f : Fn) (v : Word) (s : State) : Host.Outcome State Fault Refusal :=
  reply s (slateCmd f v 5 (fun _ => .abort) s)
/-- JOURNAL (R475). -/
def execSlateJournal (f : Fn) (v : Word) (s : State) : Host.Outcome State Fault Refusal :=
  reply s (slateCmd f v 6 (fun _ => .journal) s)
/-- PAGE_PROGRAM_DONE (R479). -/
def execPageProgramDone (ok : Bool) (s : State) : Host.Outcome State Fault Refusal := reply s (pageDone ok s)
/-- SECTOR_ERASE_DONE (R479). -/
def execSectorEraseDone (ok : Bool) (s : State) : Host.Outcome State Fault Refusal := reply s (sectorDone ok s)
/-- DEFECT_COMMIT (R477). -/
def execDefectCommit (s : State) : Host.Outcome State Fault Refusal := reply s (commitStart s)
/-- CARD_REMOVAL (R483). -/
def execCardRemoval (s : State) : Host.Outcome State Fault Refusal := reply s (cardOut s)
/-- CARD_INSERTION (R483). -/
def execCardInsertion (card : List (Nat × Byte)) (sfdp : Option Sfdp) (s : State) : Host.Outcome State Fault Refusal :=
  reply s (cardIn card sfdp s)

end Sys2Proof.Machine
end

