-- ==== Sys2Proof/Machine/Startup.lean ====
section
/-! DEFINITION. Wafer restarts, the vigil domain, boot from the Slate (R484-R501, R527, R533). -/
namespace Sys2Proof.Machine

/-! ### Wafer restarts -/

/-- Boot has begun and no restart has followed: the device is not at rest. -/
def awake (s : State) : Bool := s.boot.running || s.boot.done || s.boot.failed

/-- MOD_RESET_N is high: boot has begun, or a RESTART leads to it (R486, R490). -/
def outOfReset (s : State) : Bool := awake s || s.boot.kind == 3

/-- What a RESTART keeps of a function: the configuration space of a PF (R490). [DEDUCED log 87] -/
def keepPf (fns : SMap FnSt) : SMap FnSt :=
  [0, 1, 2, 3].foldl (fun m h => sset {} m (pfIx h) { bme := (sget {} fns (pfIx h)).bme, aer := (sget {} fns (pfIx h)).aer }) []

/-- The part at rest (R490-R492, R496): everything at reset but the vigil domain and the page program it holds, the card, the
regulators' last commands, the pins, and for RESTART the links and PF configuration. A sector being erased is left open. [DEDUCED log 86] -/
def atRest (kind : Nat) (keepLinks : Bool) (s : State) : State :=
  let s1 := match s.slate.sector with
    | some a => breakSector a s
    | none => s
  holdIfNoRef { State.reset with
    pending := s1.pending
    resp := s1.resp
    freeCtr := s1.freeCtr
    toHost := s1.toHost
    now := s1.now
    time := { continuity := s1.time.continuity, holdover := s1.time.holdover, holdSeen := s1.time.holdSeen, frac := s1.time.frac }
    vigil := s1.vigil
    slate := { present := s1.slate.present, card := s1.slate.card, sfdp := s1.slate.sfdp }
    fields := (List.range 84).foldl (fun m f =>
      sset {} m f { voltCmd := (getField s1 f).voltCmd, volt := (getField s1 f).volt }) []
    fns := if keepLinks then keepPf s1.fns else []
    ends := if keepLinks then s1.ends
      else (List.range 4).foldl (fun m h => sset {} m h { perst := (sget {} s1.ends h).perst }) []
    flowOk := s1.flowOk
    tap := { s1.tap with tdo := none }
    boot := { kind := kind } }

/-- MODULE_RESET (R490, R491, R499): MOD_RESET_N low. [DEDUCED log 87] -/
def moduleReset (s : State) : State := atRest 2 false (recordStop 2 s)

/-- POWER_LOSS (R486): an edge rail or VSTBY leaves regulation with MOD_RESET_N high. -/
def powerLoss (s : State) : Option State := if !outOfReset s then none else some (atRest 2 false (recordStop 1 s))

/-- COLD_START (R490): VSTBY has risen with the vigil domain powered; no other restart has begun. -/
def coldStart (s : State) : Option State :=
  if awake s || decide (2 ≤ s.boot.kind) then none
  else
    let s1 := atRest 1 false s
    some { s1 with vigil := { s1.vigil with vstby := true } }

/-- RESTART: a PF write of IDENT_RESTART (R490, R500). [DEDUCED log 86, DEDUCED log 87] -/
def restartCmd (v : Word) (s : State) : State :=
  if fld v 16 16 ≠ 0xB007 ∨ !bitAt v 0 then { s with resp := .ignored }
  else { atRest 3 true (recordStop 3 s) with resp := .done }

/-! ### The vigil domain -/

/-- VIGIL_LOSS (R495): the cell has fallen below 1.60 V while VSTBY is absent; a page program in progress stays partly done. -/
def vigilLoss (s : State) : Option State :=
  if s.vigil.vstby then none
  else
    let s1 := match s.vigil.page with
      | some (a, bs) => applyPage false a bs s
      | none => s
    some { s1 with vigil := { s1.vigil with fell := true } }

/-- VSTBY_LOSS (R486, R494): the vigil domain runs from the cell; with MOD_RESET_N high this is a loss of power. [DEDUCED log 87] -/
def vstbyLoss (s : State) : Option State :=
  if !s.vigil.vstby then none
  else
    let s1 := (powerLoss s).getD s
    some { s1 with vigil := { s1.vigil with vstby := false }, boot := { s1.boot with kind := 1 } }

/-- VSTBY_RETURN (R494). -/
def vstbyReturn (s : State) : Option State :=
  if s.vigil.vstby then none else some { s with vigil := { s.vigil with vstby := true } }

/-- CELL_CHECK (R501): VIGIL_BAT in mV. -/
def cellCheck (mv : Nat) (s : State) : State := { s with vigil := { s.vigil with cellLow := decide (mv < 2400) } }

/-! ### Boot -/

/-- BOOT (R487, R489, R495, R527): boot begins with step 1 and enables the configuration extensions, before any endpoint answers;
a reference that is GOOD is selected, REFCLK_A first (R511); after a vigil loss the vigil domain's registers take their reset values
and CONTINUITY is cleared. -/
def bootBegin (s : State) : Option State :=
  if awake s || !s.vigil.vstby then none
  else
    let v := s.vigil
    let s1 := { s with
      clk := { s.clk with en := [(0, 0x40000000), (1, 0x40000000), (2, 0x40000000), (3, 0x40000000)] }
      boot := { running := true, kind := if s.boot.kind = 0 then 1 else s.boot.kind, step := 1, startT := s.now }
      ends := (List.range 4).foldl (fun m h => smod {} m h (fun e =>
        if e.perst || e.up then e else { e with training := true })) s.ends
      vigil := if v.fell then { v with
          last := 0, seen := 0, stopTime := 0, lost := true, programDone := false, fell := false, zeroT := true } else v
      time := if v.fell then { s.time with continuity := false } else s.time }
    some (if s.clk.aGood then selectRef 0 s1 else if s.clk.bGood then selectRef 1 s1 else s1)

/-- Boot ends with FAILED (R474, R487, R500). -/
def bootFail (cause : Nat) (s : State) : State :=
  signal { s with
    slate := { s.slate with bootFail := cause }
    boot := { s.boot with running := false, failed := true, ms := (s.now + 2 ^ 64 - s.boot.startT) % 2 ^ 64 / 100000 } } (pfIx 0) 0

/-- Step 2 begins: the clock of the Slate controller (R527). -/
def beginVigilStep (s : State) : State :=
  { s with clk := { s.clk with en := sset 0 s.clk.en 0 (enW s 0 ||| 0x80000000#32) } }

/-- Step 3: SFDP, identity, factory map (R456-R460). -/
def identityStep (ok : Bool) (s : State) : State :=
  let c := s.slate.card
  if !s.slate.present then bootFail 1 s
  else if !ok then bootFail 2 s
  else if !sfdpGood s.slate.sfdp then bootFail 2 s
  else if identityFail c ≠ 0 then bootFail (identityFail c) s
  else
    let segs := (List.range 12).foldl (fun m fc => (List.range 560).foldl (fun m y =>
      smod {} m (segKey fc y) (fun g => { g with factory := factoryEntry c fc y })) m) s.segs
    { s with segs := segs, slate := { s.slate with uid := cdBytes c 8 16, fwKey := cdBytes c 0x38 32 } }

/-- A valid defect record joins the defect list (R470). -/
def replayDefect (c : Card) (m : SMap Seg) (j : Nat) : SMap Seg :=
  let w := cdW c (defAt j + 8)
  let X := fld w 16 11
  let y := fld w 0 10
  if X < 1152 ∧ y < 560 then smod {} m (segKey (X / 96) y) (fun g => { g with journal := g.journal ||| BitVec.ofNat 96 (2 ^ (X % 96)) })
  else m

/-- Step 4: the journals (R468-R470). -/
def journalStep (s : State) : State :=
  let c := s.slate.card
  let life := lifeUsed c
  let defs := defectsUsed c
  let valid := (List.range defs).filter (defectValid c)
  { s with
    segs := valid.foldl (replayDefect c) s.segs
    slate := { s.slate with
      life := life
      defUsed := defs
      defValid := valid.length
      voidSeen := decide (valid.length < defs) || (List.range life).any (fun i => !lifeValid c i) } }

/-- SEQ of the last valid IMAGE record of copy b among the first n slots; 0 if none. -/
def copySeq (c : Card) (b : Bool) : Nat → Nat
  | 0 => 0
  | n + 1 =>
    let k := cdNum c (lifeAt n + 4) 4
    if lifeValid c n && nfld k 0 4 == 1 && (nfld k 4 1 == 1) == b then n + 1 else copySeq c b n

/-- The bytes of the card in the range of a copy (R457). -/
def copyPart (c : Card) (b : Bool) : Card := c.filter (fun p => decide (copyBase b ≤ p.1 ∧ p.1 < copyBase b + 0x0F000000))

/-- Step 5: the running copy, which is read here and once only, and the Steward's firmware (R471, R472, R545). -/
def copyStep (ok : Bool) (s : State) : State :=
  let c := s.slate.card
  let prefB := ((lastImage c s.slate.life).map (·.2)).getD false
  let run : Option Bool := if !ok || !s.slate.present then none
    else if copyValid c prefB then some prefB else if copyValid c (!prefB) then some (!prefB) else none
  match run with
  | none => bootFail 5 { s with slate := { s.slate with prefA := !prefB } }
  | some b =>
    { s with
      pwr := { s.pwr with store := copyFirmware c (copyBase b) }
      slate := { s.slate with
        prefA := !prefB, runB := b, fallback := b != prefB, runSeq := copySeq c b s.slate.life, held := copyPart c b } }

/-- What the STESY section gives HED h: wafer ID and forwarding table elsewhere, here its ports (R583, R598). -/
def copyPorts (c : Card) (o h : Nat) : SMap Port :=
  (List.range 4).foldl (fun m k =>
    if bitAt (stesyW c o 0) (16 + 4 * h + k) then sset {} m k { enable := true, st := 2 } else m) []

/-- Forwarding entries of HED h, in order. -/
def copyFwd (c : Card) (o h : Nat) : List (Word × Word) :=
  ((List.range (nfwd c o)).map (fwdEntry c o)).filter (fun e => fld e.1 28 2 == h)

/-- Step 6: every item of R472 but the maps, from what step 5 has read; boards stay UNDEFINED until step 9 (R472, R527, R548,
R554). -/
def stewardStep (s : State) : State :=
  let c := s.slate.held
  let o := copyBase s.slate.runB
  let s1 := { s with
    slate := { s.slate with booted := true, held := [] }
    boards := (List.range 16).foldl (fun m b => sset {} m b { copyBoard c o b with st := .undefined }) []
    wafer := fld (stesyW c o 0) 0 15
    rim := { s.rim with slices := (List.range 21).foldl (fun m i => (List.range 18).foldl (fun m t =>
      if bitAt (secW c o (sectOf (cpSects c o) 0x104) i 0) t then sset 0 m (32 * i + t) 1 else m) m) [] }
    pwr := { s.pwr with
      capW := fld (powerW c o 0) 0 16
      coef := (List.range 16).foldl (fun m i => sset 0 m i (energyW c o i)) [] }
    clk := { s.clk with en := (List.range 4).foldl (fun m n =>
      sset 0 m n (sget 0 s.clk.en n ||| periphW c o n ||| packW [(8, 4, fld (stesyW c o 0) (16 + 4 * n) 4)])) [] }
    fields := (List.range 84).foldl (fun m f => smod {} m f (fun v => { v with fcapW := fld (powerW c o (1 + f)) 0 16 })) s.fields }
  (List.range 4).foldl (fun s h => modHed s h (fun e => { e with
    chans := (List.range 8).foldl (fun m k => sset {} m k (copyChan c o h k)) []
    ports := copyPorts c o h
    fwd := copyFwd c o h })) s1

/-- Step 7: DRAM and HED SRAM hold zeros with correct check bits (R487, R492). -/
def dramStep (s : State) : State :=
  let s1 := (List.range 8).foldl (fun s m => modMed s m (fun d => { d with dram := [], ecc := [] })) s
  (List.range 4).foldl (fun s h => modHed s h (fun e => { e with sram := [], sramEcc := [], cacheEcc := [] })) s1

/-- Step 8's rails: every field at OP0, its mesh begins to lock (R487, R504, R533). [DEDUCED log 88] -/
def railsOn (s : State) : State :=
  { s with fields := (List.range 84).foldl (fun m f => smod {} m f (fun v => { v with
      mesh := .locking, m := 16, voltCmd := 620, volt := 620, target := 0, granted := 0, current := 0, phase := 0, v0 := 620
      t0 := fieldTsum s f })) s.fields }

/-- Step 8's end: the maps (R54, R487). -/
def mapsStep (s : State) : State :=
  { s with
    mapsReady := true
    segs := s.segs.map (fun p => (p.1, { p.2 with mapDef := segDefects p.2, pending := false })) }

/-- Step 9: DONE (R487, R500, R533). [DEDUCED log 88] -/
def doneStep (s : State) : State :=
  let s1 := { s with
    boards := s.boards.map (fun p => if p.2.x1 = 0 then p else (p.1, { p.2 with st := .empty }))
    fields := (List.range 84).foldl (fun m f => smod {} m f (fun v => { v with target := 6, wcap := 7, fcap := 7, therm := 7 })) s.fields
    pwr := { s.pwr with steward := true }
    boot := { s.boot with
      running := false, done := true, step := 9, ms := (s.now + 2 ^ 64 - s.boot.startT) % 2 ^ 64 / 100000 } }
  signal s1 (pfIx 0) 0

/-- Boot goes on with step n, if it has not failed. -/
def toStep (n : Nat) (s : State) : State := if s.boot.failed then s else { s with boot := { s.boot with step := n } }

/-- BOOT_STEP_END (R487): the work of the step is complete; `ok`: the card has answered in steps 3 and 5. [DEDUCED log 88] -/
def bootStepEnd (ok : Bool) (s : State) : Option State :=
  if !s.boot.running || linkKept s then none
  else match s.boot.step with
    | 1 => if !s.clk.selected then none else some (toStep 2 (beginVigilStep s))
    | 2 => if s.vigil.page.isSome then none else some (toStep 3 s)
    | 3 => some (toStep 4 (identityStep ok s))
    | 4 => some (toStep 5 (journalStep s))
    | 5 => some (toStep 6 (copyStep ok s))
    | 6 => some (toStep 7 (stewardStep s))
    | 7 => let s1 := toStep 8 (dramStep s); some (if s.flowOk then railsOn s1 else s1)
    | 8 =>
      if s.flowOk && (getField s 0).mesh == .off then some (railsOn s)
      else if (List.range 84).all (fun f => clkRuns s f) then some (doneStep (mapsStep s)) else none
    | _ => none

/-- FLOW_OK_RISE (R487): FLOW_OK high; step 8 goes on, at the end of a wait if the device waits (R518). -/
def flowOkRise (s : State) : Option State :=
  if s.flowOk then none
  else
    let s1 := { s with flowOk := true }
    some (if s.boot.running && s.boot.step == 8 && !s.clk.waiting && (getField s 0).mesh == .off then railsOn s1 else s1)

/-! ### Meanings -/

/-- COLD_START (R490). -/
def execColdStart (s : State) : Host.Outcome State Fault Refusal := answer s (coldStart s)
/-- MODULE_RESET (R491). -/
def execModuleReset (s : State) : Host.Outcome State Fault Refusal := answer s (some (moduleReset s))
/-- POWER_LOSS (R486). -/
def execPowerLoss (s : State) : Host.Outcome State Fault Refusal := answer s (powerLoss s)
/-- RESTART (R490). -/
def execRestart (f : Fn) (v : Word) (s : State) : Host.Outcome State Fault Refusal :=
  reply s (access s f .ident false (isPf f) true 12 (restartCmd v s))
/-- VIGIL_LOSS (R495). -/
def execVigilLoss (s : State) : Host.Outcome State Fault Refusal := answer s (vigilLoss s)
/-- VSTBY_LOSS (R494). -/
def execVstbyLoss (s : State) : Host.Outcome State Fault Refusal := answer s (vstbyLoss s)
/-- VSTBY_RETURN (R494). -/
def execVstbyReturn (s : State) : Host.Outcome State Fault Refusal := answer s (vstbyReturn s)
/-- BOOT (R487). -/
def execBoot (s : State) : Host.Outcome State Fault Refusal := answer s (bootBegin s)
/-- BOOT_STEP_END (R487). -/
def execBootStepEnd (ok : Bool) (s : State) : Host.Outcome State Fault Refusal := answer s (bootStepEnd ok s)
/-- FLOW_OK_RISE (R487). -/
def execFlowOkRise (s : State) : Host.Outcome State Fault Refusal := answer s (flowOkRise s)
/-- CELL_CHECK (R501). -/
def execCellCheck (mv : Nat) (s : State) : Host.Outcome State Fault Refusal := answer s (some (cellCheck mv s))

end Sys2Proof.Machine
end

