-- ==== Sys2Proof/Machine/Endpoint.lean ====
section
/-! DEFINITION. The PCI Express endpoints: links, resets, bus mastering, failed reads, TILEWIN bindings (R489, R490, R493, R555-R565,
R575, R577). -/
namespace Sys2Proof.Machine

def getEnd (s : State) (h : Nat) : EndSt := sget {} s.ends h
def setEnd (s : State) (h : Nat) (v : EndSt) : State := { s with ends := sset {} s.ends h v }

/-- R425 for a board that the Slate defines and that is not resetting already. -/
def resetIfBoard (s : State) (b : Nat) : State :=
  if (getBd s b).st = .undefined ∨ (getBd s b).st = .resetting then s else doReset b s

/-- The ring registers of a board's channels are cleared (R576). -/
def clearRings (s : State) (b : Nat) : State :=
  modHed s (b / 4) (fun e => { e with
    chans := e.chans.map (fun p => if p.2.en && p.2.board == b then (p.1, { p.2 with
      ring := [], txtHead := 0, txtProd := 0, cplTail := 0, cplCons := 0, phase := false, dbErr := false, entryErr := false
      fetchErr := false, hold := false, holdPend := false }) else p) })

/-- The functions of HED h as an endpoint reset leaves them. [PRESUMED log 91] -/
def clearFns (s : State) (h : Nat) : State :=
  let s1 := (List.range 5).foldl (fun s i => setFn s (5 * h + i) {}) s
  (List.range 4).foldl (fun s k => clearRings s (4 * h + k)) s1

/-- An endpoint reset (R490, R493, R575) once its link is as it leaves it. [DESIGN CHOICE log 93] -/
def endpointReset (h : Nat) (s : State) : State :=
  clearFns ((List.range 4).foldl (fun s k => resetIfBoard s (4 * h + k)) s) h

/-- The endpoint of HED h answers configuration requests: its link is up and not with its keeper, and its configuration extension is
enabled (R489, R519, R527). -/
def configAns (s : State) (h : Nat) : Bool := (getEnd s h).up && !linkKept s && epxOn s h

/-- FLR_VF (R575). -/
def flrVf (h k : Nat) (s : State) : Option State :=
  if !configAns s h || !(getEnd s h).vfEnable then none
  else some (clearRings (setFn (resetIfBoard s (4 * h + k)) (5 * h + 1 + k) {}) (4 * h + k))

/-- FLR_PF (R575): the link stays, VF Enable clears. -/
def flrPf (h : Nat) (s : State) : Option State :=
  if !configAns s h then none
  else
    let s1 := endpointReset h s
    some (setEnd s1 h { getEnd s1 h with vfEnable := false })

/-- PERST_ASSERT (R493, R496). -/
def perstAssert (h : Nat) (s : State) : Option State :=
  if (getEnd s h).perst || linkKept s then none else some (endpointReset h (setEnd s h { perst := true }))

/-- PERST_DEASSERT (R489): the endpoint leaves rest if the device is not in reset. -/
def perstDeassert (h : Nat) (s : State) : Option State :=
  if !(getEnd s h).perst || linkKept s then none else some (setEnd s h { perst := false, training := awake s })

/-- HOT_RESET and LINK_DOWN (R575): the link trains again. -/
def linkReset (h : Nat) (s : State) : Option State :=
  if !(getEnd s h).up || linkKept s then none else some (endpointReset h (setEnd s h { perst := false, training := true }))

/-- LINK_TRAINED (R489, R527, R555): the link is up at rate 1 to 5. [DESIGN CHOICE log 112] -/
def linkTrained (h gen : Nat) (s : State) : Option State :=
  if !(getEnd s h).training || gen = 0 || linkKept s || !epxOn s h then none
  else some (setEnd s h { getEnd s h with training := false, up := true, gen := gen })

/-- Messages of a function that waited for Bus Master Enable (R558, R573). -/
def sendPending (i : Nat) (s : State) : State :=
  (List.range 32).foldl (fun s v =>
    let f := getFn s i
    if sget 0 f.pba v = 1 ∧ f.bme ∧ bitAt (sget 0 f.msix (16 * v + 12)) 0 then
      signal (setFn s i { f with pba := sset 0 f.pba v 0 }) i v
    else s) s

/-- The board whose function is VF index i of HED h, writes the completion records that waited (R558, R570). -/
def flushBoard (b : Nat) (s : State) : State :=
  (List.range 8).foldl (fun s c =>
    if (getCh s (b / 4) c).en && (getCh s (b / 4) c).board == b then flushOut (b / 4) c s else s) s

/-- A PROGRAM that waits for the PF's DMA goes on (R558). -/
def resumeProgram (s : State) : State :=
  match s.slate.job with
  | some (.program _ _ _) => slateGo s
  | _ => s

/-- BUS_MASTER_ENABLE (R527, R558): a VF that takes a configuration write is enabled. [DEDUCED log 90, DESIGN CHOICE log 112] -/
def busMaster (f : Fn) (on : Bool) (s : State) : Option State :=
  match f with
  | .steward => none
  | .pf h =>
    if !configAns s h then none
    else
      let s1 := modFn s (fnIx f) (fun v => { v with bme := on })
      some (if on then resumeProgram (sendPending (fnIx f) s1) else s1)
  | .vf h k =>
    if !configAns s h then none
    else
      let s1 := modFn (setEnd s h { getEnd s h with vfEnable := true }) (fnIx f) (fun v => { v with bme := on })
      some (if on then sendPending (fnIx f) (flushBoard (4 * h + k) s1) else s1)

/-- UNSUPPORTED_REQUEST (R564): logged under AER. [DESIGN CHOICE log 63, PRESUMED log 91] -/
def unsupported (f : Fn) (s : State) : Option State :=
  if f = .steward ∨ !linkOk s f then none
  else some { modFn s (fnIx f) (fun v => { v with aer := smod 0 v.aer 1 (· + 1) }) with resp := .unsupported }

/-- A load whose DMA read fails is refused (R565), BRD_LOAD_PROG showing the open count of bytes read until then; while the link is
with its keeper the completion is held (R519). [DEDUCED log 92] -/
def loadReadFailed (b : Nat) (s : State) : Option State :=
  let bd := getBd s b
  if bd.st ≠ .loading ∨ bd.loadPass = 0 ∨ linkKept s then none
  else some { sigBoard (setBd s b { refuseWith bd ⟨cFORMAT, 0, 0xFF, none⟩ with
    st := .empty, loadPass := 0, loadArgs := [], loadHead := [], loadPages := [], progBytes := freeCount s.freeCtr }) b with
      freeCtr := s.freeCtr + 2 }

/-- A PROGRAM command that waits for data ends with HOST (R476). [DEDUCED log 84] -/
def slateReadFailed (s : State) : Option State :=
  match s.slate.job with
  | some (.program _ _ data) =>
    if !slateFree s || decide (256 ≤ data.length) || linkKept s then none else some (slateEnd s 6)
  | _ => none

/-- DMA_READ_FAILED (R565). -/
def dmaReadFailed (c : DmaConsumer) (s : State) : Option State :=
  match c with
  | .ring h c => ringReadFailed h c s
  | .load b => loadReadFailed b s
  | .check b => checkUnread b s
  | .slate => slateReadFailed s

/-! ### TILEWIN -/

/-- TILEWIN_XY_WRITE (R562, R577): bit 31 of a kept word marks a bound aperture; PHYS is reserved in a VF. [DEDUCED log 102] -/
def tileBind (f : Fn) (v : Word) (s : State) : State :=
  let keep : Word := packW [(31, 1, 1), (30, 1, if isPf f then fld v 30 1 else 0), (0, 21, fld v 0 21)]
  { modFn s (fnIx f) (fun e => { e with tiles := sset 0 e.tiles (fld e.tileSel 0 4) keep }) with resp := .done }

/-- The physical brick that aperture a of a function reaches; none where the aperture is not valid (R563): a bypassed brick is never
addressed (R36). [DEDUCED log 102] -/
def tileTarget (s : State) (f : Fn) (a : Nat) : Option Nat :=
  let w := sget 0 (getFn s (fnIx f)).tiles a
  let x := fld w 10 11
  let y := fld w 0 10
  if !bitAt w 31 then none
  else match f with
    | .vf h k =>
      let bd := getBd s (4 * h + k)
      if inRect bd (bd.x0 + x) (bd.y0 + y) && !absent s (bd.x0 + x) (bd.y0 + y) then keyOf s (bd.x0 + x) (bd.y0 + y) else none
    | _ =>
      if bitAt w 30 then (if x < 1152 ∧ y < 560 ∧ (logX s x y).isSome then some (brickKey x y) else none)
      else if x < 1104 ∧ y < 560 ∧ !absent s x y then keyOf s x y else none

/-- TILEWIN_XY as it reads (R577). -/
def tileXY (s : State) (f : Fn) : Word :=
  let e := getFn s (fnIx f)
  let a := fld e.tileSel 0 4
  packW [(0, 31, fld (sget 0 e.tiles a) 0 31), (31, 1, b2n (tileTarget s f a).isSome)]

/-! ### Meanings -/

/-- TILEWIN_XY_WRITE (R562). -/
def execTilewinXyWrite (f : Fn) (v : Word) (s : State) : Host.Outcome State Fault Refusal :=
  reply s (access s f .other false true true 12 (tileBind f v s))
/-- FLR_VF (R575). -/
def execFlrVf (h k : Fin 4) (s : State) : Host.Outcome State Fault Refusal := answer s (flrVf h k s)
/-- FLR_PF (R575). -/
def execFlrPf (h : Fin 4) (s : State) : Host.Outcome State Fault Refusal := answer s (flrPf h s)
/-- PERST_ASSERT (R493). -/
def execPerstAssert (h : Fin 4) (s : State) : Host.Outcome State Fault Refusal := answer s (perstAssert h s)
/-- HOT_RESET (R575). -/
def execHotReset (h : Fin 4) (s : State) : Host.Outcome State Fault Refusal := answer s (linkReset h s)
/-- LINK_DOWN (R575). -/
def execLinkDown (h : Fin 4) (s : State) : Host.Outcome State Fault Refusal := answer s (linkReset h s)
/-- PERST_DEASSERT (R489). -/
def execPerstDeassert (h : Fin 4) (s : State) : Host.Outcome State Fault Refusal := answer s (perstDeassert h s)
/-- LINK_TRAINED (R489). -/
def execLinkTrained (h : Fin 4) (gen : Fin 6) (s : State) : Host.Outcome State Fault Refusal := answer s (linkTrained h gen s)
/-- BUS_MASTER_ENABLE (R558). -/
def execBusMasterEnable (f : Fn) (on : Bool) (s : State) : Host.Outcome State Fault Refusal := answer s (busMaster f on s)
/-- UNSUPPORTED_REQUEST (R564). -/
def execUnsupportedRequest (f : Fn) (s : State) : Host.Outcome State Fault Refusal := reply s (unsupported f s)
/-- DMA_READ_FAILED (R565). -/
def execDmaReadFailed (cons : DmaConsumer) (s : State) : Host.Outcome State Fault Refusal := answer s (dmaReadFailed cons s)

end Sys2Proof.Machine
end

