-- ==== Sys2Proof/Machine/Fetch.lean ====
section
/-! DEFINITION. The fetch unit: dispatch, REPEAT blocks, and the faults of a fetched word (R57, R58, R68, R112, R126-R128, R139). -/
namespace Sys2Proof.Machine

/-- What follows the dispatch of word w: the innermost level that ends there loops or pops, then the next one (R128). -/
def blockEnd (w : Nat) : List RptLevel → List RptLevel × Nat
  | [] => ([], w + 1)
  | l :: r =>
    if l.last = w then
      if 1 < l.left then ({ l with left := l.left - 1, idx := l.idx + 1 } :: r, l.first) else blockEnd w r
    else (l :: r, w + 1)

/-- The brick past word w: repeat stack and program counter. -/
def fetchNext (b : Brick) (w : Nat) : Brick :=
  let (r, pc) := blockEnd w b.rpt
  { b with rpt := r, pc := pc, dispStall := false }

/-- RI0 and RI1 at dispatch (R112). -/
def riOf (b : Brick) (i : Nat) : Word :=
  match b.rpt[i]? with
  | some l => BitVec.ofNat 32 l.idx
  | none => 0

/-- A REPEAT with its trip count read (R127, R68): the brick past it, or none for a fifth level. [DEDUCED log 65] -/
def repeatB (b : Brick) (w : DWord) (count : Nat) : Option Brick :=
  let n := fld w 16 11
  if count = 0 then some (fetchNext b (b.pc + n))
  else if b.rpt.length = 4 then none
  else some { b with rpt := ⟨b.pc + 1, b.pc + n, count, 0⟩ :: b.rpt, pc := b.pc + 1, dispStall := false }

/-- The fetch unit holds its instruction in this tcyc (R57, R68). [DEDUCED log 14] -/
def holdFetch (s : State) (k : Nat) (b : Brick) : State :=
  { setB s k { b with dispStall := true } with resp := .held }

/-- A fault of the fetch unit. [DEDUCED log 65] -/
def fetchFault (s : State) (k x y : Nat) (b : Brick) (code t : Nat) (detail : Word) : State :=
  { faultBrick s k x y b code uFetch t detail with resp := .done }

/-- One fetch and dispatch by brick (x, y) in tcyc t. With `only` given, the word must be that instruction. A REPEAT that raises
FAULT_REPEAT_DEPTH has been dispatched and counts as an activation (R115). [DEDUCED log 14, DEDUCED log 65, DESIGN CHOICE log 109] -/
def dispatchOp (only : Option BOp) (x y t : Nat) (s : State) : Option State :=
  brickAct s x y t (fun k b =>
    if !(b.st == .running || b.st == .draining) || b.haltDisp || marked b 3 then none
    else if 2048 ≤ b.pc then
      (if only.isSome then none else some (fetchFault s k x y b fPC_RANGE t 0))
    else
      let w := sget 0 b.pmem b.pc
      if only.isSome && iBOp w != only then none
      else match sget 0 b.pmemEcc b.pc with
      | 0 | 1 =>
        let b1 := if sget 0 b.pmemEcc b.pc = 1 then bump b cSecPmem 1 else b
        if !wordOk w then some (fetchFault s k x y b1 fILLEGAL t 0)
        else
          let on := counting s x y
          let op := (iBOp w).getD .nop
          match op with
          | .repi | .repg =>
            if op = .repg && writePending b (rG (iA w)) then some (holdFetch s k b)
            else
              let count := if op = .repi then iIMM w else (gReg b (iA w)).toNat
              let b2 := mark (bumpC on b1 3 1) 3
              match repeatB b2 w count with
              | some b3 => some { setB s k b3 with resp := .done }
              | none => some (fetchFault s k x y b2 fREPEAT_DEPTH t 0)
          | _ =>
            let q := queOf w
            if 8 ≤ (queGet b q).length then some (holdFetch s k b)
            else
              let e : QEntry := ⟨b.seqNext, b.pc, w, riOf b 0, riOf b 1, t + 2⟩
              let b2 := { mark (queSet b1 q (queGet b1 q ++ [e])) 3 with seqNext := b.seqNext + 1 }
              let b3 := if op = .halt then { b2 with haltDisp := true, dispStall := false } else fetchNext b2 b.pc
              some { setB s k b3 with resp := .done }
      | _ => some (fetchFault s k x y b fDED t (BitVec.ofNat 32 (2 ^ 31 + b.pc))))

/-- DISPATCH (R57). -/
def execDispatch (x : Fin 1104) (y : Fin 560) (t : Nat) (s : State) : Host.Outcome State Fault Refusal :=
  reply s (dispatchOp none x y t s)

/-- REPI (R127). -/
def execRepi (x : Fin 1104) (y : Fin 560) (t : Nat) (s : State) : Host.Outcome State Fault Refusal :=
  reply s (dispatchOp (some .repi) x y t s)

/-- REPG (R68). -/
def execRepg (x : Fin 1104) (y : Fin 560) (t : Nat) (s : State) : Host.Outcome State Fault Refusal :=
  reply s (dispatchOp (some .repg) x y t s)

/-- RESULT_RELEASE (R113). -/
def execResultRelease (x : Fin 1104) (y : Fin 560) (t : Nat) (s : State) : Host.Outcome State Fault Refusal :=
  answer s (resultRelease x y t s)

/-- ACCUM_UPDATE_COMPLETE (R172). -/
def execAccumUpdateComplete (x : Fin 1104) (y : Fin 560) (t : Nat) (s : State) : Host.Outcome State Fault Refusal :=
  answer s (accumComplete x y t s)

end Sys2Proof.Machine
end

