-- ==== Sys2Proof/Machine/BrickPort.lean ====
section
/-! DEFINITION. Brick registers through TILEWIN that act when they are written or read: program memory, data SRAM, selects, the
repeat stack (R81, R82, R141, R206, R207, R220, R252-R255, R348, R454); the segment select of IDENT (R50-R52). -/
namespace Sys2Proof.Machine

/-- The field of a physical brick. -/
def fieldOfKey (k : Nat) : Nat := 12 * (k / 1152 / 80) + k % 1152 / 96

/-- The logical place of a physical brick; (0, its row) for one that backs none, where nothing runs. -/
def placeOf (s : State) (k : Nat) : Nat × Nat := ((logX s (k % 1152) (k / 1152)).getD 0, k / 1152)

/-- An access through aperture `ap` (R562, R563): `op` on the brick it reaches, or the answer of an invalid aperture, an OFF
field, a link that is down. [DEDUCED log 102] -/
def viaAp (s : State) (f : Fn) (ap : Nat) (rd : Bool) (op : Nat → Brick → Option State) : Option State :=
  match tileTarget s f ap with
  | none => access s f .other rd false true 12 s
  | some k =>
    let on := (getField s (fieldOfKey k)).mesh != .off
    if linkOk s f && blkServed s f .other rd && on then op k (getB s k) else access s f .other rd true on 12 s

/-- A write that R73 or R248 forbids in this state. -/
def wrRefused (s : State) (k : Nat) (b : Brick) : State := { setB s k { b with wrIgnored := true } with resp := .ignored }

/-! ### Program memory -/

/-- A word of program memory as the register space reads it: an open value where it is uncorrectable. [DEDUCED log 99] -/
def pmemRead (s : State) (b : Brick) : State × DWord :=
  if sget 0 b.pmemEcc b.pmemAddr = 2 then
    ({ s with freeCtr := s.freeCtr + 2 },
     BitVec.ofNat 64 ((Config.freeWord s.freeCtr).toNat + 2 ^ 32 * (Config.freeWord (s.freeCtr + 1)).toNat))
  else (s, sget 0 b.pmem b.pmemAddr)

/-- A read of BRK_PMEM_LO (R81). -/
def pmemLoRead (s : State) (k : Nat) (b : Brick) : State :=
  let (s1, w) := pmemRead s b
  { setB s1 k { b with pmemHiShadow := BitVec.ofNat 32 (w.toNat / 2 ^ 32) } with resp := .value (BitVec.ofNat 32 w.toNat) }

/-- A read of BRK_PMEM_HI (R81). -/
def pmemHiRead (s : State) (k : Nat) (b : Brick) : State :=
  { setB s k { b with pmemAddr := (b.pmemAddr + 1) % 2048 } with resp := .value b.pmemHiShadow }

/-- A write of BRK_PMEM_LO (R81). -/
def pmemLoWrite (v : Word) (s : State) (k : Nat) (b : Brick) : State :=
  if b.st = .stopped then { setB s k { b with pmemLoHold := v } with resp := .done } else wrRefused s k b

/-- A write of BRK_PMEM_HI (R81). -/
def pmemHiWrite (v : Word) (s : State) (k : Nat) (b : Brick) : State :=
  if b.st = .stopped then
    { setB s k { b with
        pmem := sset 0 b.pmem b.pmemAddr (BitVec.ofNat 64 (b.pmemLoHold.toNat + 2 ^ 32 * v.toNat))
        pmemEcc := sset 0 b.pmemEcc b.pmemAddr 0
        pmemAddr := (b.pmemAddr + 1) % 2048 } with resp := .done }
  else wrRefused s k b

/-! ### Data SRAM -/

/-- WORD after an access (R82). -/
def sramNext (a : Nat) : Nat := if a = 0xBFFC then 0 else a + 4

/-- A bank is free for the register space in tcyc t: no unit ahead of it in R65 takes it. [DESIGN CHOICE log 101] -/
def bankForReg (s : State) (k : Nat) (b : Brick) (bank t : Nat) : Bool :=
  let p := placeOf s k
  !marked b (4 + bank) && (b.st == .stopped || b.st == .quarantined || !scBusy s p.1 p.2 b bank t)

/-- A read of BRK_SRAM_DATA granted in tcyc t (R82): an open value where the word is uncorrectable. [DEDUCED log 99, DESIGN CHOICE log 101] -/
def sramDataRead (s : State) (t k : Nat) (b0 : Brick) : Option State :=
  match brickAt b0 t with
  | none => none
  | some b =>
    let bank := bankOf b.sramAddr
    if !bankForReg s k b bank t then none
    else
      let (b1, v, bad) := sramRead (mark b (4 + bank)) b.sramAddr 4
      let b2 := { b1 with sramAddr := sramNext b.sramAddr }
      match bad with
      | none => some { setB s k b2 with resp := .value (BitVec.ofNat 32 v) }
      | some _ => some { setB s k b2 with resp := .value (Config.freeWord s.freeCtr), freeCtr := s.freeCtr + 1 }

/-- A write of BRK_SRAM_DATA granted in tcyc t (R82, R650). [DESIGN CHOICE log 101] -/
def sramDataWrite (v : Word) (s : State) (t k : Nat) (b0 : Brick) : Option State :=
  if b0.st ≠ .stopped then some (wrRefused s k b0)
  else match brickAt b0 t with
    | none => none
    | some b =>
      let bank := bankOf b.sramAddr
      if !bankForReg s k b bank t then none
      else match sramWrite (mark b (4 + bank)) b.sramAddr (bytesLE 4 v.toNat) with
        | (b1, some _) => some (wrRefused s k b1)
        | (b1, none) => some { setB s k { b1 with sramAddr := sramNext b.sramAddr } with resp := .done }

/-! ### Selects -/

/-- BRK_RT_LIVE of slot ix (R207): the flits that have entered by the brick's last tcyc. [DESIGN CHOICE log 100] -/
def rtLive (s : State) (x y : Nat) (b : Brick) (ix : Nat) : Word :=
  let q := (fifoOf b ix).filter (fun f => decide (f.due ≤ b.useT))
  let h := q.headD {}
  packW [(27, 5, sget 0 b.cred (credKey ix 0)),
    (22, 5, if (slotBranches b ix).length < 2 then 0 else sget 0 b.cred (credKey ix 1)),
    (20, 2, q.length), (19, 1, b2n h.null), (18, 1, b2n h.eom), (16, 2, waitCode s x y b ix), (0, 16, sget 0 b.fseq ix)]

/-- BRK_RT_TWX of slot ix (R220): the last load's translation; a Tirkan route word that no load has translated shows VALID alone. [DESIGN CHOICE log 128] -/
def rtTwx (b : Brick) (ix : Nat) : Word :=
  if !bitAt (rtEntry b (ix / 32) (ix % 32)) 30 then 0
  else if sget 0 b.twx ix = 0 then packW [(31, 1, 1)] else sget 0 b.twx ix

/-- A write of BRK_RT_SEL (R206, R220). -/
def rtSel (v : Word) (s : State) (k : Nat) (b : Brick) : Brick :=
  let sel := wrFields (obsW b 0x8C0) v [(5, 3, [5, 6, 7]), (0, 5, [])]
  let ix := 32 * fld sel 5 3 + fld sel 0 5
  let p := placeOf s k
  setObs (setObs (setObs b 0x8C0 sel) 0x8C4 (rtLive s p.1 p.2 b ix)) 0x8CC (rtTwx b ix)

/-- BRK_ST_LIVE of context k (R253); a bank refused in the brick's last tcyc shows as WAIT_BANK. -/
def stLive (b : Brick) (k : Nat) : Word :=
  let c := getCtx b k
  let st := ctxState b c b.useT
  packW [(28, 4, if st = 2 ∧ c.bankWait = b.useT + 1 then 6 else st), (23, 5, c.pc), (20, 3, c.loops.length), (0, 16, c.addr)]

/-- A write of BRK_ST_SEL (R252-R255). -/
def stSel (v : Word) (b : Brick) : Brick :=
  let k := fld v 0 2
  let c := getCtx b k
  let n := sget 0 b.cnt (cElem k)
  let ix := fun (l : Nat) => loopIdx c l
  [(0x890, packW [(0, 2, k)]), (0x894, stLive b k), (0x898, packW [(16, 16, ix 1), (0, 16, ix 0)]),
    (0x89C, packW [(16, 16, ix 3), (0, 16, ix 2)]), (0x8A0, evLo n), (0x8A4, evHi n)].foldl (fun b p => setObs b p.1 p.2) b

/-- A write of BRK_EQ_SEL (R348). -/
def eqSel (v : Word) (b : Brick) : Brick :=
  setObs (setObs b 0x8F0 (packW [(0, 2, fld v 0 2)])) 0x8F4 (eqLive b (fld v 0 2))

/-- A write of BRK_CC_SEL (R454): a reserved index reads zero. -/
def ccSel (v : Word) (b : Brick) : Brick :=
  let i := fld v 0 8
  let n := if ccIndex i then sget 0 b.cnt i else 0
  setObs (setObs (setObs b 0x100 (packW [(0, 8, i)])) 0x104 (evLo n)) 0x108 (evHi n)

/-- A read of BRK_RPT_POS_Ln (R141): the level's three registers, level 0 the outermost; zeros above REPEAT_DEPTH. -/
def rptPosRead (n : Nat) (s : State) (k : Nat) (b : Brick) : State :=
  let (pos, left, idx) : Word × Word × Word := match b.rpt.reverse[n]? with
    | some l => (packW [(16, 11, l.first), (0, 11, l.last)], BitVec.ofNat 32 l.left, BitVec.ofNat 32 l.idx)
    | none => (0, 0, 0)
  { setB s k (setObs (setObs b (0x844 + 0x10 * n) left) (0x848 + 0x10 * n) idx) with resp := .value pos }

/-- A select of a brick's register space is served in every state. -/
def selVia (s : State) (f : Fn) (ap : Nat) (op : Nat → Brick → Brick) : Option State :=
  viaAp s f ap false (fun k b => some { setB s k (op k b) with resp := .done })

/-! ### The segment select -/

/-- EXHAUSTED of a segment (R52), from boot's maps on (R54). -/
def segExhausted (s : State) (g : Seg) : Bool := s.mapsReady && exhausted (segDefects g)

/-- IDENT_GRID_SUM (R53): the segments with PENDING and with EXHAUSTED set; a segment that State does not list has neither. -/
def gridSum (s : State) : Word :=
  packW [(16, 13, (s.segs.filter (fun p => p.2.pending)).length), (0, 13, (s.segs.filter (fun p => segExhausted s p.2)).length)]

/-- IDENT_GRID_MAP0 to MAP2 and IDENT_GRID_ROW of a segment (R51, R52), by offset; zeros until boot has made the maps (R54). [DEDUCED log 108] -/
def gridWords (s : State) (g : Seg) : List (Nat × Word) :=
  let used := fun (p : Nat) => s.mapsReady && posUsed g.mapDef p
  let map := fun (n : Nat) => packW ((List.range 32).map (fun j => (j, 1, b2n (used (32 * n + j)))))
  let d := popBelow (segDefects g) 96
  let none_ := exhausted g.mapDef
  [(0x404, map 0), (0x408, map 1), (0x40C, map 2),
   (0x410, packW [(31, 1, b2n g.pending), (30, 1, b2n (segExhausted s g)),
     (15, 7, if s.mapsReady && none_ then 96 - d else 0), (8, 7, if s.mapsReady then d else 0),
     (0, 3, if s.mapsReady && !none_ then 4 - popBelow g.mapDef 96 else 0)])]

/-- A write of IDENT_GRID_SEL (R50). [DEDUCED log 108] -/
def gridSel (v : Word) (s : State) : State :=
  let sel := wrFields s.gridSel v [(11, 4, [12, 13, 14, 15]), (8, 3, [7]), (0, 7, (List.range 48).map (· + 80))]
  let g := getSeg s (fld sel 11 4) (80 * fld sel 8 3 + fld sel 0 7)
  { s with
    gridSel := sel, resp := .done
    grid := (gridWords s g).foldl (fun m p => sset 0 m p.1 p.2) s.grid }

/-! ### Meanings -/

/-- BRK_PMEM_LO_READ (R81). -/
def execBrkPmemLoRead (f : Fn) (ap : Fin 16) (s : State) : Host.Outcome State Fault Refusal :=
  reply s (viaAp s f ap true (fun k b => some (pmemLoRead s k b)))
/-- BRK_PMEM_HI_READ (R81). -/
def execBrkPmemHiRead (f : Fn) (ap : Fin 16) (s : State) : Host.Outcome State Fault Refusal :=
  reply s (viaAp s f ap true (fun k b => some (pmemHiRead s k b)))
/-- BRK_PMEM_LO_WRITE (R81). -/
def execBrkPmemLoWrite (f : Fn) (ap : Fin 16) (v : Word) (s : State) : Host.Outcome State Fault Refusal :=
  reply s (viaAp s f ap false (fun k b => some (pmemLoWrite v s k b)))
/-- BRK_PMEM_HI_WRITE (R81). -/
def execBrkPmemHiWrite (f : Fn) (ap : Fin 16) (v : Word) (s : State) : Host.Outcome State Fault Refusal :=
  reply s (viaAp s f ap false (fun k b => some (pmemHiWrite v s k b)))
/-- BRK_SRAM_DATA_READ (R82). -/
def execBrkSramDataRead (f : Fn) (ap : Fin 16) (t : Nat) (s : State) : Host.Outcome State Fault Refusal :=
  reply s (viaAp s f ap true (fun k b => sramDataRead s t k b))
/-- BRK_SRAM_DATA_WRITE (R82). -/
def execBrkSramDataWrite (f : Fn) (ap : Fin 16) (t : Nat) (v : Word) (s : State) : Host.Outcome State Fault Refusal :=
  reply s (viaAp s f ap false (fun k b => sramDataWrite v s t k b))
/-- IDENT_GRID_SEL (R50). -/
def execIdentGridSel (f : Fn) (v : Word) (s : State) : Host.Outcome State Fault Refusal :=
  reply s (access s f .ident false (isPf f) true 12 (gridSel v s))
/-- BRK_RT_SEL (R206). -/
def execBrkRtSel (f : Fn) (ap : Fin 16) (v : Word) (s : State) : Host.Outcome State Fault Refusal :=
  reply s (selVia s f ap (fun k b => rtSel v s k b))
/-- BRK_ST_SEL (R252). -/
def execBrkStSel (f : Fn) (ap : Fin 16) (v : Word) (s : State) : Host.Outcome State Fault Refusal :=
  reply s (selVia s f ap (fun _ b => stSel v b))
/-- BRK_EQ_SEL (R348). -/
def execBrkEqSel (f : Fn) (ap : Fin 16) (v : Word) (s : State) : Host.Outcome State Fault Refusal :=
  reply s (selVia s f ap (fun _ b => eqSel v b))
/-- BRK_CC_SEL (R454). -/
def execBrkCcSel (f : Fn) (ap : Fin 16) (v : Word) (s : State) : Host.Outcome State Fault Refusal :=
  reply s (selVia s f ap (fun _ b => ccSel v b))
/-- BRK_RPT_POS_READ (R141). -/
def execBrkRptPosRead (f : Fn) (ap : Fin 16) (n : Fin 4) (s : State) : Host.Outcome State Fault Refusal :=
  reply s (viaAp s f ap true (fun k b => some (rptPosRead n s k b)))

end Sys2Proof.Machine
end

