-- ==== Sys2Proof/Machine/Control.lean ====
section
/-! DEFINITION. Control in the S queue and scalar data SRAM access (R125, R129, R130, R122-R124). -/
namespace Sys2Proof.Machine

/-- NOP (R125): NOP issues and does nothing. -/
def execNop (x : Fin 1104) (y : Fin 560) (t : Nat) (s : State) : Host.Outcome State Fault Refusal :=
  answer s (issueOp .nop x y t s)

/-- MARK (R129): MARK writes VALUE and increments SEQ of BRK_MARK in one write. -/
def execMark (x : Fin 1104) (y : Fin 560) (t : Nat) (s : State) : Host.Outcome State Fault Refusal :=
  answer s (issueOp .mark x y t s)

/-- HALT (R69): HALT waits until the other queues are empty and no write is pending, then puts the brick in HALTED. -/
def execHalt (x : Fin 1104) (y : Fin 560) (t : Nat) (s : State) : Host.Outcome State Fault Refusal :=
  answer s (issueOp .halt x y t s)

/-- LDW (R123): LDW reads a 32-bit word of data SRAM into D. -/
def execLdw (x : Fin 1104) (y : Fin 560) (t : Nat) (s : State) : Host.Outcome State Fault Refusal :=
  answer s (issueOp .ldw x y t s)

/-- STW (R123): STW writes a 32-bit word of data SRAM, merging under R650. -/
def execStw (x : Fin 1104) (y : Fin 560) (t : Nat) (s : State) : Host.Outcome State Fault Refusal :=
  answer s (issueOp .stw x y t s)

end Sys2Proof.Machine
end

