-- ==== Sys2Proof/Machine/Faults.lean ====
section
/-! DEFINITION. Reports of faults: classes, first fault, hard faults, quarantine, split views, sideband polls (R609-R620, R626-R628). -/
namespace Sys2Proof.Machine

/-! ### Order and class -/

/-- The order of R611 among faults: the earlier tick; then faults that name a brick, by y, x and code; then by code. -/
def faultBefore (a b : Raised) : Bool :=
  if a.tick ≠ b.tick then decide (a.tick < b.tick)
  else match a.brick, b.brick with
    | some p, some q =>
      if p.2 ≠ q.2 then decide (p.2 < q.2) else if p.1 ≠ q.1 then decide (p.1 < q.1) else decide (a.code < b.code)
    | some _, none => true
    | none, some _ => false
    | none, none => decide (a.code < b.code)

/-- The fault to be reported next. -/
def firstFault : List Raised → Option Raised
  | [] => none
  | a :: r => match firstFault r with
    | none => some a
    | some b => if faultBefore b a then some b else some a

/-- Classes P, H and I drain their board (R609, R610). -/
def drainsBoard (code : Nat) : Bool :=
  decide ((1 ≤ code ∧ code ≤ 8) ∨ (0x10 ≤ code ∧ code ≤ 0x17) ∨ code = 0x20 ∨ code = 0x21)

/-- Class H faults attributed to a brick (R609, R614). -/
def hardBrick (code : Nat) : Bool := code == fDED || code == fLINK || code == fSIDEBAND

/-! ### Quarantine -/

/-- A quarantine joins the list, or the count beyond 4,096 (R616). -/
def listQuar (a : Word) (b : Word) (s : State) : State :=
  if s.flt.quar.length < 4096 then { s with flt := { s.flt with quar := s.flt.quar ++ [⟨a, b⟩] } }
  else { s with flt := { s.flt with quarCount := min 0xFFFF (s.flt.quarCount + 1) } }

/-- The second word of an entry: the board of the unit's brick and the code. -/
def quarB (s : State) (x y code : Nat) : Word :=
  match boardAt s x y with
  | some b => packW [(12, 1, 1), (8, 4, b), (0, 8, code)]
  | none => packW [(0, 8, code)]

/-- The first word: a bridge or link with its input, or a brick; physical coordinates of a key. -/
def quarA (link : Bool) (d k : Nat) : Word :=
  packW [(31, 1, b2n link), (29, 2, if link then d else 0), (16, 11, k % 1152), (0, 10, k / 1152)]

/-- A SPLIT_VIEW (R620): the path that judged the unit faulty, the other one having judged it healthy. [DEDUCED log 97] -/
def splitView (unit : Word) (code : Nat) (mgmt : Bool) (s : State) : State :=
  let s1 := { s with flt := { s.flt with
    splitUnit := unit
    splitView := if mgmt then packW [(16, 8, code)] else packW [(24, 8, code)]
    splitTime := s.now
    splitCount := min 0xFFFF (s.flt.splitCount + 1) } }
  sigDev (devBit s1 29)

/-- A hard fault quarantines its brick (R615): its segment is pending, and a defect commit is queued. -/
def quarBrick (e : Raised) (x y : Nat) (s : State) : State :=
  let k := e.phys
  let b := getB s k
  if b.st = .quarantined then s
  else
    let b1 := { b with st := .quarantined }
    let s1 := setB s k (if e.kept then setObs b1 0xC00 (obsW b1 0xC00 ||| (1#32 <<< 30)) else b1)
    let X := k % 1152
    let g := getSeg s1 (X / 96) (k / 1152)
    let s2 := setSeg s1 (X / 96) (k / 1152) { g with quar := g.quar ||| BitVec.ofNat 96 (2 ^ (X % 96)), pending := true }
    let s3 := listQuar (quarA false 0 k) (quarB s2 x y e.code) s2
    let s4 := splitView (quarA false 0 k) e.code e.mgmt s3
    { s4 with slate := { s4.slate with queue := s4.slate.queue ++ [
      { X := X, Y := k / 1152, code := e.code, board := (boardAt s4 x y).getD 0, imported := false, tick := e.tick, x := x, y := y }] } }

/-- The brick, and its input, that name a tie or in-field link: the south or east side (R616). -/
def linkName (x y d : Nat) : Nat × Nat × Nat :=
  if d = 0 ∨ d = 3 then (x, y, d)
  else match neighbour x y d with
    | some (x', y') => (x', y', facing d)
    | none => (x, y, d)

/-- Marks input d of (x, y) as quarantined, at both ends of its link or tie. -/
def markLink (s : State) (x y d : Nat) : State :=
  let mark := fun (s : State) (x y d : Nat) => match keyOf s x y with
    | some k => modB s k (fun b => { b with quarLinks := b.quarLinks ||| (1#4 <<< d) })
    | none => s
  match neighbour x y d with
  | some (x', y') => mark (mark s x y d) x' y' (facing d)
  | none => mark s x y d

/-- Has input d of (x, y) been quarantined? -/
def linkMarked (s : State) (x y d : Nat) : Bool := (keyOf s x y).any (fun k => (getB s k).quarLinks.getLsbD d)

/-- Quarantine of a tie, edge bridge or link (R615, R616); links record no SPLIT_VIEW (R620). -/
def quarLink (e : Raised) (x y d : Nat) (s : State) : State :=
  if linkMarked s x y d then s
  else
    let nm := if e.code = fEDGE then (x, y, d) else linkName x y d
    let k := (keyOf s nm.1 nm.2.1).getD e.phys
    let a := quarA true nm.2.2 k
    let s1 := listQuar a (quarB s nm.1 nm.2.1 e.code) (markLink s x y d)
    if e.code = fLINK then s1 else splitView a e.code e.mgmt s1

/-- FAULT_LINK raised on the in-field link at input d of (x, y), both directions together. [DEDUCED log 97] -/
def linkCount (s : State) (x y d : Nat) : Nat :=
  let at_ := fun (x y d : Nat) => match keyOf s x y with
    | some k => sget 0 (getB s k).linkFaults d
    | none => 0
  match neighbour x y d with
  | some (x', y') => at_ x y d + at_ x' y' (facing d)
  | none => at_ x y d

/-- Does a channel cross the bridge at input d of (x, y): an enabled entry of that input, or one that leaves toward it (R610)? -/
def bridgeUsed (s : State) (x y d : Nat) (edge : Bool) : Bool :=
  match keyOf s x y with
  | none => false
  | some k =>
    let b := getB s k
    (List.range 32).any (fun sl => !(slotBranches b (32 * d + sl)).isEmpty)
    || (List.range 5).any (fun i => (List.range 32).any (fun sl =>
      (slotBranches b (32 * i + sl)).any (fun br => if edge then br.dir == 5 || br.dir == 6 else br.dir == d)))

/-! ### Reports -/

/-- The board's record of a fault (R611, R627). -/
def boardRecord (b : Nat) (e : Raised) (hard quar : Bool) (s : State) : State :=
  modBd s b (fun bd =>
    let old : Raised := { code := bd.fltCode, board := some b, brick := if bd.fltBrick then some (bd.fltX, bd.fltY) else none
                          phys := 0, detail := 0, tick := bd.fltTick, again := false }
    let bd1 := { bd with fltCount := min 0xFFFF (bd.fltCount + 1) }
    if bd.fltValid && !faultBefore e old then bd1
    else { bd1 with
      fltValid := true
      fltHard := hard
      fltQuar := quar
      fltJournaled := false
      fltLost := false
      fltCode := e.code
      fltBrick := e.brick.isSome
      fltX := (e.brick.getD (0, 0)).1
      fltY := (e.brick.getD (0, 0)).2
      fltPX := e.phys % 1152
      fltDetail := e.detail
      fltTick := e.tick })

/-- A brick's history of class H faults, its three latest first (R614, R626). -/
def noteHist (e : Raised) (s : State) : State :=
  if e.brick.isSome && hardBrick e.code then modB s e.phys (fun b => { b with hist := (e.tick :: b.hist).take 3 }) else s

/-- Is the fault hard, its brick's history noted (R614)? -/
def isHard (s : State) (e : Raised) : Bool :=
  e.brick.isSome && hardBrick e.code
    && (e.again || e.code == fSIDEBAND || (match (getB s e.phys).hist with
      | [_, _, c] => decide (e.tick - c ≤ 360000000000)
      | _ => false))

/-- FAULT_REPORT (R609-R616): the first fault in order is classed, quarantines what it must, and reaches its board. A fault of a
bridge that no channel of its board crosses reaches no board. [DEDUCED log 97] -/
def faultReport (s : State) : Option State :=
  match firstFault s.raised with
  | none => none
  | some e =>
    let s1 := noteHist e { s with raised := s.raised.erase e }
    let hard := isHard s1 e
    let d := e.detail.toNat % 4
    let bridge := e.code == fTIE || e.code == fEDGE
    let p := e.brick.getD (0, 0)
    let link := bridge || (e.code == fLINK && decide (2 ≤ linkCount s1 p.1 p.2 d))
    let board := if bridge && !bridgeUsed s1 p.1 p.2 d (e.code == fEDGE) then none else e.board
    let s2 := if hard then quarBrick e p.1 p.2 s1 else s1
    let s3 := if link then quarLink e p.1 p.2 d s2 else s2
    match board with
    | none => some s3
    | some b =>
      let s4 := boardRecord b e hard (hard || link) s3
      let s5 := if drainsBoard e.code then faultDrainGo b s4 else s4
      let s6 := if e.code = fBOARD_RESET then sigDev (devBit s5 27) else s5
      some (sigFault s6 b)

/-! ### Polls -/

/-- A poll of the brick at logical (x, y) (R619): after three in a row without an answer it is judged faulty. [DEDUCED log 97] -/
def pollBrick (silent : List (Nat × Nat)) (s : State) (x y : Nat) : State :=
  match keyOf s x y with
  | none => s
  | some k =>
    let b := getB s k
    if b.st = .quarantined then s
    else if !silent.contains (x, y) then (if b.missed = 0 then s else setB s k { b with missed := 0 })
    else if b.missed + 1 = 3 then faultBrick s k x y { b with missed := 3 } fSIDEBAND uMgmt b.useT 3
    else setB s k { b with missed := b.missed + 1 }

/-- The read of a tie's retry count (R619). -/
def pollTie (f : Nat) (s : State) (p : Nat × Tie) : State :=
  let x := p.1 / 4 % 1104
  let y := p.1 / 4 / 1104
  if fieldOf x y ≠ f then s
  else
    let v := { p.2 with retriesRead := p.2.retries }
    if !p.2.dead && decide (1000 < p.2.retries - p.2.retriesRead) then
      tieDies s x y (p.1 % 4) (((keyOf s x y).map (fun k => (getB s k).useT)).getD 0) v uMgmt
    else setTie s p.1 v

/-- The read of an edge bridge's retry count (R619). -/
def pollEdge (f : Nat) (s : State) (p : Nat × EdgeBr) : State :=
  let x := p.1 / 2
  let y := if p.1 % 2 = 1 then 559 else 0
  if fieldOf x y ≠ f then s
  else
    let v := { p.2 with retriesRead := p.2.retries }
    if p.2.dead || decide (p.2.retries - p.2.retriesRead ≤ 1000) then setEdge s p.1 v
    else
      let s1 := setEdge s p.1 { v with dead := true }
      match keyOf s x y with
      | none => s1
      | some k =>
        let i := if p.1 % 2 = 1 then 2 else 0
        let b := getB s1 k
        faultBrick s1 k x y { b with bridgeDead := b.bridgeDead ||| (1#4 <<< i) } fEDGE uMgmt b.useT (BitVec.ofNat 32 i)

/-- SIDEBAND_POLL (R619): the field controller of field f polls its bricks, those at `silent` not answering, and reads the retry
counts of the bridges that feed the field. -/
def sidebandPoll (f : Nat) (silent : List (Nat × Nat)) (s : State) : Option State :=
  if !s.mapsReady || (getField s f).mesh == .off || s.clk.waiting then none
  else
    let s1 := (List.range 7360).foldl (fun s i => pollBrick silent s (92 * (f % 12) + i % 92) (80 * (f / 12) + i / 92)) s
    some (s1.edges.foldl (pollEdge f) (s1.ties.foldl (pollTie f) s1))

/-- A write of FAULT_QUAR_SEL (R628). -/
def quarSel (v : Word) (s : State) : State :=
  let i := fld v 0 12
  let e := (s.flt.quar[i]?).getD ⟨0, 0⟩
  { s with flt := { s.flt with quarSel := BitVec.ofNat 32 i, quarA := e.a, quarB := e.b }, resp := .done }

/-! ### Meanings -/

/-- FAULT_REPORT (R612). -/
def execFaultReport (s : State) : Host.Outcome State Fault Refusal := answerRun s (faultReport s)
/-- SIDEBAND_POLL (R619). -/
def execSidebandPoll (fld : Fin 84) (silent : List (Nat × Nat)) (s : State) : Host.Outcome State Fault Refusal :=
  answer s (sidebandPoll fld silent s)
/-- FAULT_QUAR_SEL (R628). -/
def execFaultQuarSel (f : Fn) (v : Word) (s : State) : Host.Outcome State Fault Refusal :=
  reply s (access s f .other false (isPf f) true 12 (quarSel v s))

end Sys2Proof.Machine
end

