-- ==== Sys2Proof/Machine/Message.lean ====
section
/-! DEFINITION. Messages and synchronisation of class 0x5 (R131-R138). -/
namespace Sys2Proof.Machine

/-- SEND (R132): SEND spends one credit and sends one flit on its slot, null if predicated off. -/
def execSend (x : Fin 1104) (y : Fin 560) (t : Nat) (s : State) : Host.Outcome State Fault Refusal :=
  answer s (issueOp .send x y t s)

/-- SENDP (R132): SENDP spends two credits and sends two flits on its slot. -/
def execSendp (x : Fin 1104) (y : Fin 560) (t : Nat) (s : State) : Host.Outcome State Fault Refusal :=
  answer s (issueOp .sendp x y t s)

/-- ARRIVE (R300): ARRIVE, with OUT below 2, sends an arrival of parity NP into the barrier tree. -/
def execArrive (x : Fin 1104) (y : Fin 560) (t : Nat) (s : State) : Host.Outcome State Fault Refusal :=
  answer s (issueOp .arrive x y t s)

/-- WAITB (R302): WAITB issues once the brick's OUT for the barrier is zero. -/
def execWaitb (x : Fin 1104) (y : Fin 560) (t : Nat) (s : State) : Host.Outcome State Fault Refusal :=
  answer s (issueOp .waitb x y t s)

/-- CASTLE (R236): CASTLE waits for DONE, swaps the buffer's halves and clears DONE. -/
def execCastle (x : Fin 1104) (y : Fin 560) (t : Nat) (s : State) : Host.Outcome State Fault Refusal :=
  answer s (issueOp .castle x y t s)

end Sys2Proof.Machine
end

