-- ==== Sys2Proof/Machine/Predicate.lean ====
section
/-! DEFINITION. The compares and predicate instructions of class 0x2 (R120, R121). -/
namespace Sys2Proof.Machine

/-- CMPEQ (R120): CMPEQ sets p[PD] to A = B. -/
def execCmpeq (x : Fin 1104) (y : Fin 560) (t : Nat) (s : State) : Host.Outcome State Fault Refusal :=
  answer s (issueOp .cmpeq x y t s)

/-- CMPNE (R120): CMPNE sets p[PD] to A ≠ B. -/
def execCmpne (x : Fin 1104) (y : Fin 560) (t : Nat) (s : State) : Host.Outcome State Fault Refusal :=
  answer s (issueOp .cmpne x y t s)

/-- CMPLT (R120): CMPLT sets p[PD] to signed A < B. -/
def execCmplt (x : Fin 1104) (y : Fin 560) (t : Nat) (s : State) : Host.Outcome State Fault Refusal :=
  answer s (issueOp .cmplt x y t s)

/-- CMPLE (R120): CMPLE sets p[PD] to signed A ≤ B. -/
def execCmple (x : Fin 1104) (y : Fin 560) (t : Nat) (s : State) : Host.Outcome State Fault Refusal :=
  answer s (issueOp .cmple x y t s)

/-- CMPLTU (R120): CMPLTU sets p[PD] to unsigned A < B. -/
def execCmpltu (x : Fin 1104) (y : Fin 560) (t : Nat) (s : State) : Host.Outcome State Fault Refusal :=
  answer s (issueOp .cmpltu x y t s)

/-- CMPLEU (R120): CMPLEU sets p[PD] to unsigned A ≤ B. -/
def execCmpleu (x : Fin 1104) (y : Fin 560) (t : Nat) (s : State) : Host.Outcome State Fault Refusal :=
  answer s (issueOp .cmpleu x y t s)

/-- TSTNZ (R120): TSTNZ sets p[PD] to (A AND B) ≠ 0. -/
def execTstnz (x : Fin 1104) (y : Fin 560) (t : Nat) (s : State) : Host.Outcome State Fault Refusal :=
  answer s (issueOp .tstnz x y t s)

/-- PAND (R120): PAND combines two predicates by AND. -/
def execPand (x : Fin 1104) (y : Fin 560) (t : Nat) (s : State) : Host.Outcome State Fault Refusal :=
  answer s (issueOp .pand x y t s)

/-- POR (R120): POR combines two predicates by OR. -/
def execPor (x : Fin 1104) (y : Fin 560) (t : Nat) (s : State) : Host.Outcome State Fault Refusal :=
  answer s (issueOp .por x y t s)

/-- PXOR (R120): PXOR combines two predicates by XOR. -/
def execPxor (x : Fin 1104) (y : Fin 560) (t : Nat) (s : State) : Host.Outcome State Fault Refusal :=
  answer s (issueOp .pxor x y t s)

/-- PNULL (R121): PNULL copies a port's null flag into p[PD]. -/
def execPnull (x : Fin 1104) (y : Fin 560) (t : Nat) (s : State) : Host.Outcome State Fault Refusal :=
  answer s (issueOp .pnull x y t s)

/-- PGET (R120): PGET copies p7..p0 into a g register. -/
def execPget (x : Fin 1104) (y : Fin 560) (t : Nat) (s : State) : Host.Outcome State Fault Refusal :=
  answer s (issueOp .pget x y t s)

/-- PPUT (R120): PPUT writes p1..p7 from bits of A. -/
def execPput (x : Fin 1104) (y : Fin 560) (t : Nat) (s : State) : Host.Outcome State Fault Refusal :=
  answer s (issueOp .pput x y t s)

end Sys2Proof.Machine
end

