-- ==== Sys2Proof/Machine/Stesy.lean ====
section
/-! DEFINITION. Stesy ports: training, units, credits, retry; channel slots and the injector; notices (R580-R608). -/
namespace Sys2Proof.Machine

/-! ### Units as bytes: K, then W0 to W7 -/

/-- Words of a control unit (R580). -/
def ctlBytes (ws : List Word) : List Byte :=
  (1 : Byte) :: ((ws ++ List.replicate (8 - ws.length) 0).flatMap (fun (w : Word) => bytesLE 4 w.toNat))

/-- A data unit as it is sent (R581, R582). -/
def dataBytes (u : DUnit) : List Byte :=
  let w0 := packW [(30, 2, u.typ), (16, 12, u.lseq), (8, 8, u.hop), (7, 1, b2n u.svc), (0, 6, u.lc)]
  let w1 := packW [(17, 15, u.dwafer), (15, 2, u.dhed), (7, 8, u.dslot), (3, 4, u.epoch)]
  (0 : Byte) :: (([w0, w1] ++ u.body ++ List.replicate (6 - u.body.length) 0).flatMap (fun (w : Word) => bytesLE 4 w.toNat))

/-- Word i of the 32 bytes after K. -/
def unitW (l : List Byte) (i : Nat) : Word := BitVec.ofNat 32 (ofBytesLE ((l.drop (4 * i)).take 4))

/-- A data unit read from its 32 bytes. -/
def readUnit (l : List Byte) : DUnit :=
  let w0 := unitW l 0
  let w1 := unitW l 1
  { typ := fld w0 30 2, lseq := fld w0 16 12, hop := fld w0 8 8, svc := bitAt w0 7, lc := fld w0 0 6
    dwafer := fld w1 17 15, dhed := fld w1 15 2, dslot := fld w1 7 8, epoch := fld w1 3 4
    body := (List.range 6).map (fun i => unitW l (2 + i)) }

/-! ### Training -/

/-- The port passes HELLOs. -/
def hellos (p : Port) : Bool := p.st == 3 || (p.st == 5 && p.aligned)

/-- ALIGN_LOCK (R583). -/
def alignLock (h k : Nat) (s : State) : Option State :=
  let p := getPort s h k
  if linkKept s then none
  else if p.st = 2 then some (portEvent s h k 3)
  else if p.st = 5 ∧ !p.aligned then some (setPortP s h k { p with aligned := true })
  else none

/-- HELLO_SEND (R580, R583). -/
def helloSend (h k : Nat) (s : State) : Option State :=
  if linkKept s || !hellos (getPort s h k) then none
  else some { s with resp := .bytes (ctlBytes [packW [(28, 4, 2)], packW [(0, 15, s.wafer), (16, 2, h), (18, 2, k)], 1]) }

/-- The port enters ACTIVE: with fresh credits the first time, else with its stored units to be sent again (R586, R589). [DEDUCED log 95] -/
def goActive (h k : Nat) (s : State) : State :=
  let p := getPort s h k
  let p1 := if p.wasActive then { p with again := p.replay, aligned := false }
    else { p with wasActive := true, txCred := (List.range 65).foldl (fun m l => sset 0 m l (if l = 64 then 64 else 16)) [] }
  portEvent (setPortP s h k p1) h k 4

/-- A port becomes DEAD: its stored and queued units count as NOROUTE (R589). -/
def goDead (h k : Nat) (s : State) : State :=
  let p := getPort s h k
  let n := p.replay.length + (p.txq.map (fun q => q.2.length)).foldl (· + ·) 0
  dropNoroute (portEvent (setPortP s h k { p with replay := [], again := [], txq := [] }) h k 6) h n

/-- What the FEC decoder says of a received unit's codeword (R607): 0 clean, 1 corrected, 2 uncorrectable; `first`: the unit is the
first of its codeword that is taken up, so that the codeword is counted once. -/
def fecCount (fec : Nat) (first : Bool) (p : Port) : Port :=
  if !first then p
  else match fec with
    | 0 => p
    | 1 => { p with fecCe := evAdd p.fecCe 1 }
    | _ => { p with fecUe := evAdd p.fecUe 1 }

/-- HELLO_RECEIVE (R583, R584): 32 bytes of a control unit; one from an uncorrectable codeword is discarded (R588). [DEDUCED log 95] -/
def helloReceive (h k : Nat) (l : List Byte) (fec : Nat) (first : Bool) (s0 : State) : Option State :=
  let p := fecCount fec first (getPort s0 h k)
  let s := setPortP s0 h k p
  let w := unitW l 1
  let who := (fld w 0 15, fld w 16 2, fld w 18 2)
  let accepted := fld (unitW l 2) 0 8 == 1 && !(who.1 == s.wafer && who.2.1 == h)
  if linkKept s || !hellos p then none
  else if fec = 2 then some s
  else if fld (unitW l 0) 28 4 ≠ 2 then none
  else if p.st = 5 then
    (if !accepted || p.peer != some who then some (goDead h k s)
     else
      let n := p.hellos + 1
      let s1 := setPortP s h k { p with hellos := n }
      some (if 16 ≤ n then goActive h k s1 else s1))
  else if !accepted then some (portEvent s h k 7)
  else
    let n := if p.helloLast = some who then p.hellos + 1 else 1
    let s1 := setPortP s h k { p with hellos := n, helloLast := some who, peer := some (p.peer.getD who) }
    some (if 16 ≤ n then goActive h k s1 else s1)

/-- The port leaves ACTIVE for RETRAIN (R589). [DEDUCED log 95] -/
def goRetrain (h k : Nat) (s : State) : State :=
  let p := getPort s h k
  portEvent (setPortP s h k { p with aligned := false, hellos := 0, helloLast := none, nakSeq := none, nakCount := 0 }) h k 5

/-- RETRAIN: marker lock lost for 1 ms (R589). -/
def retrain (h k : Nat) (s : State) : Option State :=
  if (getPort s h k).st ≠ 4 ∨ linkKept s then none else some (goRetrain h k s)

/-- RETRAIN_TIMEOUT (R583). [DESIGN CHOICE log 8] -/
def retrainTimeout (h k : Nat) (s : State) : Option State :=
  if (getPort s h k).st ≠ 5 ∨ linkKept s then none else some (goDead h k s)

/-! ### Sending -/

/-- Lanes whose total has changed since it was reported, in the order of R606. -/
def pendingLanes (p : Port) : List Nat :=
  (64 :: (List.range 64).map (fun i => (p.repPtr + 1 + i) % 64)).filter (fun l => sget 0 p.retTot l != sget 0 p.repTot l)

/-- The credit fields of up to 14 lanes. -/
def creditWords (p : Port) (ls : List Nat) : List Word :=
  let f := fun (l : Nat) => packNat [(15, 1, 1), (14, 1, b2n (l == 64)), (8, 6, l % 64), (0, 7, sget 0 p.retTot l)]
  let fs := (ls.map f) ++ List.replicate (14 - ls.length) 0
  (List.range 7).map (fun i => packW [(0, 16, (fs[2 * i]?).getD 0), (16, 16, (fs[2 * i + 1]?).getD 0)])

/-- The LINK unit: a NAK before an ACK (R580, R588, R606). [DEDUCED log 95] -/
def sendLink (h k : Nat) (s : State) : State :=
  let p := getPort s h k
  let ls := (pendingLanes p).take 14
  let aseq := if p.nakDue then p.expect else (p.expect + 4095) % 4096
  let w0 := packW [(28, 4, 1), (27, 1, b2n (p.ackDue && !p.nakDue)), (26, 1, b2n p.nakDue),
    (12, 12, if p.nakDue || p.ackDue then aseq else 0)]
  { setPortP s h k { p with
      repTot := ls.foldl (fun m l => sset 0 m l (sget 0 p.retTot l)) p.repTot
      repPtr := ((ls.filter (· < 64)).getLast?).getD p.repPtr
      nakDue := false
      ackDue := p.ackDue && p.nakDue
      linkWait := 64 } with resp := .bytes (ctlBytes (w0 :: creditWords p ls)) }

/-- A new data unit of a lane goes out: it takes the next LSEQ, spends a credit and stays in the replay store. -/
def sendNew (h k lane : Nat) (u : DUnit) (s : State) : State :=
  let p := getPort s h k
  let v := { u with lseq := p.nextSeq }
  { setPortP s h k { p with
      txq := smod [] p.txq lane (List.drop 1)
      txCred := smod 0 p.txCred lane (· - 1)
      nextSeq := (p.nextSeq + 1) % 4096
      replay := p.replay ++ [v]
      lanePtr := if lane < 64 then lane else p.lanePtr } with resp := .bytes (dataBytes v) }

/-- The first unit that may go: of the service lane, then of the link channels in turn (R586-R588). -/
def nextUnit (p : Port) : Option (Nat × DUnit) :=
  if 2048 ≤ p.replay.length then none
  else (64 :: (List.range 64).map (fun i => (p.lanePtr + 1 + i) % 64)).findSome? (fun l =>
    match sget [] p.txq l with
    | u :: _ => if sget 0 p.txCred l = 0 then none else some (l, u)
    | [] => none)

/-- UNIT_SEND (R587, R588): one unit position. While the device waits the link keeper sends IDLE (R519). -/
def unitSend (h k : Nat) (s : State) : Option State :=
  let p := getPort s h k
  let idle := fun (s : State) => ({ s with resp := .bytes (ctlBytes [0]) } : State)
  if p.st ≠ 4 then none
  else if linkKept s then some (idle s)
  else if p.linkWait = 0 ∧ (p.nakDue || p.ackDue || !(pendingLanes p).isEmpty) then some (sendLink h k s)
  else
    let s1 := setPortP s h k { p with linkWait := p.linkWait - 1 }
    match p.again with
    | u :: r => some { setPortP s1 h k { p with linkWait := p.linkWait - 1, again := r, retry := evAdd p.retry 1 } with
        resp := .bytes (dataBytes u) }
    | [] => match nextUnit p with
      | some (l, u) => some (sendNew h k l u s1)
      | none => some (idle s1)

/-! ### Receiving -/

/-- DATA_UNIT_RECEIVE (R588): accepted if its codeword decoded and its LSEQ is the one expected, else discarded, with one NAK for
the gap; while the device waits an accepted unit stays in its buffer (R519). [DESIGN CHOICE log 78, DEDUCED log 95] -/
def dataUnitReceive (h k : Nat) (l : List Byte) (fec : Nat) (first : Bool) (s : State) : Option State :=
  let p := fecCount fec first (getPort s h k)
  let u := readUnit l
  if p.st ≠ 4 then none
  else if fec != 2 && u.lseq == p.expect then
    let p1 := { p with expect := (p.expect + 1) % 4096, nakOut := false, nakDue := false, ackDue := true }
    some (if linkKept s then setPortP s h k { p1 with rx := smod [] p.rx (laneOfUnit u) (fun q => q ++ [u]) }
      else leaveBuffer (setPortP s h k p1) h k u)
  else
    some (setPortP s h k { p with nakDue := p.nakDue || !p.nakOut, nakOut := true })

/-- The credit fields of a LINK unit (R606). -/
def takeCredits (p : Port) (l : List Byte) : Port :=
  (List.range 14).foldl (fun p i =>
    let f := fld (unitW l (1 + i / 2)) (16 * (i % 2)) 16
    let lane := if nfld f 14 1 = 1 then 64 else nfld f 8 6
    if nfld f 15 1 = 0 then p
    else { p with
      txCred := smod 0 p.txCred lane (· + (nfld f 0 7 + 128 - sget 0 p.lastTot lane) % 128)
      lastTot := sset 0 p.lastTot lane (nfld f 0 7) }) p

/-- LINK_UNIT_RECEIVE (R588, R589, R606): a control unit in ACTIVE. IDLE does nothing; one of a reserved CTYPE, or from an
uncorrectable codeword, is discarded (R580, R588). -/
def linkUnitReceive (h k : Nat) (l : List Byte) (fec : Nat) (first : Bool) (s : State) : Option State :=
  let p := fecCount fec first (getPort s h k)
  let w0 := unitW l 0
  let aseq := fld w0 12 12
  if p.st ≠ 4 ∨ linkKept s then none
  else if fec = 2 ∨ fld w0 28 4 ≠ 1 then some (setPortP s h k p)
  else
    let p1 := takeCredits p l
    let covered := bitAt w0 27 && p1.replay.any (fun u => u.lseq == aseq)
    let p2 := if covered then
        (let rest := (p1.replay.dropWhile (fun u => u.lseq != aseq)).drop 1
         let same := p1.nakSeq.any (fun n => rest.any (fun u => u.lseq == n))
         { p1 with
           replay := rest
           again := p1.again.filter (fun u => rest.contains u)
           nakSeq := if same then p1.nakSeq else none
           nakCount := if same then p1.nakCount else 0 })
      else p1
    if bitAt w0 26 then
      let n := if p2.nakSeq = some aseq then p2.nakCount + 1 else 1
      let s1 := setPortP s h k { p2 with
        again := p2.replay.dropWhile (fun u => u.lseq != aseq), nakSeq := some aseq, nakCount := n }
      some (if 16 ≤ n then goRetrain h k s1 else s1)
    else some (setPortP s h k p2)

/-! ### Channel slots -/

/-- An OUT slot is offered for sending (R593, R603). -/
def offered (s : State) (v : Slot) : Bool :=
  v.used && !v.dirIn && v.opened && !v.closed && !v.ring.isEmpty && decide (0 < v.credits) && (getBd s v.board).st != .stalemate

/-- FLITS_SEND (R593): the offered slot next in turn sends one unit. -/
def flitsSend (b slot : Nat) (s : State) : Option State :=
  let h := b / 4
  let e := getHed s h
  let v := getSlot s h slot
  let first := ((List.range 256).map (fun i => (e.slotPtr + i) % 256)).find? (fun i => offered s (getSlot s h i))
  if s.clk.waiting || v.board ≠ b || first ≠ some slot then none
  else
    let n := min 5 (min v.ring.length v.credits)
    let fs := v.ring.take n
    let marks := fs.zipIdx.foldl (fun (a : Nat) p => a + 2 ^ p.2 * b2n p.1.null + 2 ^ (5 + p.2) * b2n p.1.eom) (2 ^ 16 * n)
    let u := mkUnit 0 v.pWafer v.pHed v.pSlot v.pEpoch (BitVec.ofNat 32 marks :: fs.map (·.data))
    let s1 := setSlot s h slot { v with ring := v.ring.drop n, credits := v.credits - n }
    some (originate (modHed s1 h (fun e => { e with slotPtr := (slot + 1) % 256 })) h u)

/-- CREDIT_UNIT_SEND (R595): the flits written and not yet returned, once the peer's address is known. [DEDUCED log 96] -/
def creditUnitSend (b slot : Nat) (s : State) : Option State :=
  let h := b / 4
  let v := getSlot s h slot
  if s.clk.waiting || v.board ≠ b || !v.used || !v.dirIn || v.closed || v.ret = 0 || !(getBd s b).assembled
      || (getBd s b).st == .stalemate then none
  else
    let u := mkUnit 1 v.pWafer v.pHed v.pSlot v.pEpoch [BitVec.ofNat 32 v.ret]
    some (originate (setSlot s h slot { v with ret := 0 }) h u)

/-- INJECTOR_WRITE (R364, R594): up to 8 landed flits, as many as the injection store has room for. -/
def injectorWrite (b slot : Nat) (s : State) : Option State :=
  let h := b / 4
  let v := getSlot s h slot
  let key := slotKey v.inCol v.inLane v.inSlot
  let n := min 8 (min v.ring.length (16 - (sget [] (getMed s v.inMed).inj key).length))
  if s.clk.waiting || v.board ≠ b || !v.used || !v.dirIn || v.closed || n = 0 || (getBd s b).st == .stalemate
      || (getBd s b).smDeclared then none
  else some (setSlot (injectInto v.inMed key b (v.ring.take n) s).1 h slot { v with ring := v.ring.drop n, ret := v.ret + n })

/-! ### Notices -/

/-- The list without its first element that satisfies p. -/
def dropFirst {α : Type} (p : α → Bool) : List α → List α
  | [] => []
  | a :: l => if p a then l else a :: dropFirst p l

/-- The oldest notice of board b is taken from the store, if it is of a kind: it acts by `act` on its words W2 to W7, or is
discarded as STALE (R604). It waits while the board loads. [DEDUCED log 59] -/
def takeNotice (b kind : Nat) (act : List Word → State → Option State) (s : State) : Option State :=
  let h := b / 4
  let bd := getBd s b
  match (getHed s h).notices.find? (fun n => n.1 == b) with
  | none => none
  | some n =>
    let w := fun (i : Nat) => ((n.2[i]?).getD 0 : Word)
    if fld (w 0) 28 4 ≠ kind ∨ bd.st = .loading ∨ s.clk.waiting then none
    else
      let s1 := modHed s h (fun e => { e with notices := dropFirst (fun n => n.1 == b) e.notices })
      if bd.st = .undefined ∨ bd.st = .empty ∨ bd.st = .resetting ∨ bd.imageId ≠ (w 1).toNat + 2 ^ 32 * (w 2).toNat then
        some (dropStale s1 h)
      else act n.2 s1

/-- Words of a notice: FROM and FLAGS. -/
def noteW (ws : List Word) (i : Nat) : Word := (ws[i]?).getD 0
def noteFrom (ws : List Word) : Nat := fld (noteW ws 0) 0 16
def noteFlags (ws : List Word) : Nat := fld (noteW ws 0) 16 8

/-- A LOADED notice (R427, R601). -/
def onLoaded (b : Nat) (ws : List Word) (s : State) : Option State :=
  some (tryAssemble b (modBd s b (fun bd => { bd with
    notes := bd.notes.filter (fun n => n.piece != noteFrom ws)
      ++ [{ piece := noteFrom ws, count := fld (noteW ws 3) 0 16, records := [] }] })))

/-- A RECORD notice (R601). -/
def onRecord (b : Nat) (ws : List Word) (s : State) : Option State :=
  some (tryAssemble b (modBd s b (fun bd => { bd with
    notes := bd.notes.map (fun n =>
      if n.piece = noteFrom ws then { n with records := n.records ++ [(noteW ws 3, noteW ws 4)] } else n) })))

/-- A START notice (R429, R601): held until assembly. -/
def onStart (b : Nat) (ws : List Word) (s : State) : Option State :=
  let bd := getBd s b
  let s1 := setBd s b { bd with
    pieceHome := noteFrom ws, startHeld := bd.startHeld || (bd.st == .loaded && !bd.assembled && !bd.pieceBad) }
  some (if bd.st = .loaded ∧ bd.assembled then startGo b (s.now + 8) s1 else s1)

/-- An ARM notice (R601). -/
def onArm (b : Nat) (ws : List Word) (s : State) : Option State :=
  some (modBd s b (fun bd => { bd with armIn := (noteFlags ws).testBit 0 }))

/-- A DRAIN notice (R430, R431, R601): it waits for a start that is under way, and is held with a START notice that is held. [DEDUCED log 59] -/
def onDrain (b : Nat) (ws : List Word) (s : State) : Option State :=
  let bd := getBd s b
  let f := noteFlags ws
  if bd.startPending then none
  else
    let s1 := if f.testBit 2 then setBd s b { bd with
        pieceHome := noteFrom ws
        finalDrain := true
        finalW := (noteW ws 4).toNat + 2 ^ 32 * fld (noteW ws 3) 16 16
        finalS := (noteW ws 5).toNat + 2 ^ 32 * fld (noteW ws 3) 0 16 } else s
    let hard := f.testBit 0
    let abort := f.testBit 1
    some (if bd.st = .running ∨ bd.st = .draining then startDrain b hard abort s1
      else if bd.st = .loaded ∧ bd.startHeld then
        (let d := bd.heldDrain.getD (false, false)
         modBd s1 b (fun bd => { bd with heldDrain := some (d.1 || hard, d.2 || abort) }))
      else s1)

/-- A QUIET notice (R602). -/
def onQuiet (b : Nat) (ws : List Word) (s : State) : Option State :=
  some (modBd s b (fun bd => { bd with
    quietFrom := if bd.quietFrom.contains (noteFrom ws) then bd.quietFrom else bd.quietFrom ++ [noteFrom ws] }))

/-- A STALEMATE notice (R430): a piece that is still draining, in either step, ends in STALEMATE. -/
def onStalemate (b : Nat) (_ : List Word) (s : State) : Option State :=
  let bd := getBd s b
  some (if bd.st = .draining ∨ (bd.st = .running ∧ bd.drain.isSome) then declare b 2 s else s)

/-- A REFUSE notice (R411, R601). -/
def onRefuse (b : Nat) (_ : List Word) (s : State) : Option State := some (setBd s b (pieceRefused (getBd s b)))

/-! ### Select registers (R607, R608) -/

/-- A write of LSEL; lanes 65 to 127 are reserved (R16). -/
def lselWrite (h k : Nat) (v : Word) (s : State) : State :=
  let p := getPort s h k
  let lane := if fld v 0 7 ≤ 64 then fld v 0 7 else fld p.lsel 0 7
  { setPortP s h k { p with
      lsel := BitVec.ofNat 32 lane
      llive := packW [(25, 7, sget 0 p.txCred lane), (18, 7, (sget [] p.rx lane).length)] } with resp := .done }

/-- A write of CSEL. -/
def cselWrite (h : Nat) (v : Word) (s : State) : State :=
  let i := fld v 0 8
  let c := getSlot s h i
  { modHed s h (fun e => { e with
      csel := BitVec.ofNat 32 i
      cA := packW [(31, 1, b2n c.used), (30, 1, b2n c.dirIn), (29, 1, b2n (c.opened && !c.closed)), (25, 4, c.board), (21, 4, c.epoch),
        (0, 16, c.chan)]
      cB := packW [(17, 15, c.pWafer), (15, 2, c.pHed), (7, 8, c.pSlot), (3, 4, c.pEpoch)]
      cC := packW [(23, 9, if c.dirIn then c.ret else c.credits), (14, 9, c.ring.length)] }) with resp := .done }

/-- A write of FSEL. -/
def fselWrite (h : Nat) (v : Word) (s : State) : State :=
  let i := fld v 0 10
  { modHed s h (fun e =>
      let w := (e.fwd[i]?).getD (0, 0)
      { e with fsel := BitVec.ofNat 32 i, f0 := w.1, f1 := w.2 }) with resp := .done }

/-! ### Meanings -/

/-- STESY_LSEL (R607). -/
def execStesyLsel (f : Fn) (h k : Fin 4) (v : Word) (s : State) : Host.Outcome State Fault Refusal :=
  reply s (access s f .other false (isPf f) (stesyOn s h k) (12 + h) (lselWrite h k v s))
/-- STESY_CSEL (R608). -/
def execStesyCsel (f : Fn) (h : Fin 4) (v : Word) (s : State) : Host.Outcome State Fault Refusal :=
  reply s (access s f .other false (isPf f) true (12 + h) (cselWrite h v s))
/-- STESY_FSEL (R608). -/
def execStesyFsel (f : Fn) (h : Fin 4) (v : Word) (s : State) : Host.Outcome State Fault Refusal :=
  reply s (access s f .other false (isPf f) true (12 + h) (fselWrite h v s))
/-- ALIGN_LOCK (R583). -/
def execAlignLock (h k : Fin 4) (s : State) : Host.Outcome State Fault Refusal := answer s (alignLock h k s)
/-- HELLO_SEND (R583). -/
def execHelloSend (h k : Fin 4) (s : State) : Host.Outcome State Fault Refusal := reply s (helloSend h k s)
/-- HELLO_RECEIVE (R584). -/
def execHelloReceive (h k : Fin 4) (u : List Byte) (fec : Fin 3) (first : Bool) (s : State) : Host.Outcome State Fault Refusal :=
  answer s (helloReceive h k u fec first s)
/-- RETRAIN (R589). -/
def execRetrain (h k : Fin 4) (s : State) : Host.Outcome State Fault Refusal := answer s (retrain h k s)
/-- RETRAIN_TIMEOUT (R583). -/
def execRetrainTimeout (h k : Fin 4) (s : State) : Host.Outcome State Fault Refusal := answer s (retrainTimeout h k s)
/-- UNIT_SEND (R587). -/
def execUnitSend (h k : Fin 4) (s : State) : Host.Outcome State Fault Refusal := reply s (unitSend h k s)
/-- DATA_UNIT_RECEIVE (R588). -/
def execDataUnitReceive (h k : Fin 4) (u : List Byte) (fec : Fin 3) (first : Bool) (s : State) : Host.Outcome State Fault Refusal :=
  answer s (dataUnitReceive h k u fec first s)
/-- LINK_UNIT_RECEIVE (R606). -/
def execLinkUnitReceive (h k : Fin 4) (u : List Byte) (fec : Fin 3) (first : Bool) (s : State) : Host.Outcome State Fault Refusal :=
  answer s (linkUnitReceive h k u fec first s)
/-- FLITS_SEND (R593). -/
def execFlitsSend (b : Fin 16) (slot : Fin 256) (s : State) : Host.Outcome State Fault Refusal := answer s (flitsSend b slot s)
/-- CREDIT_UNIT_SEND (R595). -/
def execCreditUnitSend (b : Fin 16) (slot : Fin 256) (s : State) : Host.Outcome State Fault Refusal :=
  answer s (creditUnitSend b slot s)
/-- INJECTOR_WRITE (R594). -/
def execInjectorWrite (b : Fin 16) (slot : Fin 256) (s : State) : Host.Outcome State Fault Refusal :=
  answer s (injectorWrite b slot s)
/-- LOADED_NOTICE (R601). -/
def execLoadedNotice (b : Fin 16) (s : State) : Host.Outcome State Fault Refusal := answer s (takeNotice b nLOADED (onLoaded b) s)
/-- RECORD_NOTICE (R601). -/
def execRecordNotice (b : Fin 16) (s : State) : Host.Outcome State Fault Refusal := answer s (takeNotice b nRECORD (onRecord b) s)
/-- START_NOTICE (R429). -/
def execStartNotice (b : Fin 16) (s : State) : Host.Outcome State Fault Refusal := answer s (takeNotice b nSTART (onStart b) s)
/-- ARM_NOTICE (R601). -/
def execArmNotice (b : Fin 16) (s : State) : Host.Outcome State Fault Refusal := answer s (takeNotice b nARM (onArm b) s)
/-- DRAIN_NOTICE (R430). -/
def execDrainNotice (b : Fin 16) (s : State) : Host.Outcome State Fault Refusal := answer s (takeNotice b nDRAIN (onDrain b) s)
/-- QUIET_NOTICE (R602). -/
def execQuietNotice (b : Fin 16) (s : State) : Host.Outcome State Fault Refusal := answer s (takeNotice b nQUIET (onQuiet b) s)
/-- STALEMATE_NOTICE (R430). -/
def execStalemateNotice (b : Fin 16) (s : State) : Host.Outcome State Fault Refusal :=
  answer s (takeNotice b nSTALEMATE (onStalemate b) s)
/-- REFUSE_NOTICE (R411). -/
def execRefuseNotice (b : Fin 16) (s : State) : Host.Outcome State Fault Refusal := answer s (takeNotice b nREFUSE (onRefuse b) s)

end Sys2Proof.Machine
end

