-- ==== Sys2Proof/Machine/Time.lean ====
section
/-! DEFINITION. Global time and scheduled actions (R312-R325, R535). -/
namespace Sys2Proof.Machine

/-! ### Entries -/

/-- Device entry e, and board b's entry e. -/
def devEnt (s : State) (e : Nat) : SchedEnt := sget {} s.time.dev e
def brdEnt (s : State) (b e : Nat) : SchedEnt := sget {} s.time.brd (brdEntKey b e)

/-- An entry by its number of examination: device entry e, board b's entry e as 16 + 8b + e. -/
def entOf (s : State) (k : Nat) : SchedEnt := if k < 16 then devEnt s k else sget {} s.time.brd (k - 16)
def setEnt (s : State) (k : Nat) (v : SchedEnt) : State :=
  { s with time := if k < 16 then { s.time with dev := sset {} s.time.dev k v }
    else { s.time with brd := sset {} s.time.brd (k - 16) v } }

/-- T, ACTION and ARG of an entry. -/
def entT (v : SchedEnt) : Nat := v.tLo.toNat + 2 ^ 32 * v.tHi.toNat
def entAct (v : SchedEnt) : Nat := fld v.act 24 4
def entArg (v : SchedEnt) : Word := v.act &&& 0xFFFFFF#32

/-- The number of an entry that a command names, and its board. -/
def entKey : SchedEntry → Nat
  | .dev e => e
  | .board b e => 16 + 8 * b + e
def entBoard : SchedEntry → Option Nat
  | .dev _ => none
  | .board b _ => some b

/-- May an entry's action be armed in its kind of entry (R317, R429, R534)? [DEDUCED log 75] -/
def mayArm (s : State) (k : Nat) (v : SchedEnt) : Bool :=
  if k < 16 then entAct v == 4 && rectOk (entArg v)
  else match entAct v with
    | 1 => let bd := getBd s ((k - 16) / 8); bd.pieces == 0 || bd.home
    | 2 => true
    | 3 => true
    | _ => false

/-- A write of an entry's ACT: reserved ACTION codes are ignored (R16). [DEDUCED log 75] -/
def actW (old v : Word) : Word := wrFields old v [(31, 1, []), (30, 1, []), (24, 4, [5, 6, 7, 8, 9, 10, 11, 12, 13, 14, 15]), (0, 24, [])]

/-- SCHEDULE_ARM (R317): a write of ACT with ARM = 1. [DEDUCED log 75] -/
def schedArm (k : Nat) (v : Word) (s : State) : State :=
  let e := entOf s k
  if e.st = 1 then { s with resp := .ignored }
  else
    let e1 := { e with act := actW e.act (v ||| 0x80000000#32) }
    if mayArm s k e1 then { setEnt s k { e1 with st := 1, late := false, lateness := 0 } with resp := .done }
    else { setEnt s k e1 with resp := .done }

/-! ### Execution -/

/-- The condition of an entry's action (R317, R535). -/
def entCond (s : State) (k : Nat) : Bool :=
  let v := entOf s k
  if k < 16 then entAct v == 4 && stewardActs s
  else
    let b := (k - 16) / 8
    let bd := getBd s b
    match entAct v with
    | 1 => bd.st == .loaded && bd.assembled && bd.home && !bd.startPending
    | 2 => bd.st == .running || (bd.st == .loaded && bd.startPending && bd.startTs == s.now)
    | 3 =>
      let n := fld (entArg v) 0 6
      barOn bd n && barTimed bd n && (bd.st == .running || bd.st == .draining) && decide (sget 0 bd.barGate n < 2)
    | _ => false

/-- Can entry k execute in this tick: ARMED, reached, its condition holding (R318)? -/
def entDue (s : State) (k : Nat) : Bool :=
  let v := entOf s k
  v.st == 1 && decide (entT v ≤ s.now) && !s.clk.waiting && !s.pwr.stopped && entCond s k

/-- Every context with START = 1 of the board's bricks that has not begun begins, in bricks that run; in those still to start,
the start begins it (R222, R317). [DEDUCED log 77] -/
def streamsBegin (b : Nat) (s : State) : State :=
  (boardBricks s b).foldl (fun s p => modB s p.2.2 (fun k => (List.range 4).foldl (fun k c =>
    if (getCtx k c).phase = .held && bitAt (cfgW k (0x600 + 4 * c)) 31 then beginCtx k c else k) k)) s

/-- The effect of an entry's action. -/
def entEffect (k : Nat) (s : State) : State :=
  let v := entOf s k
  if k < 16 then setTargets (entArg v) s
  else
    let b := (k - 16) / 8
    match entAct v with
    | 1 => startGo b s.now s
    | 2 => if (getBd s b).startPending then modBd (streamsBegin b s) b (fun bd => { bd with streamsToo := true })
      else streamsBegin b s
    | 3 => completeGo (modBd s b (fun bd => { bd with barGate := smod 0 bd.barGate (fld (entArg v) 0 6) (· + 1) })) b
        (fld (entArg v) 0 6) 3 none
    | _ => s

/-- Entry k executes (R318): its effect, EXECUTED, LATE, its signal. -/
def entRun (k : Nat) (s : State) : State :=
  let v := entOf s k
  let late := s.now - entT v
  let s1 := setEnt (entEffect k s) k { v with st := 2, late := decide (0 < late), lateness := min 0x0FFFFFFF late }
  if bitAt v.act 30 then (if k < 16 then signal s1 (pfIx 0) 4 else signal s1 (vfIx ((k - 16) / 8)) 3) else s1

/-- The order of examination: device entries, then board entries by number, boards in turn within a number. [DEDUCED log 76] -/
def examOrder : List Nat := List.range 16 ++ (List.range 8).flatMap (fun e => (List.range 16).map (fun b => 16 + 8 * b + e))

/-- The entries that a tick executes, in order: after each, examination begins again; `fuel` executions at most. [DEDUCED log 76] -/
def examine : Nat → State → List Nat
  | 0, _ => []
  | fuel + 1, s => match examOrder.find? (fun k => entDue s k) with
    | some k => k :: examine fuel (entRun k s)
    | none => []

/-- What is still to execute in this tick. [DEDUCED log 76] -/
def dueNow (s : State) : List Nat := s.time.due.filter (fun k => entDue s k)

/-- Execution of entry k, if it is the tick's next one. -/
def execEnt (k act : Nat) (s : State) : Option State :=
  if (dueNow s).head? = some k ∧ entAct (entOf s k) = act then
    some { entRun k s with time := { (entRun k s).time with due := s.time.due.filter (· != k) } }
  else none

/-- SCHEDULE_CANCEL (R317, R319): a write of ACT with ARM = 0; one that the tick is about to execute is executed first. -/
def schedCancel (k : Nat) (v : Word) (s : State) : Option State :=
  if (dueNow s).contains k then none
  else
    let e := entOf s k
    let e1 := { e with act := actW e.act (v &&& 0x7FFFFFFF#32), st := if e.st = 1 then 3 else e.st }
    some { setEnt s k e1 with resp := .done }

/-! ### The timestamp -/

/-- A new value of the timestamp is reached: the tick's examination begins. -/
def reach (n : Nat) (s : State) : State :=
  let s1 := { s with now := n % 2 ^ 64 }
  { s1 with time := { s1.time with due := examine 144 s1 } }

/-- Every field whose copy of the timestamp has passed the tick of a start has started: the fields of a board act within one
tick of each other (R316). [DEDUCED log 77] -/
def startsDone (s : State) : Bool :=
  s.boards.all (fun p => !p.2.startPending || decide (s.now ≤ p.2.startTs)
    || (boardFields p.2).all (fun f => p.2.fields.contains f || !clkRuns s f))

/-- The timestamp may take its next value: the entries of the present tick have executed, and the fields have acted (R316, R318). -/
def tickReady (s : State) : Bool := (dueNow s).isEmpty && startsDone s

/-- TIMESTAMP_TICK (R312): an edge of the selected reference, once the last tick's entries have executed. -/
def tick (s : State) : Option State :=
  if !refRuns s || s.clk.switching || s.time.setPend || !tickReady s then none
  else some (reach (s.now + 1) { s with time := { s.time with holdover := false } })

/-- TIME_SET_APPLY (R315), at the next tick of the reference or of holdover. [DEDUCED log 76] -/
def setApply (s : State) : Option State :=
  let t := s.time
  let n := t.setLo.toNat + 2 ^ 32 * t.setHi.toNat
  if s.clk.switching || !t.setPend || !tickReady s then none
  else some (reach n { s with
    time := { t with setPend := false, continuity := true, holdover := t.holdover && !refRuns s, holdSeen := false, frac := 0 }
    boot := shiftStart (s.now + 1) n s.boot })

/-- SWITCH_FORCE (R515, R516): `edges` edges of the destination since the source's last one, 64 of them since the switch began. [DEDUCED log 67] -/
def switchForce (edges : Nat) (s : State) : Option State :=
  if !s.clk.switching || !refOk s.clk (othRef s.clk) || edges < 64 || !tickReady s then none
  else
    let s1 := switched (reach (s.now + edges) s)
    some (sigClock { s1 with clk := { s1.clk with sticky := s1.clk.sticky ||| (1#32 <<< 27) } })

/-- VIGIL_OSCILLATOR_PERIOD (R313): 390,625 units of 1/128 tick in holdover; a value that waits to be set is taken first (R315). -/
def vigilPeriod (s : State) : Option State :=
  if refRuns s || s.clk.switching || s.time.setPend || !tickReady s then none
  else
    let n := s.time.frac + 390625
    some (reach (s.now + n / 128) { s with time := { s.time with frac := n % 128, holdover := true, holdSeen := true } })

/-- TIME_CTL_SET (R315). -/
def timeCtl (v : Word) (s : State) : State :=
  if bitAt v 0 then { s with time := { s.time with setPend := true }, resp := .done } else { s with resp := .ignored }

/-- A write of BRD_BAR_SEL (R323). -/
def barSel (b : Nat) (v : Word) (s : State) : State :=
  let bd := getBd s b
  let k := fld v 0 6
  let c0 := packW [(20, 2, sget 0 bd.barGate k), (0, 20, sget 0 bd.barC (barCKey k 0))]
  let r := [(0xA00, BitVec.ofNat 32 k), (0xA04, BitVec.ofNat 32 (sget 0 bd.barGen k)), (0xA08, c0),
    (0xA0C, packW [(0, 20, sget 0 bd.barC (barCKey k 1))])].foldl (fun m (p : Nat × Word) => sset 0 m p.1 p.2) bd.regs
  { setBd s b { bd with regs := r } with resp := .done }

/-! ### Rows -/

/-- May a function reach an entry (R317)? -/
def entOk (f : Fn) (e : SchedEntry) : Bool :=
  match entBoard e with
  | none => isPf f
  | some b => reaches f b

/-- TIMESTAMP_TICK (R312). -/
def execTimestampTick (s : State) : Host.Outcome State Fault Refusal := answer s (tick s)
/-- VIGIL_OSCILLATOR_PERIOD (R313). -/
def execVigilOscillatorPeriod (s : State) : Host.Outcome State Fault Refusal := answer s (vigilPeriod s)
/-- TIME_CTL_SET (R315). -/
def execTimeCtlSet (f : Fn) (v : Word) (s : State) : Host.Outcome State Fault Refusal :=
  reply s (access s f .time false (isPf f) true 12 (timeCtl v s))
/-- TIME_SET_APPLY (R315). -/
def execTimeSetApply (s : State) : Host.Outcome State Fault Refusal := answer s (setApply s)
/-- SWITCH_FORCE (R515). -/
def execSwitchForce (edges : Nat) (s : State) : Host.Outcome State Fault Refusal := answer s (switchForce edges s)
/-- SCHEDULE_ARM (R317). -/
def execScheduleArm (f : Fn) (ent : SchedEntry) (v : Word) (s : State) : Host.Outcome State Fault Refusal :=
  reply s (access s f .time false (entOk f ent) true 12 (schedArm (entKey ent) v s))
/-- SCHEDULE_CANCEL (R319). -/
def execScheduleCancel (f : Fn) (ent : SchedEntry) (v : Word) (s : State) : Host.Outcome State Fault Refusal :=
  reply s (if entOk f ent && (schedCancel (entKey ent) v s).isNone then none
    else access s f .time false (entOk f ent) true 12 ((schedCancel (entKey ent) v s).getD s))
/-- BOARD_START (R318). -/
def execBoardStart (b : Fin 16) (e : Fin 8) (s : State) : Host.Outcome State Fault Refusal :=
  answer s (execEnt (16 + 8 * b + e) 1 s)
/-- STREAM_START (R317). -/
def execStreamStart (b : Fin 16) (e : Fin 8) (s : State) : Host.Outcome State Fault Refusal :=
  answer s (execEnt (16 + 8 * b + e) 2 s)
/-- BARRIER_GATE (R317). -/
def execBarrierGate (b : Fin 16) (e : Fin 8) (s : State) : Host.Outcome State Fault Refusal :=
  answer s (execEnt (16 + 8 * b + e) 3 s)
/-- OP_CHANGE (R535). -/
def execOpChange (e : Fin 16) (s : State) : Host.Outcome State Fault Refusal := answer s (execEnt e 4 s)
/-- BRD_BAR_SEL (R323). -/
def execBrdBarSel (f : Fn) (b : Fin 16) (v : Word) (s : State) : Host.Outcome State Fault Refusal :=
  reply s (access s f .other false (reaches f b) true 12 (barSel b v s))

end Sys2Proof.Machine
end

