-- ==== Sys2Proof/Machine/RegWrite.lean ====
section
/-! DEFINITION. Writes of registers by address (R13-R16, R414, R559-R563, R621, R647-R649), block by block. A register whose
write is a row of its own acts as that row does. -/
namespace Sys2Proof.Machine

/-- A write that changed something, and one that the registers ignore. -/
def wrote (s : State) : State := { s with resp := .done }
def unwrote (s : State) : State := { s with resp := .ignored }

/-- A sticky bit after a write (R14). -/
def w1c (v : Word) (i : Nat) (old : Bool) : Bool := old && !bitAt v i

/-- A word's sticky field after a write. -/
def w1cW (v old : Word) (lo len : Nat) : Word := old &&& ~~~(v &&& setFld 0 lo len (2 ^ len - 1))

/-- Some bytes' worth of offsets: `n` registers from `lo`. -/
def regs (ofs lo n : Nat) : Bool := decide (lo ≤ ofs ∧ ofs < lo + 4 * n)

/-- A write of a register that shows items of R472, with the item's fields: a write that would change one is not permitted
(R473, R621), and one that would not changes nothing. [DEDUCED log 103] -/
def itemKept (cur v : Word) (fs : List RwField) : Bool := wrFields cur v fs == cur

/-! ### Boards -/

/-- BRD_CTL (R434, R416). -/
def wBrdCtl (f : Fn) (b : Nat) (v : Word) (s : State) : Option State :=
  match fld v 28 4 with
  | 1 => brdCommand s f b (loadCmd f b s)
  | 2 => brdCommand s f b (startCmd b s)
  | 3 => brdCommand s f b (drainCmd b (bitAt v 24) s)
  | 4 => brdCommand s f b (resetCmd b s)
  | _ => access s f .other false (reaches f b) true 12 (unwrote s)

/-- The RW registers of a BRD block that only hold a value, with their fields. -/
def brdRw (ofs : Nat) : Option (List RwField) :=
  match ofs with
  | 0x20 => some [(3, 29, [])]
  | 0x24 => some wholeW
  | 0x28 => some [(0, 17, [])]
  | 0x2C => some [(2, 30, [])]
  | 0x30 => some wholeW
  | 0xC00 => some [(3, 29, [])]
  | 0xC04 => some wholeW
  | 0xC08 => some wholeW
  | _ => none

/-- RO registers of a BRD block. -/
def brdRo (ofs : Nat) : Bool :=
  ofs == 0x1C || regs ofs 0x34 2 || regs ofs 0x40 3 || regs ofs 0x50 2 || regs ofs 0x400 4 || regs ofs 0x800 4
    || regs ofs 0x840 32 || regs ofs 0x900 64 || regs ofs 0xA04 3 || regs ofs 0xC14 11 || regs ofs 0xD00 2 || regs ofs 0xE00 6

/-- BRD_RECT_X, BRD_RECT_Y, BRD_ALLOC (R433). -/
def brdDef (bd : Board) (ofs : Nat) : Word × List RwField :=
  match ofs with
  | 0 => (packW [(16, 11, bd.x1), (0, 11, bd.x0)], [(16, 11, []), (0, 11, [])])
  | 4 => (packW [(16, 10, bd.y1), (0, 10, bd.y0)], [(16, 10, []), (0, 10, [])])
  | _ => (packW [(31, 1, b2n (bd.st != .undefined)), (0, 11, bd.stesyCh)], [(31, 1, []), (0, 11, [])])

/-- A write in board b's BRD block. -/
def wBrd (f : Fn) (b ofs : Nat) (v : Word) (s : State) : Option State :=
  let bd := getBd s b
  let go := fun (ok : Bool) (r : State) => access s f .other false (reaches f b && ok) true 12 r
  let set := fun (bd : Board) => go true (wrote (setBd s b bd))
  if ofs = 0 ∨ ofs = 4 ∨ ofs = 8 then
    let d := brdDef bd ofs
    go (itemKept d.1 v d.2) (unwrote s)
  else if ofs = 0x10 then wBrdCtl f b v s
  else if ofs = 0x14 then set { bd with cmdIgnored := w1c v 27 bd.cmdIgnored, loadFailed := w1c v 22 bd.loadFailed }
  else if ofs = 0x18 then set { bd with limitUs := if fld v 0 24 = 0 then bd.limitUs else fld v 0 24 }
  else if ofs = 0xA00 then go true (barSel b v s)
  else if ofs = 0xC0C then
    go true (if bitAt v 31 then checkCmd f b s else unwrote s)
  else if ofs = 0xC10 then set { bd with checkIgnored := w1c v 25 bd.checkIgnored }
  else match brdRw ofs with
    | some fs => set { bd with regs := sset 0 bd.regs ofs (wrFields (sget 0 bd.regs ofs) v fs) }
    | none => go (brdRo ofs) (unwrote s)

/-! ### MED windows -/

/-- What a write in board b's window of MED m does (R295, R296), and whether it is served only by an enabled engine, as offsets 0x020
to 0x0A3 are (R526); none where it is not permitted. -/
def winWrite (m b ofs : Nat) (v : Word) (s : State) : Option (Bool × State) :=
  let d := getMed s m
  let w := getWin d b
  let put := fun (fs : List RwField) => wrote (setMed s m (setWinW d b ofs (wrFields (winW d b ofs) v fs)))
  if ofs = 0 then (if itemKept (quotaW s m b) v [(14, 14, []), (0, 14, [])] then some (false, unwrote s) else none)
  else if ofs = 4 ∨ ofs = 8 then some (false, unwrote s)
  else if ofs = 0x10 then some (false, put [(9, 9, []), (0, 9, [])])
  else if ofs = 0x14 then some (false, put wholeW)
  else if ofs = 0x18 then some (false, ptCommit m b v s)
  else if regs ofs 0x20 12 then some (true, put wholeW)
  else if ofs = 0x50 then some (true, descGo m b (fld v 0 2) s)
  else if ofs = 0x60 ∨ regs ofs 0x84 6 then some (true, unwrote s)
  else if ofs = 0x64 then some (true, wrote (setMed s m (setWin d b { w with lost := w1c v 31 w.lost })))
  else if ofs = 0x80 then some (true, medFltSel m b v s)
  else if ofs = 0xA0 then some (true, resume m b (fld v 0 6) s)
  else none

/-- An access whose effect is worked out: `r` says what it does and whether it needs the engines of MED m. -/
def gatedAccess (f : Fn) (m : Nat) (rd ok : Bool) (r : Option (Bool × State)) (s : State) : Option State :=
  match r with
  | some p => access s f .other rd ok (!p.1 || medOn s m) m p.2
  | none => access s f .other rd false true m s

/-- A write in board b's window of MED m. -/
def wWin (f : Fn) (m b ofs : Nat) (v : Word) (s : State) : Option State :=
  gatedAccess f m false (reaches f b) (winWrite m b ofs v s) s

/-- A write in a MED block (R294). -/
def medWrite (m ofs : Nat) (v : Word) (s : State) : Option (Bool × State) :=
  if 0x10000 ≤ ofs ∧ ofs < 0x20000 then winWrite m ((ofs - 0x10000) / 0x1000) (ofs % 0x1000) v s
  else if ofs == 0 || regs ofs 8 3 || regs ofs 0x20 4 then some (false, unwrote s)
  else none

/-- A write in a MED block of the Device Management Space. -/
def wMed (f : Fn) (m ofs : Nat) (v : Word) (s : State) : Option State := gatedAccess f m false true (medWrite m ofs v s) s

/-! ### Schedule entries and time -/

/-- A write of a schedule entry's registers (R317, R325). -/
def wSched (f : Fn) (e : SchedEntry) (ofs : Nat) (v : Word) (s : State) : Option State :=
  let k := entKey e
  let x := entOf s k
  let go := fun (r : State) => access s f .time false (entOk f e) true 12 r
  match ofs with
  | 0 => go (if x.st = 1 then unwrote s else wrote (setEnt s k { x with tLo := v }))
  | 4 => go (if x.st = 1 then unwrote s else wrote (setEnt s k { x with tHi := v }))
  | 8 =>
    if bitAt v 31 then go (schedArm k v s)
    else if entOk f e && (schedCancel k v s).isNone then none
    else go ((schedCancel k v s).getD s)
  | _ => go (unwrote s)

/-- A write in the TIME block (R324). -/
def wTime (f : Fn) (ofs : Nat) (v : Word) (s : State) : Option State :=
  let go := fun (ok : Bool) (r : State) => access s f .time false (isPf f && ok) true 12 r
  if ofs = 0x10 then go true (wrote { s with time := { s.time with setLo := v } })
  else if ofs = 0x14 then go true (wrote { s with time := { s.time with setHi := v } })
  else if ofs = 0x18 then go true (timeCtl v s)
  else if 0x100 ≤ ofs ∧ ofs < 0x200 then wSched f (.dev (Fin.ofNat 16 (ofs / 0x10))) (ofs % 0x10) v s
  else if 0x1000 ≤ ofs ∧ ofs < 0x2000 ∧ ofs % 0x100 < 0x80 then
    wSched f (.board (Fin.ofNat 16 (ofs / 0x100)) (Fin.ofNat 8 (ofs % 0x100 / 0x10))) (ofs % 0x10) v s
  else go (regs ofs 0 3) (unwrote s)

/-! ### Text channels -/

/-- HEDn_LX_Cc_BIND (R374): the items of R472 in it. -/
def lxBind (ch : Chan) : Word :=
  packW [(31, 1, b2n ch.en), (30, 1, b2n ch.cached), (20, 4, ch.med), (0, 4, ch.board)]

/-- A write of a channel's Lexicon registers (R374, R375). -/
def wLx (f : Fn) (h c ofs : Nat) (v : Word) (s : State) : Option State :=
  let ch := getCh s h c
  let go := fun (ok : Bool) (r : State) => access s f .other false (chanOk s f h c && ok) (lexOn s h) (12 + h) r
  if ofs = 0 then go (itemKept (lxBind ch) v [(31, 1, []), (30, 1, []), (20, 4, []), (0, 4, [])]) (unwrote s)
  else if ofs = 0x14 then
    go true (if bitAt v 31 then cancel h c v s else wrote (setCh s h c { ch with limit := fld v 0 24 }))
  else if ofs = 0x18 then go true (wrote (setCh s h c { ch with emptyPrompt := w1c v 25 ch.emptyPrompt }))
  else go (regs ofs 4 4 || regs ofs 0x20 4 || regs ofs 0x40 16) (unwrote s)

/-- A write of a channel's walker registers (R389-R391). -/
def wGw (f : Fn) (h c ofs : Nat) (v : Word) (s : State) : Option State :=
  let ch := getCh s h c
  let go := fun (ok : Bool) (r : State) => access s f .other false (chanOk s f h c && ok) (lexOn s h) (12 + h) r
  if ofs = 0xC then go true (wrote (setCh s h c { ch with gEnable := bitAt v 31, gStart := fld v 0 12 }))
  else if ofs = 0x14 then go true (wrote (setCh s h c { ch with gRejV := w1c v 31 ch.gRejV }))
  else if ofs = 0x20 then go true (gwSsel h c v s)
  else go (regs ofs 0 3 || ofs == 0x10 || regs ofs 0x18 2 || ofs == 0x24) (unwrote s)

/-- The ring base and size registers (R576). -/
def ringRw (ofs : Nat) : Option (List RwField) :=
  match ofs with
  | 4 | 0x10 => some [(12, 20, [])]
  | 8 | 0x14 => some wholeW
  | 0xC | 0x18 => some [(0, 4, [0, 1, 2, 3, 13, 14, 15])]
  | _ => none

/-- A write of a channel's ring registers (R572, R576). -/
def wRing (f : Fn) (h c ofs : Nat) (v : Word) (s : State) : Option State :=
  let ch := getCh s h c
  let go := fun (ok : Bool) (r : State) => access s f .other false (chanOk s f h c && ok) true (12 + h) r
  if ofs = 0 then go true (if bitAt v 31 then ringEnable h c v s else ringDisable h c v s)
  else if ofs = 0x20 then
    go true (wrote (setCh s h c { ch with
      dbErr := w1c v 31 ch.dbErr, entryErr := w1c v 30 ch.entryErr, fetchErr := w1c v 29 ch.fetchErr }))
  else match ringRw ofs with
    | some fs => go true (if ringEn ch then unwrote s
        else wrote (setCh s h c { ch with ring := sset 0 ch.ring ofs (wrFields (ringW ch ofs) v fs) }))
    | none => go (ofs == 0x1C) (unwrote s)

/-! ### Stesy registers -/

/-- A write of a Stesy register of HED h (R607, R608). -/
def wStesy (f : Fn) (h ofs : Nat) (v : Word) (s : State) : Option State :=
  if ofs < 0x400 then
    let k := ofs / 0x100
    let o := ofs % 0x100
    let p := getPort s h k
    let go := fun (ok : Bool) (r : State) => access s f .other false (isPf f && ok) (stesyOn s h k) (12 + h) r
    if o = 4 then go true (wrote (setPortP s h k { p with evt := w1cW v p.evt 28 4 }))
    else if o = 0x20 then go true (lselWrite h k v s)
    else go (o == 0 || regs o 8 6 || o == 0x24) (unwrote s)
  else
    let go := fun (ok : Bool) (r : State) => access s f .other false (isPf f && ok) true (12 + h) r
    if ofs = 0x800 then go (itemKept (BitVec.ofNat 32 s.wafer) v [(0, 15, [])]) (unwrote s)
    else if ofs = 0x810 then go true (cselWrite h v s)
    else if ofs = 0x820 then go true (fselWrite h v s)
    else go (regs ofs 0x804 2 || regs ofs 0x814 3 || regs ofs 0x824 2) (unwrote s)

/-- A write in a HED block of the Device Management Space. [DEDUCED log 103] -/
def wHed (f : Fn) (h ofs : Nat) (v : Word) (s : State) : Option State :=
  let c := ofs % 0x10000 / 0x100
  let o := ofs % 0x100
  if ofs / 0x10000 = 0x10 ∧ c < 8 then wLx f h c o v s
  else if ofs / 0x10000 = 0x11 ∧ c < 8 then wGw f h c o v s
  else if ofs / 0x10000 = 0x12 ∧ c < 8 then wRing f h c o v s
  else if ofs / 0x10000 = 0x13 then wStesy f h (ofs % 0x10000) v s
  else access s f .other false false true (12 + h) s

/-! ### IDENT, CLK, PWR, FAULT, RIM, SLATE -/

/-- A write in the IDENT block. [DEDUCED log 103] -/
def wIdent (f : Fn) (ofs : Nat) (v : Word) (s : State) : Option State :=
  let go := fun (ok : Bool) (r : State) => access s f .ident false (isPf f && ok) true 12 r
  if ofs = 0x20 then go true (wrote { s with slate := { s.slate with win := packW [(0, 10, fld v 0 10)] } })
  else if ofs = 0x400 then go true (gridSel v s)
  else if ofs = 0x608 then go true (restartCmd v s)
  else if ofs = 0x610 then
    go true (wrote { s with vigil := { s.vigil with
      lost := w1c v 31 s.vigil.lost, programDone := w1c v 29 s.vigil.programDone } })
  else if ofs = 0x614 then
    go true (wrote { s with vigil := { s.vigil with
      seen := (w1cW v (BitVec.ofNat 32 s.vigil.seen) 0 16).toNat } })
  else if 0x80000 ≤ ofs ∧ ofs < 0x100000 then access s f .ident false (isPf f) (slateOn s) 16 (unwrote s)
  else go (regs ofs 0 6 || regs ofs 0x404 5 || regs ofs 0x600 2 || regs ofs 0x618 2) (unwrote s)

/-- The fields of CLK_EN_HEDn (R531). -/
def clkEnFields (h : Nat) : List RwField :=
  (if h = 0 then [(31, 1, []), (5, 1, []), (4, 1, [])] else []) ++ [(30, 1, []), (13, 1, []), (12, 1, []), (8, 4, []), (3, 1, [])]

/-- A write in the CLK block (R529-R531). -/
def wClk (f : Fn) (ofs : Nat) (v : Word) (s : State) : Option State :=
  let go := fun (ok : Bool) (r : State) => access s f .clk false (isPf f && ok) true 12 r
  if ofs = 0 then go true (wrote { s with clk := { s.clk with sticky := w1cW v s.clk.sticky 23 5 } })
  else if ofs = 4 then go true (refSwitchRequest v s)
  else if ofs = 0x20 then go true (clkFieldSel v s)
  else if regs ofs 0x40 4 then
    let h := (ofs - 0x40) / 4
    go (itemKept (enW s h) v (clkEnFields h)) (unwrote s)
  else go (regs ofs 8 4 || ofs == 0x24) (unwrote s)

/-- A write in the PWR block (R551-R553, R645). -/
def wPwr (f : Fn) (ofs : Nat) (v : Word) (s : State) : Option State :=
  let go := fun (ok : Bool) (r : State) => access s f .other false (isPf f && ok) true 12 r
  if ofs = 4 then go true (wrote { s with pwr := { s.pwr with event := w1cW v s.pwr.event 25 7 } })
  else if ofs = 8 then go (itemKept (packW [(0, 16, s.pwr.capW)]) v [(0, 16, [])]) (unwrote s)
  else if ofs = 0x10 then go true (targetWrite v s)
  else if ofs = 0x14 then go true (stewardGo v s)
  else if ofs = 0x20 then go true (pwrFieldSel v s)
  else if regs ofs 0x80 16 then go (itemKept (sget 0 s.pwr.coef ((ofs - 0x80) / 4)) v wholeW) (unwrote s)
  else if ofs = 0x100 then
    go true (wrote { s with pwr := { s.pwr with regs := smod 0 s.pwr.regs 0x100 (fun o => w1cW v o 23 1) } })
  else go (ofs == 0 || ofs == 0xC || regs ofs 0x24 2 || regs ofs 0x30 10 || regs ofs 0x60 6 || ofs == 0x104) (unwrote s)

/-- A write in the FAULT block (R627, R628). -/
def wFault (f : Fn) (ofs : Nat) (v : Word) (s : State) : Option State :=
  let go := fun (ok : Bool) (r : State) => access s f .other false (isPf f && ok) true 12 r
  if ofs = 0 then go true (wrote { s with flt := { s.flt with dev := w1cW v s.flt.dev 27 5 } })
  else if ofs = 0x44 then go true (quarSel v s)
  else go (ofs == 0x10 || regs ofs 0x20 5 || ofs == 0x40 || regs ofs 0x48 2 || regs ofs 0x100 34) (unwrote s)

/-- A write in the RIM block (R297). -/
def wRim (f : Fn) (ofs : Nat) (v : Word) (s : State) : Option State :=
  let go := fun (ok : Bool) (r : State) => access s f .other false (isPf f && ok) true 12 r
  if ofs = 0 then go true (rimPathSel v s) else go (ofs == 4) (unwrote s)

/-- SLATE_CMD (R475, R483): PROGRAM comes with what its DMA reads, so it comes through its own row. [DEDUCED log 105] -/
def wSlateCmd (f : Fn) (v : Word) (s : State) : Option State :=
  match fld v 28 4 with
  | 1 => slateCmd f v 1 (fun _ => .open_) s
  | 2 => slateCmd f v 2 (fun s => .erase s.slate.argOfs.toNat s.slate.argLen.toNat) s
  | 3 => none
  | 4 => slateCmd f v 4 (fun _ => .close) s
  | 5 => slateCmd f v 5 (fun _ => .abort) s
  | 6 => slateCmd f v 6 (fun _ => .journal) s
  | _ => access s f .slate false (hostPf f) (slateOn s) 16 (unwrote s)

/-- A write in the SLATE block (R475, R482, R483). -/
def wSlate (f : Fn) (ofs : Nat) (v : Word) (s : State) : Option State :=
  let go := fun (ok : Bool) (r : State) => access s f .slate false (hostPf f && ok) (slateOn s) 16 r
  match ofs with
  | 0 => go true (wrote { s with slate := { s.slate with journalLost := w1c v 24 s.slate.journalLost } })
  | 0x10 => wSlateCmd f v s
  | 0x14 => go true (wrote { s with slate := { s.slate with argOfs := v } })
  | 0x18 => go true (wrote { s with slate := { s.slate with argLen := v } })
  | 0x1C => go true (wrote { s with slate := { s.slate with argLo := wrFields s.slate.argLo v [(3, 29, [])] } })
  | 0x20 => go true (wrote { s with slate := { s.slate with argHi := v } })
  | _ => go (regs ofs 4 3 || regs ofs 0x24 2) (unwrote s)

/-! ### Functions: TILEWIN, MSI-X -/

/-- A write of the TILEWIN selector pair (R562, R577). -/
def wTile (f : Fn) (ofs : Nat) (v : Word) (s : State) : Option State :=
  let go := fun (ok : Bool) (r : State) => access s f .other false ok true 12 r
  match ofs with
  | 0 => go true (wrote (modFn s (fnIx f) (fun e => { e with tileSel := packW [(0, 4, fld v 0 4)] })))
  | 4 => go true (tileBind f v s)
  | _ => go false s

/-- A write of the MSI-X table of a function with n vectors: address, data, mask of a vector; a message that waited for its
mask is sent. [PRESUMED log 91] -/
def wMsix (f : Fn) (n ofs : Nat) (v : Word) (s : State) : Option State :=
  let i := fnIx f
  let put := fun (w : Word) => modFn s i (fun e => { e with msix := sset 0 e.msix ofs w })
  if 16 * n ≤ ofs ∨ f = .steward then access s f .other false false true 12 s
  else
    let r := match ofs % 16 with
      | 0 => put (packW [(2, 30, fld v 2 30)])
      | 12 => sendPending i (put (packW [(0, 1, 1 - fld v 0 1)]))
      | _ => put v
    access s f .other false true true 12 (wrote r)

/-! ### Bricks -/

/-- RO registers of a brick's space. -/
def brkRo (ofs : Nat) : Bool :=
  regs ofs 0 2 || regs ofs 0xC 3 || regs ofs 0x104 7 || regs ofs 0x710 4 || regs ofs 0x720 2 || ofs == 0x824 || ofs == 0x830
    || (regs ofs 0x840 16 && ofs % 0x10 != 0xC) || ofs == 0x880 || ofs == 0x888 || regs ofs 0x894 7 || regs ofs 0x8C4 3
    || regs ofs 0x8D0 8 || regs ofs 0x8F4 3 || regs ofs 0xC00 8

/-- RW registers of a brick's space that only hold a value in every state, with their fields. -/
def brkSel (ofs : Nat) : Option (List RwField) :=
  match ofs with
  | 0x820 => some [(8, 2, []), (0, 8, [])]
  | 0x884 => some [(0, 5, [])]
  | _ => none

/-- A write of a configuration register (R73, R248, R321): ignored, and noted, unless the brick is STOPPED. [DESIGN CHOICE log 101] -/
def wrCfg (s : State) (k ofs : Nat) (v : Word) (b : Brick) : State :=
  if b.st = .stopped then wrote (setB s k (writeCfg b ofs v)) else wrRefused s k b

/-- A write in the register space of the brick that aperture `ap` reaches. -/
def wBrick (f : Fn) (ap ofs : Nat) (v : Word) (s : State) : Option State :=
  let via := fun (op : Nat → Brick → Option State) => viaAp s f ap false op
  let sel := fun (op : Nat → Brick → Brick) => selVia s f ap op
  if ofs = 8 then sel (fun _ b => { b with wrIgnored := w1c v 31 b.wrIgnored })
  else if ofs = 0x100 then sel (fun _ b => ccSel v b)
  else if ofs = 0x800 then sel (fun _ b => { b with pmemAddr := fld v 0 11 })
  else if ofs = 0x804 then via (fun k b => some (pmemLoWrite v s k b))
  else if ofs = 0x808 then via (fun k b => some (pmemHiWrite v s k b))
  else if ofs = 0x810 then sel (fun _ b => { b with sramAddr := if fld v 0 16 < 0xC000 then 4 * fld v 2 14 else b.sramAddr })
  else if ofs = 0x814 then via (fun k b => sramDataWrite v s (b.useT + 1) k b)
  else if ofs = 0x890 then sel (fun _ b => stSel v b)
  else if ofs = 0x8C0 then sel (fun k b => rtSel v s k b)
  else if ofs = 0x8F0 then sel (fun _ b => eqSel v b)
  else if (cfgFields ofs v).isSome then via (fun k b => some (wrCfg s k ofs v b))
  else match brkSel ofs with
    | some fs => sel (fun _ b => setObs b ofs (wrFields (obsW b ofs) v fs))
    | none =>
      if brkRo ofs then via (fun _ _ => some (unwrote s)) else access s f .other false false true 12 s

/-! ### The address maps -/

/-- A 32-bit write through the Device Management Space (R559, R647, R648). [DEDUCED log 105] -/
def wPf (f : Fn) (a : Nat) (v : Word) (s : State) : Option State :=
  let none_ := access s f .other false false true 12 s
  if a < 0x100000 then wIdent f a v s
  else if a < 0x200000 then wClk f (a - 0x100000) v s
  else if a < 0x300000 then wPwr f (a - 0x200000) v s
  else if a < 0x400000 then wTime f (a - 0x300000) v s
  else if a < 0x500000 then wFault f (a - 0x400000) v s
  else if a < 0x600000 then wBrd f ((a - 0x500000) / 0x10000) (a % 0x10000) v s
  else if a < 0x700000 then wRim f (a - 0x600000) v s
  else if a < 0x800000 then wSlate f (a - 0x700000) v s
  else if a < 0x810000 then wTile f (a - 0x800000) v s
  else if a < 0x820000 then wBrick f ((a - 0x810000) / 0x1000) (a % 0x1000) v s
  else if a < 0x1000000 then none_
  else if a < 0x5000000 then wHed f (a / 0x1000000 - 1) (a % 0x1000000) v s
  else if a < 0x7000000 then wMed f ((a - 0x5000000) / 0x400000) ((a - 0x5000000) % 0x400000) v s
  else if 0xF000000 ≤ a ∧ a < 0xF008000 then wMsix f 32 (a - 0xF000000) v s
  else if regs a 0xF008000 2 then access s f .other false (f != .steward) true 12 (unwrote s)
  else none_

/-- A 32-bit write through VF BAR0 (R560). -/
def wVf (f : Fn) (h k a : Nat) (v : Word) (s : State) : Option State :=
  let b := 4 * h + k
  let none_ := access s f .other false false true 12 s
  if a < 0x10000 then wBrd f b a v s
  else if a < 0x18000 then wWin f ((a - 0x10000) / 0x1000) b (a % 0x1000) v s
  else if a < 0x18080 then wSched f (.board (Fin.ofNat 16 b) (Fin.ofNat 8 ((a - 0x18000) / 0x10))) (a % 0x10) v s
  else if regs a 0x18F00 3 then access s f .time false true true 12 (unwrote s)
  else if 0x20000 ≤ a ∧ a < 0x28000 then
    let c := (a - 0x20000) / 0x1000
    let o := a % 0x1000
    if o < 0x100 then wLx f h c o v s else if o < 0x200 then wGw f h c (o - 0x100) v s
    else if o < 0x300 then wRing f h c (o - 0x200) v s else none_
  else if 0x30000 ≤ a ∧ a < 0x38000 then
    let c := (a - 0x30000) / 0x1000
    let go := fun (r : State) => access s f .other false (chanOk s f h c) true (12 + h) r
    if a % 0x1000 = 0 then go (txtDb h c v s) else if a % 0x1000 = 4 then go (cplDb h c v s) else none_
  else if 0x80000 ≤ a ∧ a < 0x90000 then wTile f (a - 0x80000) v s
  else if 0x90000 ≤ a ∧ a < 0xA0000 then wBrick f ((a - 0x90000) / 0x1000) (a % 0x1000) v s
  else if 0xF0000 ≤ a ∧ a < 0xF8000 then wMsix f 4 (a - 0xF0000) v s
  else if regs a 0xF8000 2 then access s f .other false true true 12 (unwrote s)
  else none_

/-- A 32-bit write at an aligned address; outside the BAR it is an Unsupported Request (R564). [DEDUCED log 105] -/
def write32 (f : Fn) (a : Nat) (v : Word) (s : State) : Option State :=
  match f with
  | .vf h k => if a < 0x100000 then wVf f h k a v s else unsupported f s
  | .pf _ => if a < 0x10000000 then wPf f a v s else unsupported f s
  | .steward => if a < 0x10000000 then wPf f a v s else access s f .other false false true 12 s

/-- What two halves of an access answer together: the first's answer unless it was simply done. [DEDUCED log 104] -/
def bothResp (a b : Resp) : Resp := if a = .done then b else a

/-- A poisoned write is discarded and logged under AER (R565); the Steward has none. [DESIGN CHOICE log 63, PRESUMED log 91] -/
def poisoned (f : Fn) (s : State) : Option State :=
  if f = .steward ∨ !linkOk s f then none
  else some { modFn s (fnIx f) (fun v => { v with aer := smod 0 v.aer 2 (· + 1) }) with resp := .ignored }

/-- REGISTER_WRITE (R13): an access that is not aligned is ignored; one of 8 bytes is two of 4, the lower address first. [DEDUCED log 104] -/
def regWrite (f : Fn) (a : Nat) (wide : Bool) (v : BitVec 64) (s : State) : Option State :=
  let lo := BitVec.ofNat 32 v.toNat
  let hi := BitVec.ofNat 32 (v.toNat / 2 ^ 32)
  if a % 4 ≠ 0 then (if linkOk s f then some (unwrote s) else none)
  else match write32 f a lo s with
    | none => none
    | some s1 =>
      if !wide then some s1
      else (write32 f (a + 4) hi s1).map (fun s2 => { s2 with resp := bothResp s1.resp s2.resp })

/-- REGISTER_WRITE (R14); `poison`: its data are poisoned. -/
def execRegisterWrite (f : Fn) (addr : Nat) (wide : Bool) (v : BitVec 64) (poison : Bool) (s : State) :
    Host.Outcome State Fault Refusal :=
  reply s (if poison then poisoned f s else regWrite f addr wide v s)

end Sys2Proof.Machine
end

