-- ==== Sys2Proof/Machine/CounterRead.lean ====
section
/-! DEFINITION. Reads of 48-bit and 64-bit counters through their LO and HI registers (R312, R625). Registers that a select
captures hold one whole capture and have no shadow. -/
namespace Sys2Proof.Machine

/-- A counter pair an access reaches: what `access` asks, the key of its shadow, and its two words. -/
structure CtrRef where
  blk : Blk := .other
  ok : Bool
  served : Bool := true
  target : Nat := 12
  key : Nat
  lo : Word
  hi : Word
  /-- Open values that the words take. -/
  free : Nat := 0

/-- A 64-bit value's two words, and an event counter's. -/
def lo64 (n : Nat) : Word := BitVec.ofNat 32 n
def hi64 (n : Nat) : Word := BitVec.ofNat 32 (n / 2 ^ 32)

/-- The pairs of a BRD block (R433-R435, R322, R455, R553, R626); how much of a pass has been read is open while it runs. [DESIGN CHOICE log 106] -/
def ctrBrd (s : State) (f : Fn) (b ofs a : Nat) : Option CtrRef :=
  let bd := getBd s b
  let mk := fun (lo hi : Word) => some { ok := reaches f b, key := a, lo := lo, hi := hi : CtrRef }
  let w := fun (n : Nat) => mk (lo64 n) (hi64 n)
  let e := fun (n : Nat) => mk (evLo n) (evHi n)
  match ofs with
  | 0x34 =>
    let n := if bd.st = .loading then freeCount s.freeCtr else bd.progBytes
    some { ok := reaches f b, key := a, lo := lo64 n, hi := packW [(0, 16, n / 2 ^ 32), (31, 1, b2n bd.progPass)]
           free := if bd.st = .loading then 2 else 0 : CtrRef }
  | 0x50 => w bd.startTs
  | 0x804 => mk (sget 0 bd.regs 0x804) (sget 0 bd.regs 0x808)
  | 0xC20 => e bd.words
  | 0xC28 => e bd.samples
  | 0xC30 => e bd.depTot
  | 0xD00 => w bd.energy
  | 0xE10 => w bd.fltTick
  | _ => none

/-- The pairs of a channel (R375, R391). -/
def ctrChan (s : State) (f : Fn) (h c : Nat) (gw : Bool) (ofs a : Nat) : Option CtrRef :=
  let ch := getCh s h c
  let e := fun (n : Nat) =>
    some { ok := chanOk s f h c, served := lexOn s h, target := 12 + h, key := a, lo := evLo n, hi := evHi n : CtrRef }
  match gw, ofs with
  | false, 0x20 => e ch.tok
  | false, 0x28 => e ch.gen
  | true, 0x18 => e ch.masks
  | _, _ => none

/-- The pairs of a Stesy port (R607). -/
def ctrPort (s : State) (f : Fn) (h ofs a : Nat) : Option CtrRef :=
  let k := ofs / 0x100
  let p := getPort s h k
  let e := fun (n : Nat) =>
    some { ok := isPf f, served := stesyOn s h k, target := 12 + h, key := a, lo := evLo n, hi := evHi n : CtrRef }
  if 0x400 ≤ ofs then none
  else match ofs % 0x100 with
    | 8 => e p.retry
    | 0x10 => e p.fecCe
    | 0x18 => e p.fecUe
    | _ => none

/-- The pairs of a brick's space (R209, R626), through aperture `ap`. -/
def ctrBrick (s : State) (f : Fn) (ap ofs : Nat) : Option CtrRef :=
  let k := tileTarget s f ap
  let e := fun (i : Nat) =>
    let n := match k with
      | some k => sget 0 (getB s k).cnt i
      | none => 0
    some { ok := k.isSome, served := k.any (fun k => (getField s (fieldOfKey k)).mesh != .off)
           key := 2 ^ 32 + 4096 * k.getD 0 + ofs, lo := evLo n, hi := evHi n : CtrRef }
  match ofs with
  | 0x8D0 => e cRetry
  | 0x8D8 => e cSecLink
  | 0xC10 => e cSecPmem
  | 0xC18 => e cSecSram
  | _ => none

/-- The pairs of the blocks that the PF alone reaches, and TIME_NOW. -/
def ctrDev (s : State) (f : Fn) (a : Nat) : Option CtrRef :=
  let mk := fun (blk : Blk) (lo hi : Word) => some { blk := blk, ok := isPf f, key := a, lo := lo, hi := hi : CtrRef }
  let w := fun (blk : Blk) (n : Nat) => mk blk (lo64 n) (hi64 n)
  let e := fun (n : Nat) => mk .other (evLo n) (evHi n)
  if 0x400100 ≤ a ∧ a < 0x400188 then (if a % 8 = 0 then e (sget 0 s.flt.viol ((a - 0x400100) / 8)) else none)
  else match a with
    | 0x618 => w .ident s.vigil.stopTime
    | 0x100008 => w .clk s.clk.lastSwitch
    | 0x100010 => w .clk s.clk.waitLen
    | 0x200060 => w .other s.pwr.unasg
    | 0x200068 => w .other s.pwr.edgeMeas
    | 0x200070 => w .other ((s.pwr.edgeMeas + 2 ^ 64 - s.pwr.dram) % 2 ^ 64)
    | 0x300000 => w .time s.now
    | 0x400028 => w .other s.flt.splitTime
    | _ => none

/-- The pair whose LO register lies at an address of the Device Management Space. -/
def ctrPf (s : State) (f : Fn) (a : Nat) : Option CtrRef :=
  if a < 0x500000 then ctrDev s f a
  else if a < 0x600000 then ctrBrd s f ((a - 0x500000) / 0x10000) (a % 0x10000) a
  else if 0x810000 ≤ a ∧ a < 0x820000 then ctrBrick s f ((a - 0x810000) / 0x1000) (a % 0x1000)
  else if 0x1000000 ≤ a ∧ a < 0x5000000 then
    let h := a / 0x1000000 - 1
    let o := a % 0x1000000
    let c := o % 0x10000 / 0x100
    if o / 0x10000 = 0x10 ∧ c < 8 then ctrChan s f h c false (o % 0x100) a
    else if o / 0x10000 = 0x11 ∧ c < 8 then ctrChan s f h c true (o % 0x100) a
    else if o / 0x10000 = 0x13 then ctrPort s f h (o % 0x10000) a
    else none
  else if 0x5000000 ≤ a ∧ a < 0x7000000 ∧ (a - 0x5000000) % 0x400000 = 8 then
    let m := (a - 0x5000000) / 0x400000
    let n := (getMed s m).ce
    some { ok := isPf f, target := m, key := a, lo := evLo n, hi := evHi n }
  else none

/-- The pair whose LO register lies at an address of a VF's BAR. -/
def ctrVf (s : State) (f : Fn) (h k a : Nat) : Option CtrRef :=
  if a < 0x10000 then ctrBrd s f (4 * h + k) a a
  else if a = 0x18F00 then some { blk := .time, ok := true, key := a, lo := lo64 s.now, hi := hi64 s.now }
  else if 0x20000 ≤ a ∧ a < 0x28000 then
    let c := (a - 0x20000) / 0x1000
    let o := a % 0x1000
    if o < 0x100 then ctrChan s f h c false o a else if o < 0x200 then ctrChan s f h c true (o - 0x100) a else none
  else if 0x90000 ≤ a ∧ a < 0xA0000 then ctrBrick s f ((a - 0x90000) / 0x1000) (a % 0x1000)
  else none

/-- The counter pair whose LO register lies at an address. [DESIGN CHOICE log 106] -/
def ctrAt (s : State) (f : Fn) (a : Nat) : Option CtrRef :=
  match f with
  | .vf h k => ctrVf s f h k a
  | _ => ctrPf s f a

/-- A read of a LO register latches HI into the accessor's shadow (R625). -/
def ctrLo (s : State) (f : Fn) (c : CtrRef) : Option State :=
  access s f c.blk true c.ok c.served c.target
    { modFn s (fnIx f) (fun e => { e with shadows := sset 0 e.shadows c.key (c.hi.toNat + 1) }) with
      resp := .value c.lo, freeCtr := s.freeCtr + c.free }

/-- The accessor's next read of HI returns the shadow; one that no read of LO precedes, the live word (R625). -/
def ctrHi (s : State) (f : Fn) (c : CtrRef) : Option State :=
  let e := getFn s (fnIx f)
  let n := sget 0 e.shadows c.key
  access s f c.blk true c.ok c.served c.target
    { setFn s (fnIx f) { e with shadows := sset 0 e.shadows c.key 0 } with
      resp := .value (if n = 0 then c.hi else BitVec.ofNat 32 (n - 1)), freeCtr := s.freeCtr + (if n = 0 then c.free else 0) }

end Sys2Proof.Machine
end

