-- ==== Sys2Proof/Machine/RegRead.lean ====
section
/-! DEFINITION. Reads of registers by address (R5, R13, R14, R559-R563, R621, R625, R647-R649), block by block: every register that is no
48-bit or 64-bit counter. A WO field and an RSV field read as zero, and so does a misaligned access. [DESIGN CHOICE log 106] -/
namespace Sys2Proof.Machine

/-! ### IDENT, CLK, PWR, TIME, FAULT, RIM, SLATE -/

/-- A register of the IDENT block (R53, R482, R500, R501). -/
def identW (s : State) (ofs : Nat) : Option Word :=
  if regs ofs 0 4 then some (BitVec.ofNat 32 ((List.range 4).foldr (fun i n => ((s.slate.uid[ofs + i]?).getD 0).toNat + 256 * n) 0))
  else if ofs = 0x10 then some (BitVec.ofNat 32 Config.moduleSerial.toNat)
  else if ofs = 0x14 then some (BitVec.ofNat 32 (Config.moduleSerial.toNat / 2 ^ 32))
  else if ofs = 0x20 then some s.slate.win
  else if ofs = 0x400 then some s.gridSel
  else if regs ofs 0x404 4 then some (sget 0 s.grid ofs)
  else if ofs = 0x414 then some (gridSum s)
  else if ofs = 0x600 then
    let b := s.boot
    some (packW [(31, 1, b2n b.done), (30, 1, b2n b.failed), (26, 4, b.step), (23, 3, b.kind),
      (22, 1, b2n (b.running && b.step == 8 && !s.flowOk)), (21, 1, b2n (b.running && b.step == 1 && !s.clk.selected))])
  else if ofs = 0x604 then some (BitVec.ofNat 32 s.boot.ms)
  else if ofs = 0x608 then some 0
  else if ofs = 0x610 then
    some (packW [(31, 1, b2n s.vigil.lost), (30, 1, b2n s.vigil.cellLow), (29, 1, b2n s.vigil.programDone)])
  else if ofs = 0x614 then some (packW [(28, 4, s.vigil.last), (0, 16, s.vigil.seen)])
  else none

/-- A register of the CLK block (R529-R531); WAITING stands until every mesh is LOCKED again (R520). [DEDUCED log 68] -/
def clkW (s : State) (ofs : Nat) : Option Word :=
  let c := s.clk
  if ofs = 0 then
    some (packW [(31, 1, b2n c.aGood), (30, 1, b2n c.bGood), (29, 1, b2n c.sel), (28, 1, b2n (linkKept s)), (23, 5, fld c.sticky 23 5)])
  else if ofs = 4 then some 0
  else if ofs = 0x20 then some c.fieldSel
  else if ofs = 0x24 then some c.fieldStat
  else if regs ofs 0x40 4 then some (enW s ((ofs - 0x40) / 4))
  else none

/-- A register of the PWR block (R551-R553, R645, R646). -/
def pwrW (s : State) (ofs : Nat) : Option Word :=
  let p := s.pwr
  if ofs = 0 then
    some (packW [(31, 1, b2n p.steward), (30, 1, b2n p.floor), (29, 1, b2n p.stopped), (28, 1, b2n ((List.range 84).any (fun f => capped (getField s f)))),
      (27, 1, b2n ((List.range 84).any (fun f => throttled (getField s f))))])
  else if ofs = 4 then some p.event
  else if ofs = 8 then some (packW [(16, 16, p.waferW), (0, 16, p.capW)])
  else if ofs = 0xC then some (packW [(0, 7, p.request)])
  else if ofs = 0x10 ∨ ofs = 0x14 then some 0
  else if ofs = 0x20 ∨ regs ofs 0x24 2 ∨ regs ofs 0x30 10 then some (sget 0 p.regs ofs)
  else if regs ofs 0x80 16 then some (sget 0 p.coef ((ofs - 0x80) / 4))
  else if ofs = 0x100 then
    some (packW [(31, 1, b2n s.flowOk), (30, 1, fld (sget 0 p.regs 0x100) 30 1),
      (24, 4, packNat ((List.range 4).map (fun h => (h, 1, b2n (getEnd s h).perst)))), (23, 1, fld (sget 0 p.regs 0x100) 23 1),
      (0, 8, fld (sget 0 p.regs 0x100) 0 8)])
  else if ofs = 0x104 then some (packW [(31, 1, b2n p.trayOk), (20, 11, p.flow), (10, 10, p.tin.toNat)])
  else none

/-- A register of a schedule entry (R325). -/
def schedW (x : SchedEnt) (ofs : Nat) : Word :=
  match ofs with
  | 0 => x.tLo
  | 4 => x.tHi
  | 8 => setFld x.act 31 1 (b2n (x.st == 1))
  | _ => packW [(30, 2, x.st), (29, 1, b2n x.late), (0, 28, x.lateness)]

/-- TIME_STAT (R324). -/
def timeStat (s : State) : Word :=
  packW [(31, 1, b2n s.time.continuity), (30, 1, b2n s.time.holdover), (29, 1, b2n s.time.holdSeen)]

/-- A register of the TIME block that is no counter (R324). -/
def timeW (s : State) (ofs : Nat) : Option Word :=
  if ofs = 8 then some (timeStat s)
  else if ofs = 0x10 then some s.time.setLo
  else if ofs = 0x14 then some s.time.setHi
  else if ofs = 0x18 then some 0
  else if 0x100 ≤ ofs ∧ ofs < 0x200 then some (schedW (entOf s (entKey (.dev (Fin.ofNat 16 (ofs / 0x10))))) (ofs % 0x10))
  else if 0x1000 ≤ ofs ∧ ofs < 0x2000 ∧ ofs % 0x100 < 0x80 then
    some (schedW (entOf s (entKey (.board (Fin.ofNat 16 (ofs / 0x100)) (Fin.ofNat 8 (ofs % 0x100 / 0x10))))) (ofs % 0x10))
  else none

/-- A register of the FAULT block (R628). -/
def faultW (s : State) (ofs : Nat) : Option Word :=
  let v := s.flt
  match ofs with
  | 0 => some v.dev
  | 0x10 => some v.busErr
  | 0x20 => some v.splitUnit
  | 0x24 => some v.splitView
  | 0x30 => some (packW [(0, 16, v.splitCount)])
  | 0x40 => some (packW [(16, 16, v.quarCount), (0, 13, v.quar.length)])
  | 0x44 => some v.quarSel
  | 0x48 => some v.quarA
  | 0x4C => some v.quarB
  | _ => none

/-- A register of the RIM block (R297). -/
def rimW (s : State) (ofs : Nat) : Option Word :=
  match ofs with
  | 0 => some s.rim.sel
  | 4 => some s.rim.stat
  | _ => none

/-- A register of the SLATE block (R483). -/
def slateW (s : State) (ofs : Nat) : Option Word :=
  let v := s.slate
  match ofs with
  | 0 => some (packW [(31, 1, b2n v.present), (30, 1, b2n v.booted), (27, 3, v.bootFail), (26, 1, b2n v.fallback), (25, 1, b2n v.runB),
      (24, 1, b2n v.journalLost), (23, 1, b2n v.voidSeen)])
  | 4 => some (packW [(16, 16, v.runSeq), (0, 16, v.life)])
  | 8 => some (packW [(0, 17, v.defUsed)])
  | 0xC => some (packW [(0, 17, v.defValid)])
  | 0x10 => some 0
  | 0x14 => some v.argOfs
  | 0x18 => some v.argLen
  | 0x1C => some v.argLo
  | 0x20 => some v.argHi
  | 0x24 => some (packW [(31, 1, b2n v.busy), (30, 1, b2n v.openSeq.isSome), (26, 4, v.result), (0, 16, v.openSeq.getD 0)])
  | 0x28 => some (BitVec.ofNat 32 v.bytes)
  | _ => none

/-! ### Boards -/

/-- BRD_STAT (R434). -/
def brdStat (bd : Board) : Word :=
  packW [(28, 4, bd.st.code), (27, 1, b2n bd.cmdIgnored), (26, 1, b2n bd.home), (25, 1, b2n bd.assembled), (23, 2, bd.lastDrain),
    (22, 1, b2n bd.loadFailed), (21, 1, b2n bd.faultDrain), (20, 1, b2n bd.drainPending)]

/-- BRD_SM_STAT (R322). -/
def smStat (s : State) (b : Nat) : Word :=
  let bd := getBd s b
  let h := stillHolds s b
  packW [(31, 1, b2n bd.smDeclared), (30, 1, b2n bd.smReady), (28, 1, b2n h.1), (27, 1, b2n h.2.1), (26, 1, b2n h.2.2.1), (25, 1, b2n h.2.2.2),
    (23, 2, bd.smCause), (10, 13, stillNow s b)]

/-- A fault register of a board (R627). -/
def brdFltW (bd : Board) (ofs : Nat) : Word :=
  match ofs with
  | 0xE00 => packW [(31, 1, b2n bd.fltValid), (30, 1, b2n bd.fltHard), (29, 1, b2n bd.fltQuar), (28, 1, b2n bd.fltJournaled),
      (27, 1, b2n bd.fltLost), (16, 8, bd.fltCode), (0, 16, bd.fltCount)]
  | 0xE04 => packW [(31, 1, b2n bd.fltBrick), (20, 11, bd.fltX), (10, 10, bd.fltY)]
  | 0xE08 => packW [(16, 11, bd.fltPX), (0, 10, bd.fltY)]
  | _ => bd.fltDetail

/-- A register of board b's BRD block that is no counter (R322, R323, R410, R433-R435, R455, R627). -/
def brdW (s : State) (b ofs : Nat) : Option Word :=
  let bd := getBd s b
  if ofs = 0 ∨ ofs = 4 ∨ ofs = 8 then some (brdDef bd ofs).1
  else if ofs = 0x10 ∨ ofs = 0xC0C then some 0
  else if ofs = 0x14 then some (brdStat bd)
  else if ofs = 0x18 then some (packW [(0, 24, bd.limitUs)])
  else if ofs = 0x1C then some (packW [(0, 20, bd.waiting)])
  else if ofs = 0x40 then some (BitVec.ofNat 32 bd.imageId)
  else if ofs = 0x44 then some (BitVec.ofNat 32 (bd.imageId / 2 ^ 32))
  else if ofs = 0x48 then some (packW [(16, 16, bd.pieces), (0, 16, bd.piece)])
  else if ofs = 0x800 then some (smStat s b)
  else if regs ofs 0x900 64 then some (barDeclW bd ((ofs - 0x900) / 4))
  else if ofs = 0xC10 then
    some (packW [(30, 2, if bd.checking then 1 else if bd.checkDone then 2 else 0), (27, 3, bd.checkOutcome), (26, 1, b2n (abandoned bd)),
      (25, 1, b2n bd.checkIgnored), (0, 20, bd.depBricks)])
  else if regs ofs 0xE00 4 then some (brdFltW bd ofs)
  else if (brdRw ofs).isSome ∨ ofs = 0xA00 ∨ brdRo ofs then some (sget 0 bd.regs ofs)
  else none

/-! ### MEDs -/

/-- Open descriptors of a MED that meet a condition, with their keys. -/
def descCount (d : Med) (p : Nat → Desc → Bool) : Nat := (d.desc.filter (fun c => p c.1 c.2)).length

/-- MED_BRD_STAT and MED_BRD_OPEN (R295). -/
def winStat (w : MedWin) : Word :=
  packW [(30, 2, w.submit), (24, 6, w.last), (6, 1, b2n (!w.faults.isEmpty)), (0, 6, w.faults.headD 0)]
def winOpen (d : Med) (b : Nat) : Word :=
  let n := fun (ok : DPhase → Bool) => descCount d (fun k c => k % 256 / 16 == b && ok c.phase)
  packW [(24, 8, n (· == .queued)), (16, 8, n (· == .running)), (8, 8, n (· == .faulted)), (0, 8, n (fun p => p == .closing || p == .error))]

/-- What a read in board b's window of MED m does (R295, R296), and whether it is served only by an enabled engine (R526). -/
def winRead (m b ofs : Nat) (s : State) : Option (Bool × State) :=
  let d := getMed s m
  let w := getWin d b
  let val := fun (g : Bool) (v : Word) => some (g, { s with resp := .value v })
  if ofs = 0 then val false (quotaW s m b)
  else if ofs = 4 then val false (winStat w)
  else if ofs = 8 then val false (winOpen d b)
  else if ofs = 0x10 ∨ ofs = 0x14 then val false (winW d b ofs)
  else if ofs = 0x18 then val false 0
  else if regs ofs 0x20 12 ∨ regs ofs 0x80 7 then val true (winW d b ofs)
  else if ofs = 0x50 ∨ ofs = 0xA0 then val true 0
  else if ofs = 0x60 then some (true, medCplRead m b s)
  else if ofs = 0x64 then val true (packW [(31, 1, b2n w.lost), (0, 7, w.cpl.length)])
  else none

/-- The pair MED_ECC_CE, whose HI a rim access reads live, having no shadow (R294, R625). -/
def medRead (m ofs : Nat) (s : State) : Option (Bool × State) :=
  let d := getMed s m
  let val := fun (v : Word) => some (false, { s with resp := .value v })
  if 0x10000 ≤ ofs ∧ ofs < 0x20000 then winRead m ((ofs - 0x10000) / 0x1000) (ofs % 0x1000) s
  else if ofs = 0 then val (BitVec.ofNat 32 m)
  else if ofs = 8 then val (evLo d.ce)
  else if ofs = 0xC then val (evHi d.ce)
  else if ofs = 0x10 then val d.eccLast
  else if regs ofs 0x20 4 then
    let e := (ofs - 0x20) / 4
    val (packW [(16, 16, 0xFFFF - sget 0 d.busy e % 0x10000), (0, 9, descCount d (fun k _ => k / 256 == e))])
  else none

/-! ### HEDs -/

/-- A Lexicon register of a channel (R374, R375). -/
def lxW (s : State) (h c ofs : Nat) : Option Word :=
  let ch := getCh s h c
  if ofs = 0 then some (lxBind ch ||| packW [(28, 2, if ch.bound then ch.alg else 0)])
  else if ofs = 4 then some ch.cfg
  else if ofs = 8 then some (BitVec.ofNat 32 ch.vbase)
  else if ofs = 0xC then some (packW [(0, 16, ch.vbase / 2 ^ 32)])
  else if ofs = 0x10 then some (packW [(0, 23, ch.vsize)])
  else if ofs = 0x14 then some (packW [(0, 24, ch.limit)])
  else if ofs = 0x18 then
    let u := ch.cur.getD {}
    some (packW [(29, 3, chanStat (getBd s ch.board) ch), (26, 3, ch.lastEnd), (25, 1, b2n ch.emptyPrompt), (23, 2, u.held.length),
      (15, 8, u.fly.length), (7, 8, u.nextSeq)])
  else if regs ofs 0x40 16 then
    some (match ch.stops[(ofs - 0x40) / 4]? with | some t => packW [(31, 1, 1), (0, 22, t)] | none => 0)
  else none

/-- A walker register of a channel (R389-R391); MASK_WORDS is that of its board. -/
def gwW (s : State) (h c ofs : Nat) : Option Word :=
  let ch := getCh s h c
  match ofs with
  | 0 => some (packW [(31, 1, b2n ch.gBound), (20, 4, ch.gMed), (0, 18, if ch.en then (getBd s ch.board).maskW else 0)])
  | 4 => some (BitVec.ofNat 32 ch.gBase)
  | 8 => some (packW [(0, 16, ch.gBase / 2 ^ 32)])
  | 0xC => some (packW [(31, 1, b2n ch.gEnable), (0, 12, ch.gStart)])
  | 0x10 => some (packW [(29, 3, ch.gPhase), (26, 3, ch.gCause), (19, 7, ch.gStack.length), (0, 12, ch.gState)])
  | 0x14 => some (packW [(31, 1, b2n ch.gRejV), (0, 22, ch.gRej)])
  | 0x20 => some ch.ssel
  | 0x24 => some ch.sdata
  | _ => none

/-- A ring register of a channel (R576). -/
def ringRegW (ch : Chan) (ofs : Nat) : Option Word :=
  if ofs = 0 ∨ (ringRw ofs).isSome then some (ringW ch ofs)
  else if ofs = 0x1C then some (packW [(16, 16, ch.cplTail), (0, 16, ch.txtHead)])
  else if ofs = 0x20 then some (packW [(31, 1, b2n ch.dbErr), (30, 1, b2n ch.entryErr), (29, 1, b2n ch.fetchErr)])
  else none

/-- A register of a Stesy port that is no counter (R607). -/
def portW (p : Port) (ofs : Nat) : Option Word :=
  match ofs with
  | 0 => some (match p.peer with
    | some (w, h, k) => packW [(28, 4, p.st), (26, 2, h), (24, 2, k), (8, 15, w)]
    | none => packW [(28, 4, p.st)])
  | 4 => some p.evt
  | 0x20 => some p.lsel
  | 0x24 => some p.llive
  | _ => none

/-- A common Stesy register of a HED (R608). -/
def stesyRegW (s : State) (h ofs : Nat) : Option Word :=
  let e := getHed s h
  match ofs with
  | 0x800 => some (packW [(0, 15, s.wafer)])
  | 0x804 => some (packW [(16, 16, e.noroute), (0, 16, e.ttl)])
  | 0x808 => some (packW [(0, 16, e.stale)])
  | 0x810 => some e.csel
  | 0x814 => some e.cA
  | 0x818 => some e.cB
  | 0x81C => some e.cC
  | 0x820 => some e.fsel
  | 0x824 => some e.f0
  | 0x828 => some e.f1
  | _ => none

/-! ### Functions -/

/-- A word of a function's MSI-X table, or of its pending bits; the mask bit is held inverted. [PRESUMED log 91] -/
def msixW (e : FnSt) (ofs : Nat) : Word :=
  if ofs % 16 = 12 then packW [(0, 1, 1 - fld (sget 0 e.msix ofs) 0 1)] else sget 0 e.msix ofs
def pbaW (e : FnSt) : Word := packW ((List.range 32).map (fun v => (v, 1, sget 0 e.pba v)))

/-! ### Bricks -/

/-- BRK_RDATA (R83). -/
def rdataW (b : Brick) : Word :=
  let i := fld (obsW b 0x820) 0 8
  match fld (obsW b 0x820) 8 2 with
  | 0 => if i < 32 then gReg b i else 0
  | 1 => BitVec.ofNat 32 (pAll b)
  | 2 => BitVec.ofNat 32 (fld (vReg b (i / 8)) (32 * (i % 8)) 32)
  | _ => accW b (i / 64) (i % 64)

/-- BRK_TDATA (R178, R179). -/
def tdataW (b : Brick) : Word :=
  let i := fld (obsW b 0x884) 0 5
  if i < 16 then BitVec.ofNat 32 (packNat ((List.range 4).map (fun j => (8 * j, 8, wscB b (4 * i + j)))))
  else if i < 20 then BitVec.ofNat 32 (fld b.xl (32 * (i - 16)) 32)
  else 0

/-- BRK_TSTAT (R177). -/
def tstatW (b : Brick) : Word :=
  packW [(24, 8, b.xsc.toNat), (4, 7, min 64 (b.arrayFree - b.useT)),
    (0, 4, packNat ((List.range 4).map (fun i => (i, 1, b2n (b.updates.any (fun u => u.acc == i))))))]

/-- Bit i is set where `p i` holds, for i below n. -/
def bitsW (n : Nat) (p : Nat → Bool) : Word := packW ((List.range n).map (fun i => (i, 1, b2n (p i))))

/-- BRK_ID (R74) and BRK_BOARD (R75) of a physical brick. -/
def idW (s : State) (k : Nat) : Word := packW [(21, 11, k % 1152), (10, 11, (placeOf s k).1), (0, 10, k / 1152)]
def boardW (s : State) (k : Nat) : Word :=
  match boardAt s (placeOf s k).1 (placeOf s k).2 with
  | some n => packW [(4, 1, 1), (0, 4, n)]
  | none => 0

/-- BRK_STATE (R76). -/
def stateW (b : Brick) : Word := packW [(31, 1, b2n b.wrIgnored), (8, 11, pcField b), (4, 3, b.rpt.length), (0, 3, b.st.code)]

/-- BRK_QSTAT (R77): a brick that does not fetch and issue charges no cause. -/
def qstatW (b : Brick) : Word :=
  let on := b.st == .running || b.st == .draining
  let c := fun (n : Nat) => if on then n else 0
  packW [(28, 1, b2n (on && b.dispStall)), (24, 4, b.qT.length), (20, 4, b.qV.length), (16, 4, b.qS.length), (8, 4, c b.causeT),
    (4, 4, c b.causeV), (0, 4, c b.causeS)]

/-- BRK_PORTSTAT (R78). -/
def portstatW (b : Brick) : Word :=
  packW ((List.range 8).flatMap (fun n => [(4 * n + 3, 1, b2n ((portQ b n).headD {}).null), (4 * n, 3, (portQ b n).length)]))

/-- BRK_CB_STAT (R256). -/
def cbStatW (b : Brick) : Word :=
  packW ((List.range 8).flatMap (fun n =>
    let c := sget {} b.cb n
    [(4 * n + 3, 1, b2n (cbDecl b n)), (4 * n + 2, 1, c.rd), (4 * n + 1, 1, b2n c.done), (4 * n, 1, b2n c.filling)]))

/-- BRK_RT_BRIDGE_d of the brick at (x, y) (R210). -/
def bridgeW (s : State) (x y d : Nat) : Word :=
  let word := fun (edge nak : Bool) (expect : Nat) (landing : SMap (List Flit)) =>
    packW [(31, 1, 1), (30, 1, b2n edge), (29, 1, b2n nak), (10, 5, expect), (0, 10, (landing.map (fun p => p.2.length)).sum)]
  if edgeInput y d then
    let v := getEdge s (edgeKey x (d == 2))
    word true v.inn.nakOut v.inn.expect v.landing
  else if crossesJoint x y d then
    let v := getTie s (tieKey x y d)
    word false v.nakOut v.expect v.landing
  else 0

/-- BRK_FLT_HIST (R626). -/
def histW (s : State) (b : Brick) : Word := packW [(0, 2, (b.hist.filter (fun t => decide (s.now - t ≤ 360000000000))).length)]

/-- A register of brick k's space whose read changes nothing, and that is no counter. -/
def brickW (s : State) (k : Nat) (b : Brick) (ofs : Nat) : Option Word :=
  let p := placeOf s k
  if ofs = 0 then some (idW s k)
  else if ofs = 4 then some (boardW s k)
  else if ofs = 8 then some (stateW b)
  else if ofs = 0xC then some (qstatW b)
  else if ofs = 0x10 then some (portstatW b)
  else if ofs = 0x14 then some (bitsW 8 (fun n => b.nf.getLsbD n))
  else if (cfgFields ofs 0).isSome then some (cfgW b ofs)
  else if regs ofs 0x710 4 then
    let j := (ofs - 0x710) / 4
    some (packW ((List.range 16).map (fun i => (2 * i, 2, outAt s p.1 p.2 b (16 * j + i) b.useT))))
  else if regs ofs 0x720 2 then some (bitsW 32 (fun i => sget 0 b.barNP (32 * ((ofs - 0x720) / 4) + i) == 1))
  else if ofs = 0x800 then some (BitVec.ofNat 32 b.pmemAddr)
  else if ofs = 0x810 then some (BitVec.ofNat 32 b.sramAddr)
  else if ofs = 0x824 then some (rdataW b)
  else if ofs = 0x880 then some (tstatW b)
  else if ofs = 0x888 then some (tdataW b)
  else if ofs = 0x8A8 then some (cbStatW b)
  else if ofs = 0x8C8 then some (packW [(8, 4, b.bridgeDead.toNat), (0, 4, b.linkDed.toNat)])
  else if regs ofs 0x8E0 4 then some (bridgeW s p.1 p.2 ((ofs - 0x8E0) / 4))
  else if ofs = 0x8F8 then some (scLive s p.1 p.2 b)
  else if ofs = 0xC0C then some (histW s b)
  else if ofs = 0x100 ∨ ofs = 0x890 ∨ ofs = 0x8C0 ∨ ofs = 0x8F0 ∨ (brkSel ofs).isSome ∨ brkRo ofs then some (obsW b ofs)
  else none

/-! ### The address maps -/

/-- A read answers a word; none where no register lies. -/
def readW (s : State) (f : Fn) (blk : Blk) (ok served : Bool) (target : Nat) (w : Option Word) : Option State :=
  access s f blk true (ok && w.isSome) served target { s with resp := .value (w.getD 0) }

/-- A read in the register space of the brick that aperture `ap` reaches. -/
def rBrick (f : Fn) (ap ofs : Nat) (s : State) : Option State :=
  let via := fun (op : Nat → Brick → Option State) => viaAp s f ap true op
  if ofs = 0x804 then via (fun k b => some (pmemLoRead s k b))
  else if ofs = 0x808 then via (fun k b => some (pmemHiRead s k b))
  else if ofs = 0x814 then via (fun k b => sramDataRead s (b.useT + 1) k b)
  else if regs ofs 0x840 16 && ofs % 0x10 == 0 then via (fun k b => some (rptPosRead ((ofs - 0x840) / 0x10) s k b))
  else via (fun k b => match brickW s k b ofs with
    | some w => some { s with resp := .value w }
    | none => access s f .other true false true 12 s)

/-- A read of a channel's registers: Lexicon, walker, rings. -/
def rChan (f : Fn) (h c grp ofs : Nat) (s : State) : Option State :=
  let ch := getCh s h c
  match grp with
  | 0 => readW s f .other (chanOk s f h c) (lexOn s h) (12 + h) (lxW s h c ofs)
  | 1 => readW s f .other (chanOk s f h c) (lexOn s h) (12 + h) (gwW s h c ofs)
  | _ => readW s f .other (chanOk s f h c) true (12 + h) (ringRegW ch ofs)

/-- A read in a HED block. -/
def rHed (f : Fn) (h ofs : Nat) (s : State) : Option State :=
  let c := ofs % 0x10000 / 0x100
  let o := ofs % 0x10000
  if 0x100000 ≤ ofs ∧ ofs < 0x130000 ∧ c < 8 then rChan f h c (ofs / 0x10000 - 0x10) (ofs % 0x100) s
  else if ofs / 0x10000 = 0x13 ∧ o < 0x400 then
    readW s f .other (isPf f) (stesyOn s h (o / 0x100)) (12 + h) (portW (getPort s h (o / 0x100)) (o % 0x100))
  else if ofs / 0x10000 = 0x13 then readW s f .other (isPf f) true (12 + h) (stesyRegW s h o)
  else readW s f .other false true (12 + h) none

/-- A read of the TILEWIN selector pair (R577). -/
def rTile (f : Fn) (ofs : Nat) (s : State) : Option State :=
  readW s f .other true true 12 (match ofs with
    | 0 => some (getFn s (fnIx f)).tileSel
    | 4 => some (tileXY s f)
    | _ => none)

/-- A 32-bit read through the Device Management Space of what is no counter (R559, R647, R648). -/
def rPf (f : Fn) (a : Nat) (s : State) : Option State :=
  let e := getFn s (fnIx f)
  if a < 0x100000 then
    (if 0x80000 ≤ a then windowRead f (a - 0x80000) s else readW s f .ident (isPf f) true 12 (identW s a))
  else if a < 0x200000 then readW s f .clk (isPf f) true 12 (clkW s (a - 0x100000))
  else if a < 0x300000 then readW s f .other (isPf f) true 12 (pwrW s (a - 0x200000))
  else if a < 0x400000 then readW s f .time (isPf f) true 12 (timeW s (a - 0x300000))
  else if a < 0x500000 then readW s f .other (isPf f) true 12 (faultW s (a - 0x400000))
  else if a < 0x600000 then readW s f .other true true 12 (brdW s ((a - 0x500000) / 0x10000) (a % 0x10000))
  else if a < 0x700000 then readW s f .other (isPf f) true 12 (rimW s (a - 0x600000))
  else if a < 0x800000 then readW s f .slate (hostPf f) (slateOn s) 16 (slateW s (a - 0x700000))
  else if a < 0x810000 then rTile f (a - 0x800000) s
  else if a < 0x820000 then rBrick f ((a - 0x810000) / 0x1000) (a % 0x1000) s
  else if a < 0x1000000 then readW s f .other false true 12 none
  else if a < 0x5000000 then rHed f (a / 0x1000000 - 1) (a % 0x1000000) s
  else if a < 0x7000000 then
    gatedAccess f ((a - 0x5000000) / 0x400000) true true (medRead ((a - 0x5000000) / 0x400000) ((a - 0x5000000) % 0x400000) s) s
  else if 0xF000000 ≤ a ∧ a < 0xF000200 then readW s f .other (f != .steward) true 12 (some (msixW e (a - 0xF000000)))
  else if regs a 0xF008000 2 then readW s f .other (f != .steward) true 12 (some (if a = 0xF008000 then pbaW e else 0))
  else readW s f .other false true 12 none

/-- A 32-bit read through VF BAR0 of what is no counter (R560, R649). -/
def rVf (f : Fn) (h k a : Nat) (s : State) : Option State :=
  let b := 4 * h + k
  let e := getFn s (fnIx f)
  if a < 0x10000 then readW s f .other true true 12 (brdW s b a)
  else if a < 0x18000 then gatedAccess f ((a - 0x10000) / 0x1000) true true (winRead ((a - 0x10000) / 0x1000) b (a % 0x1000) s) s
  else if a < 0x18080 then
    readW s f .time true true 12 (some (schedW (entOf s (entKey (.board (Fin.ofNat 16 b) (Fin.ofNat 8 ((a - 0x18000) / 0x10))))) (a % 0x10)))
  else if a = 0x18F08 then readW s f .time true true 12 (some (timeStat s))
  else if 0x20000 ≤ a ∧ a < 0x28000 ∧ a % 0x1000 < 0x300 then rChan f h ((a - 0x20000) / 0x1000) (a % 0x1000 / 0x100) (a % 0x100) s
  else if 0x30000 ≤ a ∧ a < 0x38000 ∧ a % 0x1000 < 8 then
    readW s f .other (chanOk s f h ((a - 0x30000) / 0x1000)) true (12 + h) (some 0)
  else if 0x80000 ≤ a ∧ a < 0x90000 then rTile f (a - 0x80000) s
  else if 0x90000 ≤ a ∧ a < 0xA0000 then rBrick f ((a - 0x90000) / 0x1000) (a % 0x1000) s
  else if 0xF0000 ≤ a ∧ a < 0xF0040 then readW s f .other true true 12 (some (msixW e (a - 0xF0000)))
  else if regs a 0xF8000 2 then readW s f .other true true 12 (some (if a = 0xF8000 then pbaW e else 0))
  else readW s f .other false true 12 none

/-- A 32-bit read at an aligned address that is no half of a counter; outside the BAR it is an Unsupported Request (R564). -/
def plainRead (f : Fn) (a : Nat) (s : State) : Option State :=
  match f with
  | .vf h k => if a < 0x100000 then rVf f h k a s else unsupported f s
  | .pf _ => if a < 0x10000000 then rPf f a s else unsupported f s
  | .steward => if a < 0x10000000 then rPf f a s else readW s f .other false true 12 none

/-- A 32-bit read at an aligned address: a counter's LO or HI register under R625, or any other register. -/
def read32 (f : Fn) (a : Nat) (s : State) : Option State :=
  match ctrAt s f a with
  | some c => ctrLo s f c
  | none => match (if 4 ≤ a then ctrAt s f (a - 4) else none) with
    | some c => ctrHi s f c
    | none => plainRead f a s

/-- What the two halves of an 8-byte read answer together: 64 bits, a half that is not permitted reading as zero; an error of either
ends the access in that error. [DEDUCED log 104] -/
def pairResp (a b : Resp) : Resp :=
  match a, b with
  | .value lo, .value hi => .value64 (BitVec.ofNat 64 (lo.toNat + 2 ^ 32 * hi.toNat))
  | .value lo, .violation => .value64 (BitVec.ofNat 64 lo.toNat)
  | .violation, .value hi => .value64 (BitVec.ofNat 64 (2 ^ 32 * hi.toNat))
  | .value _, r => r
  | r, _ => r

/-- A register read (R13): an access that is not aligned reads as zero; one of 8 bytes is two of 4, the lower address first. -/
def regRead (f : Fn) (a : Nat) (wide : Bool) (s : State) : Option State :=
  if a % 4 ≠ 0 then (if linkOk s f then some { s with resp := if wide then .value64 0 else .value 0 } else none)
  else match read32 f a s with
    | none => none
    | some s1 => if !wide then some s1 else (read32 f (a + 4) s1).map (fun s2 => { s2 with resp := pairResp s1.resp s2.resp })

/-- COUNTER_LO_READ (R625), and a read of any register by address: the table of commands has no row of its own for it (R5, R13, R14).
[DESIGN CHOICE log 106] -/
def execCounterLoRead (f : Fn) (addr : Nat) (wide : Bool) (s : State) : Host.Outcome State Fault Refusal :=
  reply s (regRead f addr wide s)

end Sys2Proof.Machine
end

