-- ==== Sys2Proof/Machine/Rim.lean ====
section
/-! DEFINITION. Bursts over the rim matrix and their responses (R289-R293, R353, R373). -/
namespace Sys2Proof.Machine

/-! ### Errors -/

/-- The channel whose table a Lexicon unit reads in board b's context: the first in turn whose request stands. [DESIGN CHOICE log 34] -/
def lexReader (s : State) (b : Nat) : Option Nat :=
  (List.range 8).find? (fun c =>
    let ch := getCh s (b / 4) c
    ch.en && ch.board == b && ch.cur.any (fun u => u.cause == 0))

/-- An uncorrectable rim beat (R293): a bus error to the master, and FAULT_RIM for the board or the device; in a table read of a Lexicon
unit the request ends with ABORT, and the board raises FAULT_LEXICON (R373). -/
def rimFault (s : State) (mst tgt : Nat) (ctx : Option Nat) (read : Bool) : State :=
  let s1 := match ctx with
    | some b =>
      let r := raiseBoard s fRIM b (packW [(8, 5, mst), (0, 5, tgt)])
      if read && decide (8 ≤ mst ∧ mst < 12) then (match lexReader r b with | some c => lexFault (b / 4) c b r | none => r) else r
    | none => sigDev (devBit s 31)
  if mst = 12 then busError s1 .steward tgt else { s1 with resp := .busError }

/-! ### Bursts -/

/-- A master of the matrix in a context, as the windows of a MED see it (R286, R288). -/
def masterOf (mst : Nat) (ctx : Option Nat) : RimMaster :=
  if mst < 4 then .dma (Fin.ofNat 4 mst) (ctx.map (Fin.ofNat 16))
  else if mst < 8 then .pcie (match ctx with | some b => .vf (Fin.ofNat 4 mst) (Fin.ofNat 4 b) | none => .pf (Fin.ofNat 4 mst))
  else if mst < 12 then .lexicon (Fin.ofNat 4 mst) (Fin.ofNat 16 (ctx.getD 0))
  else .steward

/-- A command joins those of its path that wait for a response. -/
def queueCmd (s : State) (mst tgt : Nat) (c : RimCmd) : State :=
  { s with
    rim := { s.rim with cmds := smod [] s.rim.cmds (pathKey mst tgt) (fun l => l ++ [c]) }
    resp := .done }

/-- An access that is not permitted (R289, R621). -/
def rimViolation (s : State) (ctx : Option Nat) : State := { violate s ctx with resp := .violation }

/-- What an access to a window answered goes onto the path: bytes read, ROOM, or only that it is done; an access that ended in a
violation or a bus error sends no response. -/
def toPath (mst tgt : Nat) (c : RimCmd) (s : State) : State :=
  match s.resp with
  | .bytes l => queueCmd s mst tgt { c with data := l }
  | .value v => queueCmd s mst tgt { c with data := bytesLE 4 v.toNat }
  | .room n full => queueCmd s mst tgt { c with room := some (n, full) }
  | .violation => s
  | .busError => s
  | _ => queueCmd s mst tgt c

/-- One 32-bit word of a MED's register window (R289, R290): the board's own window, or the whole block under DEVICE; `be` enables its
bytes. An access that does not enable the whole word reads as zero and writes nothing (R13). [DESIGN CHOICE log 34] -/
def medWord (mst m : Nat) (ctx : Option Nat) (ofs : Nat) (be : Nat) (wr : Option Word) (s : State) : State :=
  let mine := match ctx with
    | some b => decide (ofs / 0x1000 = 0x10 + b)
    | none => true
  let r := match wr with
    | some v => medWrite m ofs v s
    | none => medRead m ofs s
  match mine, r with
  | true, some (g, s1) =>
    if be % 16 ≠ 15 then { s with resp := if wr.isSome then .ignored else .value 0 }
    else if g && !medOn s m then rimBusError s (masterOf mst ctx) m
    else s1
  | _, _ => rimViolation s ctx

/-- A single beat of 4 or 8 bytes of a MED's register window: one word, or two, the lower address first (R13, R290). -/
def medBeat (mst m : Nat) (ctx : Option Nat) (ofs : Nat) (be : BitVec 8) (n : Nat) (wr : Option (List Byte)) (s : State) : State :=
  let word := fun (i : Nat) => wr.map (fun l => BitVec.ofNat 32 (ofBytesLE ((l.drop (4 * i)).take 4)))
  if ofs % 4 ≠ 0 then { s with resp := if wr.isSome then .ignored else .bytes (List.replicate n 0) }
  else
    let s1 := medWord mst m ctx ofs be.toNat (word 0) s
    if n = 4 then s1
    else
      let s2 := medWord mst m ctx (ofs + 4) (be.toNat / 16) (word 1) s1
      { s2 with resp := match s1.resp, s2.resp with
        | .value a, .value b => .bytes (bytesLE 4 a.toNat ++ bytesLE 4 b.toNat)
        | .value a, .violation => .bytes (bytesLE 4 a.toNat ++ [0, 0, 0, 0])
        | .violation, .value b => .bytes ([0, 0, 0, 0] ++ bytesLE 4 b.toNat)
        | .busError, _ => .busError
        | .violation, r => r
        | _, .violation => s1.resp
        | _, r => r }

/-- A granted burst to a MED: its register window, its DRAM, its wafer window (R289); a read of the wafer window, and an offset of no
window, are violations. -/
def medBurst (mst m : Nat) (ctx : Option Nat) (ofs n : Nat) (be : BitVec 8) (wr : Option (List Byte)) (s : State) : Option State :=
  if 0x800000000 ≤ ofs ∧ ofs < 0x800400000 then some (medBeat mst m ctx (ofs - 0x800000000) be n wr s)
  else if ofs < 0x800000000 then dramWindow (masterOf mst ctx) m ofs wr n s
  else match wr with
    | some l =>
      if 0x900000000 ≤ ofs ∧ ofs + n ≤ 0x900114000 then
        waferWrite (masterOf mst ctx) m (ofs - 0x900000000)
          ((List.range (n / 8)).map (fun i => BitVec.ofNat 64 (ofBytesLE ((l.drop (8 * i)).take 8)))) s
      else some (rimViolation s ctx)
    | none => some (rimViolation s ctx)

/-- A granted burst to the SRAM of a HED (R353); a send ring takes its records with the command that forwards them (R592). [DESIGN CHOICE log 34] -/
def hedBurst (mst h : Nat) (ctx : Option Nat) (ofs n : Nat) (wr : Option (List Byte)) (s : State) : State :=
  if !hedRangeOk s h mst ctx ofs n wr.isSome then rimViolation s ctx
  else match wr with
    | some bs => { (if ofs < 0x1000000 then modHed s h (fun v => hedPut v ofs bs) else s) with resp := .done }
    | none => { s with resp := .bytes (readBytes 0 (getHed s h).sram ofs n) }

/-- Is a burst to this offset of this target one of a register window, a single beat of 4 or 8 bytes (R290)? -/
def regWindow (tgt ofs : Nat) : Bool :=
  decide (12 ≤ tgt) || (decide (tgt < 8) && decide (0x800000000 ≤ ofs ∧ ofs < 0x800400000))

/-- The bytes of a burst: those written; of a read 64 a beat, or in a register window 8 where a byte of the upper word is enabled, else 4. -/
def burstBytes (tgt ofs beats : Nat) (be : BitVec 8) : Option (List Byte) → Nat
  | some l => l.length
  | none => if regWindow tgt ofs then (if 16 ≤ be.toNat then 8 else 4) else 64 * beats

/-- The shape of a burst (R290). -/
def burstShape (tgt ofs beats n : Nat) : Bool :=
  if regWindow tgt ofs then decide (beats = 1) && (n == 4 || n == 8)
  else decide (1 ≤ beats ∧ beats ≤ 16 ∧ ofs % 64 = 0 ∧ ofs % 1024 + 64 * beats ≤ 1024) && n == 64 * beats

/-- RIM_BURST (R290, R291, R293): the target grants the master and takes its beats; `e` is 1 if a beat was corrected, 2 if one is
uncorrectable. A burst to a MED or to HED SRAM has its effect; one to another target only waits for its response. [DESIGN CHOICE log 34] -/
def rimBurst (mst tgt : Nat) (ctx : Option Nat) (ofs beats : Nat) (be : BitVec 8) (wr : Option (List Byte)) (waiting : List Nat) (e : Nat)
    (s : State) : Option State :=
  let n := burstBytes tgt ofs beats be wr
  if !edgeRuns s || !pathExists mst tgt || !mstCtxOk mst ctx || !burstShape tgt ofs beats n
      || nextMaster (sget 20 s.rim.last tgt) (mst :: waiting) != some mst then none
  else
    let s1 := { s with rim := { s.rim with last := sset 20 s.rim.last tgt mst } }
    if e = 2 then some (rimFault s1 mst tgt ctx wr.isNone)
    else
      let s2 := if e = 1 then { s1 with rim := rimCe s1.rim mst tgt } else s1
      let c : RimCmd := { ctx := ctx, ofs := ofs, beats := beats, read := wr.isNone }
      if tgt = 16 && !slateOn s then
        some (if mst = 12 then busError s2 .steward tgt else { s2 with resp := .busError })
      else if tgt < 8 then (medBurst mst tgt ctx ofs n be wr s2).map (toPath mst tgt c)
      else if tgt < 12 then some (toPath mst tgt c (hedBurst mst (tgt - 8) ctx ofs n wr s2))
      else some (queueCmd s2 mst tgt c)

/-- RIM_RESPONSE (R291, R293): the response of a path's oldest command reaches its master. [DESIGN CHOICE log 34] -/
def rimResponse (tgt mst e : Nat) (s : State) : Option State :=
  let k := pathKey mst tgt
  match sget [] s.rim.cmds k with
  | [] => none
  | c :: r =>
    if !edgeRuns s then none
    else
      let s1 := { s with rim := { s.rim with cmds := sset [] s.rim.cmds k r } }
      if e = 2 then some (rimFault s1 mst tgt c.ctx c.read)
      else
        let s2 := if e = 1 then { s1 with rim := rimCe s1.rim mst tgt } else s1
        some { s2 with resp := match c.room with
          | some (n, full) => .room n full
          | none => if c.data.isEmpty then .done else .bytes c.data }

/-! ### Rows -/

/-- RIM_BURST (R290). -/
def execRimBurst (mst : Fin 21) (tgt : Fin 18) (ctx : Option (Fin 16)) (ofs beats : Nat) (be : BitVec 8) (wr : Option (List Byte))
    (waiting : List (Fin 21)) (e : Fin 3) (s : State) : Host.Outcome State Fault Refusal :=
  reply s (rimBurst mst tgt (ctx.map (·.val)) ofs beats be wr (waiting.map (·.val)) e s)

/-- RIM_RESPONSE (R291). -/
def execRimResponse (tgt : Fin 18) (mst : Fin 21) (e : Fin 3) (s : State) : Host.Outcome State Fault Refusal :=
  reply s (rimResponse tgt mst e s)

end Sys2Proof.Machine
end

