-- ==== Sys2Proof/Machine/Scalar.lean ====
section
/-! DEFINITION. The scalar instructions of class 0x1: each issues its own opcode; result by aluRes (R116-R119). -/
namespace Sys2Proof.Machine

/-- MOV (R116): MOV writes A to D. -/
def execMov (x : Fin 1104) (y : Fin 560) (t : Nat) (s : State) : Host.Outcome State Fault Refusal :=
  answer s (issueOp .mov x y t s)

/-- ADD (R118): ADD writes A + B, wrapping or saturating. -/
def execAdd (x : Fin 1104) (y : Fin 560) (t : Nat) (s : State) : Host.Outcome State Fault Refusal :=
  answer s (issueOp .add x y t s)

/-- SUB (R118): SUB writes A − B, wrapping or saturating. -/
def execSub (x : Fin 1104) (y : Fin 560) (t : Nat) (s : State) : Host.Outcome State Fault Refusal :=
  answer s (issueOp .sub x y t s)

/-- MUL (R118): MUL writes the low 32 bits of A × B, wrapping or saturating. -/
def execMul (x : Fin 1104) (y : Fin 560) (t : Nat) (s : State) : Host.Outcome State Fault Refusal :=
  answer s (issueOp .mul x y t s)

/-- MULH (R116): MULH writes the high 32 bits of the signed product. -/
def execMulh (x : Fin 1104) (y : Fin 560) (t : Nat) (s : State) : Host.Outcome State Fault Refusal :=
  answer s (issueOp .mulh x y t s)

/-- MULHU (R116): MULHU writes the high 32 bits of the unsigned product. -/
def execMulhu (x : Fin 1104) (y : Fin 560) (t : Nat) (s : State) : Host.Outcome State Fault Refusal :=
  answer s (issueOp .mulhu x y t s)

/-- AND (R116): AND writes A AND B. -/
def execAnd (x : Fin 1104) (y : Fin 560) (t : Nat) (s : State) : Host.Outcome State Fault Refusal :=
  answer s (issueOp .and x y t s)

/-- OR (R116): OR writes A OR B. -/
def execOr (x : Fin 1104) (y : Fin 560) (t : Nat) (s : State) : Host.Outcome State Fault Refusal :=
  answer s (issueOp .or x y t s)

/-- XOR (R116): XOR writes A XOR B. -/
def execXor (x : Fin 1104) (y : Fin 560) (t : Nat) (s : State) : Host.Outcome State Fault Refusal :=
  answer s (issueOp .xor x y t s)

/-- ANDN (R116): ANDN writes A AND NOT B. -/
def execAndn (x : Fin 1104) (y : Fin 560) (t : Nat) (s : State) : Host.Outcome State Fault Refusal :=
  answer s (issueOp .andn x y t s)

/-- SHL (R116): SHL shifts A left by B mod 32. -/
def execShl (x : Fin 1104) (y : Fin 560) (t : Nat) (s : State) : Host.Outcome State Fault Refusal :=
  answer s (issueOp .shl x y t s)

/-- SHR (R116): SHR shifts A right with zeros in. -/
def execShr (x : Fin 1104) (y : Fin 560) (t : Nat) (s : State) : Host.Outcome State Fault Refusal :=
  answer s (issueOp .shr x y t s)

/-- SRA (R116): SRA shifts A right with sign in. -/
def execSra (x : Fin 1104) (y : Fin 560) (t : Nat) (s : State) : Host.Outcome State Fault Refusal :=
  answer s (issueOp .sra x y t s)

/-- ROTL (R116): ROTL rotates A left. -/
def execRotl (x : Fin 1104) (y : Fin 560) (t : Nat) (s : State) : Host.Outcome State Fault Refusal :=
  answer s (issueOp .rotl x y t s)

/-- MIN (R116): MIN writes the signed minimum. -/
def execMin (x : Fin 1104) (y : Fin 560) (t : Nat) (s : State) : Host.Outcome State Fault Refusal :=
  answer s (issueOp .min x y t s)

/-- MAX (R116): MAX writes the signed maximum. -/
def execMax (x : Fin 1104) (y : Fin 560) (t : Nat) (s : State) : Host.Outcome State Fault Refusal :=
  answer s (issueOp .max x y t s)

/-- MINU (R116): MINU writes the unsigned minimum. -/
def execMinu (x : Fin 1104) (y : Fin 560) (t : Nat) (s : State) : Host.Outcome State Fault Refusal :=
  answer s (issueOp .minu x y t s)

/-- MAXU (R116): MAXU writes the unsigned maximum. -/
def execMaxu (x : Fin 1104) (y : Fin 560) (t : Nat) (s : State) : Host.Outcome State Fault Refusal :=
  answer s (issueOp .maxu x y t s)

/-- CLZ (R116): CLZ writes the leading zeros of A. -/
def execClz (x : Fin 1104) (y : Fin 560) (t : Nat) (s : State) : Host.Outcome State Fault Refusal :=
  answer s (issueOp .clz x y t s)

/-- POPC (R116): POPC writes the set bits of A. -/
def execPopc (x : Fin 1104) (y : Fin 560) (t : Nat) (s : State) : Host.Outcome State Fault Refusal :=
  answer s (issueOp .popc x y t s)

/-- BFX (R117): BFX extracts a W-bit field of A. -/
def execBfx (x : Fin 1104) (y : Fin 560) (t : Nat) (s : State) : Host.Outcome State Fault Refusal :=
  answer s (issueOp .bfx x y t s)

/-- BFI (R117): BFI inserts the low W bits of B into A. -/
def execBfi (x : Fin 1104) (y : Fin 560) (t : Nat) (s : State) : Host.Outcome State Fault Refusal :=
  answer s (issueOp .bfi x y t s)

/-- SEL (R119): SEL writes A or B as predicate PS selects. -/
def execSel (x : Fin 1104) (y : Fin 560) (t : Nat) (s : State) : Host.Outcome State Fault Refusal :=
  answer s (issueOp .sel x y t s)

end Sys2Proof.Machine
end

