-- ==== Sys2Proof/Machine/Tap.lean ====
section
/-! DEFINITION. Boundary scan: the IEEE 1149.1 chain of the four HEDs (R643, R644). -/
namespace Sys2Proof.Machine

/-- The TAP controller. -/
def tapNext (st : TapSt) (tms : Bool) : TapSt :=
  match st with
  | .reset => if tms then .reset else .idle
  | .idle => if tms then .selDR else .idle
  | .selDR => if tms then .selIR else .capDR
  | .capDR => if tms then .ex1DR else .shDR
  | .shDR => if tms then .ex1DR else .shDR
  | .ex1DR => if tms then .upDR else .paDR
  | .paDR => if tms then .ex2DR else .paDR
  | .ex2DR => if tms then .upDR else .shDR
  | .upDR => if tms then .selDR else .idle
  | .selIR => if tms then .reset else .capIR
  | .capIR => if tms then .ex1IR else .shIR
  | .shIR => if tms then .ex1IR else .shIR
  | .ex1IR => if tms then .upIR else .paIR
  | .paIR => if tms then .ex2IR else .paIR
  | .ex2IR => if tms then .upIR else .shIR
  | .upIR => if tms then .selDR else .idle

/-- The data register of an instruction. -/
inductive TapReg where
  | boundary | dieId | bypass
deriving DecidableEq, Repr

/-- The data register that HED h's instruction selects; EXTEST and EXTEST_PULSE act as BYPASS unless MOD_RESET_N is low (R643,
R644). -/
def tapReg (s : State) (h : Nat) : TapReg :=
  match sget 0xFF s.tap.ir h with
  | 0x00 => if outOfReset s then .bypass else .boundary
  | 0x05 => if outOfReset s then .bypass else .boundary
  | 0x01 => .boundary
  | 0x02 => .dieId
  | _ => .bypass

/-- Boundary cells of a HED (R644). -/
def cellCount (h : Nat) : Nat := if h = 0 then 124 else 70

/-- Bits of a number, the most significant first: nearest TDI. -/
def bitsMsb (n v : Nat) : List Bool := ((List.range n).map (fun i => v.testBit i)).reverse

/-- The bits that HED h captures from its pins: the levels of the discrete inputs, and open values elsewhere. [DEDUCED log 89] -/
def capCells (s : State) (h : Nat) : List Bool :=
  (List.range (cellCount h)).map (fun i =>
    if i = 33 then !(sget {} s.ends h).perst
    else if i = 72 then outOfReset s
    else if i = 73 then s.flowOk
    else if i = 74 then !bitAt (sget 0 s.pwr.regs 0x100) 30
    else bitAt (Config.freeWord (s.freeCtr + 128 * h + i)) 0)

/-- What HED h captures into its data register. -/
def capDr (s : State) (h : Nat) : List Bool :=
  match tapReg s h with
  | .bypass => [false]
  | .dieId => bitsMsb 32 (packNat [(0, 4, h), (4, 4, 1), (8, 24, 0x475533)])
  | .boundary => capCells s h

/-- The instruction register captures 01 in its low bits, as IEEE 1149.1 has it; its other bits are open. [DEDUCED log 98] -/
def capIr (s : State) (h : Nat) : List Bool :=
  (bitsMsb 6 (Config.freeWord (s.freeCtr + h)).toNat) ++ [false, true]

/-- One bit in at TDI. -/
def shiftIn (tdi : Bool) (l : List Bool) : List Bool := (tdi :: l).take l.length

/-- Length of HED h's data register. -/
def drLen (s : State) (h : Nat) : Nat :=
  match tapReg s h with
  | .bypass => 1
  | .dieId => 32
  | .boundary => cellCount h

/-- The update latches after Update-DR: those of the HEDs whose boundary register is selected. -/
def updLatch (s : State) : List Bool :=
  let old := s.tap.latch ++ List.replicate (334 - s.tap.latch.length) false
  (List.range 4).flatMap (fun h =>
    let from_ := ((List.range h).map (drLen s)).foldl (· + ·) 0
    let at_ := ((List.range h).map cellCount).foldl (· + ·) 0
    match tapReg s h with
    | .boundary => (s.tap.dr.drop from_).take (cellCount h)
    | _ => (old.drop at_).take (cellCount h))

/-- The instruction of HED h in the shifted instruction path. -/
def shiftedIr (l : List Bool) (h : Nat) : Nat :=
  ((l.drop (8 * h)).take 8).foldl (fun a b => 2 * a + b2n b) 0

/-- A rising edge: capture or shift in the present state, then the next state. -/
def tapRise (tms tdi : Bool) (s : State) : State :=
  let t := s.tap
  let nx := tapNext t.st tms
  match t.st with
  | .capDR => { s with tap := { t with st := nx, dr := (List.range 4).flatMap (capDr s) }, freeCtr := s.freeCtr + 512 }
  | .shDR => { s with tap := { t with st := nx, dr := shiftIn tdi t.dr } }
  | .capIR => { s with tap := { t with st := nx, irShift := (List.range 4).flatMap (capIr s) }, freeCtr := s.freeCtr + 4 }
  | .shIR => { s with tap := { t with st := nx, irShift := shiftIn tdi t.irShift } }
  | _ => { s with tap := { t with st := nx } }

/-- TDO carries the bit, or rests in high impedance: before boot step 6 has enabled the interfaces (R474, R496). [DEDUCED log 89] -/
def drive (s : State) (b : Option Bool) : Option Bool :=
  if s.boot.done || (s.boot.running && decide (7 ≤ s.boot.step)) then b else none

/-- A falling edge: updates, and TDO in the shift states. -/
def tapFall (s : State) : State :=
  let t := s.tap
  match t.st with
  | .reset => { s with tap := { t with ir := [], tdo := none } }
  | .shDR => { s with tap := { t with tdo := drive s t.dr.getLast? } }
  | .shIR => { s with tap := { t with tdo := drive s t.irShift.getLast? } }
  | .upDR => { s with tap := { t with latch := updLatch s, tdo := none } }
  | .upIR => { s with tap := { t with
      ir := (List.range 4).foldl (fun m h => sset 0xFF m h (shiftedIr t.irShift h)) t.ir, tdo := none } }
  | _ => { s with tap := { t with tdo := none } }

/-- One edge of TCK; TRST_N low resets the controller. [DEDUCED log 89] -/
def tckEdge (rising tms tdi trstn : Bool) (s : State) : State :=
  if !trstn then { s with tap := { s.tap with st := .reset, ir := [], tdo := none } }
  else if rising then tapRise tms tdi s else tapFall s

/-- TCK_EDGE (R643). -/
def execTckEdge (rising tms tdi trstn : Bool) (s : State) : Host.Outcome State Fault Refusal :=
  answer s (some (tckEdge rising tms tdi trstn s))

end Sys2Proof.Machine
end

