-- ==== Sys2Proof/Machine/Tensor.lean ====
section
/-! DEFINITION. The tensor instructions, classes 0xA and 0xB (R163-R172). -/
namespace Sys2Proof.Machine

/-- TMV (R166): TMV reads 32 weight bytes and starts two dot-product updates of one accumulator. -/
def execTmv (x : Fin 1104) (y : Fin 560) (t : Nat) (s : State) : Host.Outcome State Fault Refusal :=
  answer s (issueOp .tmv x y t s)

/-- TMMA (R167): TMMA starts an 8×8 tile multiply-accumulate into an accumulator, holding the array. -/
def execTmma (x : Fin 1104) (y : Fin 560) (t : Nat) (s : State) : Host.Outcome State Fault Refusal :=
  answer s (issueOp .tmma x y t s)

/-- TLDX (R168): TLDX loads the x latch and its scale. -/
def execTldx (x : Fin 1104) (y : Fin 560) (t : Nat) (s : State) : Host.Outcome State Fault Refusal :=
  answer s (issueOp .tldx x y t s)

/-- TSCL (R168): TSCL loads 32 bytes of the scale file. -/
def execTscl (x : Fin 1104) (y : Fin 560) (t : Nat) (s : State) : Host.Outcome State Fault Refusal :=
  answer s (issueOp .tscl x y t s)

/-- TDRV (R169): TDRV converts accumulator rows into a vector register, clearing them if CLR is set. -/
def execTdrv (x : Fin 1104) (y : Fin 560) (t : Nat) (s : State) : Host.Outcome State Fault Refusal :=
  answer s (issueOp .tdrv x y t s)

/-- TZERO (R170): TZERO clears an accumulator. -/
def execTzero (x : Fin 1104) (y : Fin 560) (t : Nat) (s : State) : Host.Outcome State Fault Refusal :=
  answer s (issueOp .tzero x y t s)

/-- TSETR (R170): TSETR writes one accumulator row from a vector register. -/
def execTsetr (x : Fin 1104) (y : Fin 560) (t : Nat) (s : State) : Host.Outcome State Fault Refusal :=
  answer s (issueOp .tsetr x y t s)

end Sys2Proof.Machine
end

