-- ==== Sys2Proof/Machine/VecConv.lean ====
section
/-! DEFINITION. Conversion, reduction and lanes, class 0x8 (R153-R157). -/
namespace Sys2Proof.Machine

/-- VCVT (R154): VCVT converts one group of A into one group of D. -/
def execVcvt (x : Fin 1104) (y : Fin 560) (t : Nat) (s : State) : Host.Outcome State Fault Refusal :=
  answer s (issueOp .vcvt x y t s)

/-- VCVT4 (R155): VCVT4 converts 32 FP32 elements into one FP4 block and its scale byte. -/
def execVcvt4 (x : Fin 1104) (y : Fin 560) (t : Nat) (s : State) : Host.Outcome State Fault Refusal :=
  answer s (issueOp .vcvt4 x y t s)

/-- VRED (R156): VRED reduces all elements of A into a g register. -/
def execVred (x : Fin 1104) (y : Fin 560) (t : Nat) (s : State) : Host.Outcome State Fault Refusal :=
  answer s (issueOp .vred x y t s)

/-- VPERM (R157): VPERM permutes lanes of A by g[B]. -/
def execVperm (x : Fin 1104) (y : Fin 560) (t : Nat) (s : State) : Host.Outcome State Fault Refusal :=
  answer s (issueOp .vperm x y t s)

/-- VEXT (R157): VEXT copies one lane of A into a g register. -/
def execVext (x : Fin 1104) (y : Fin 560) (t : Nat) (s : State) : Host.Outcome State Fault Refusal :=
  answer s (issueOp .vext x y t s)

/-- VLANE (R157): VLANE writes one lane of D from B. -/
def execVlane (x : Fin 1104) (y : Fin 560) (t : Nat) (s : State) : Host.Outcome State Fault Refusal :=
  answer s (issueOp .vlane x y t s)

/-- VTEST (R157): VTEST sets p[PD] if A AND B has any bit set. -/
def execVtest (x : Fin 1104) (y : Fin 560) (t : Nat) (s : State) : Host.Outcome State Fault Refusal :=
  answer s (issueOp .vtest x y t s)

end Sys2Proof.Machine
end

