-- ==== Sys2Proof/Machine/VecFloat.lean ====
section
/-! DEFINITION. The floating-point vector instructions of class 0x6 (R148-R150). -/
namespace Sys2Proof.Machine

/-- VFADD (R149): VFADD adds elements under IEEE rules with one rounding. -/
def execVfadd (x : Fin 1104) (y : Fin 560) (t : Nat) (s : State) : Host.Outcome State Fault Refusal :=
  answer s (issueOp .vfadd x y t s)

/-- VFSUB (R149): VFSUB subtracts elements. -/
def execVfsub (x : Fin 1104) (y : Fin 560) (t : Nat) (s : State) : Host.Outcome State Fault Refusal :=
  answer s (issueOp .vfsub x y t s)

/-- VFMUL (R149): VFMUL multiplies elements. -/
def execVfmul (x : Fin 1104) (y : Fin 560) (t : Nat) (s : State) : Host.Outcome State Fault Refusal :=
  answer s (issueOp .vfmul x y t s)

/-- VFMA (R149): VFMA computes A × B + D with one rounding. -/
def execVfma (x : Fin 1104) (y : Fin 560) (t : Nat) (s : State) : Host.Outcome State Fault Refusal :=
  answer s (issueOp .vfma x y t s)

/-- VFMIN (R149): VFMIN writes element minima. -/
def execVfmin (x : Fin 1104) (y : Fin 560) (t : Nat) (s : State) : Host.Outcome State Fault Refusal :=
  answer s (issueOp .vfmin x y t s)

/-- VFMAX (R149): VFMAX writes element maxima. -/
def execVfmax (x : Fin 1104) (y : Fin 560) (t : Nat) (s : State) : Host.Outcome State Fault Refusal :=
  answer s (issueOp .vfmax x y t s)

/-- VFABS (R149): VFABS clears each element's sign. -/
def execVfabs (x : Fin 1104) (y : Fin 560) (t : Nat) (s : State) : Host.Outcome State Fault Refusal :=
  answer s (issueOp .vfabs x y t s)

/-- VFNEG (R149): VFNEG inverts each element's sign. -/
def execVfneg (x : Fin 1104) (y : Fin 560) (t : Nat) (s : State) : Host.Outcome State Fault Refusal :=
  answer s (issueOp .vfneg x y t s)

/-- VFCMPEQ (R149): VFCMPEQ writes all ones where A = B. -/
def execVfcmpeq (x : Fin 1104) (y : Fin 560) (t : Nat) (s : State) : Host.Outcome State Fault Refusal :=
  answer s (issueOp .vfcmpeq x y t s)

/-- VFCMPLT (R149): VFCMPLT writes all ones where A < B. -/
def execVfcmplt (x : Fin 1104) (y : Fin 560) (t : Nat) (s : State) : Host.Outcome State Fault Refusal :=
  answer s (issueOp .vfcmplt x y t s)

/-- VFCMPLE (R149): VFCMPLE writes all ones where A ≤ B. -/
def execVfcmple (x : Fin 1104) (y : Fin 560) (t : Nat) (s : State) : Host.Outcome State Fault Refusal :=
  answer s (issueOp .vfcmple x y t s)

/-- VEXP2 (R150): VEXP2 writes 2^A rounded once into FP32. -/
def execVexp2 (x : Fin 1104) (y : Fin 560) (t : Nat) (s : State) : Host.Outcome State Fault Refusal :=
  answer s (issueOp .vexp2 x y t s)

/-- VLOG2 (R150): VLOG2 writes log2 A rounded once. -/
def execVlog2 (x : Fin 1104) (y : Fin 560) (t : Nat) (s : State) : Host.Outcome State Fault Refusal :=
  answer s (issueOp .vlog2 x y t s)

/-- VRCP (R150): VRCP writes 1/A rounded once. -/
def execVrcp (x : Fin 1104) (y : Fin 560) (t : Nat) (s : State) : Host.Outcome State Fault Refusal :=
  answer s (issueOp .vrcp x y t s)

/-- VRSQRT (R150): VRSQRT writes 1/√A rounded once. -/
def execVrsqrt (x : Fin 1104) (y : Fin 560) (t : Nat) (s : State) : Host.Outcome State Fault Refusal :=
  answer s (issueOp .vrsqrt x y t s)

end Sys2Proof.Machine
end

