-- ==== Sys2Proof/Machine/VecInt.lean ====
section
/-! DEFINITION. The integer and bitwise vector instructions of class 0x7 (R151, R152). -/
namespace Sys2Proof.Machine

/-- VMOV (R151): VMOV copies a whole vector. -/
def execVmov (x : Fin 1104) (y : Fin 560) (t : Nat) (s : State) : Host.Outcome State Fault Refusal :=
  answer s (issueOp .vmov x y t s)

/-- VADD (R152): VADD adds integer elements. -/
def execVadd (x : Fin 1104) (y : Fin 560) (t : Nat) (s : State) : Host.Outcome State Fault Refusal :=
  answer s (issueOp .vadd x y t s)

/-- VSUB (R152): VSUB subtracts integer elements. -/
def execVsub (x : Fin 1104) (y : Fin 560) (t : Nat) (s : State) : Host.Outcome State Fault Refusal :=
  answer s (issueOp .vsub x y t s)

/-- VMUL (R152): VMUL multiplies integer elements. -/
def execVmul (x : Fin 1104) (y : Fin 560) (t : Nat) (s : State) : Host.Outcome State Fault Refusal :=
  answer s (issueOp .vmul x y t s)

/-- VAND (R151): VAND combines vectors by AND. -/
def execVand (x : Fin 1104) (y : Fin 560) (t : Nat) (s : State) : Host.Outcome State Fault Refusal :=
  answer s (issueOp .vand x y t s)

/-- VOR (R151): VOR combines vectors by OR. -/
def execVor (x : Fin 1104) (y : Fin 560) (t : Nat) (s : State) : Host.Outcome State Fault Refusal :=
  answer s (issueOp .vor x y t s)

/-- VXOR (R151): VXOR combines vectors by XOR. -/
def execVxor (x : Fin 1104) (y : Fin 560) (t : Nat) (s : State) : Host.Outcome State Fault Refusal :=
  answer s (issueOp .vxor x y t s)

/-- VANDN (R151): VANDN combines vectors by AND NOT. -/
def execVandn (x : Fin 1104) (y : Fin 560) (t : Nat) (s : State) : Host.Outcome State Fault Refusal :=
  answer s (issueOp .vandn x y t s)

/-- VSHL (R152): VSHL shifts integer elements left. -/
def execVshl (x : Fin 1104) (y : Fin 560) (t : Nat) (s : State) : Host.Outcome State Fault Refusal :=
  answer s (issueOp .vshl x y t s)

/-- VSHR (R152): VSHR shifts integer elements right with zeros. -/
def execVshr (x : Fin 1104) (y : Fin 560) (t : Nat) (s : State) : Host.Outcome State Fault Refusal :=
  answer s (issueOp .vshr x y t s)

/-- VSRA (R152): VSRA shifts integer elements right with sign. -/
def execVsra (x : Fin 1104) (y : Fin 560) (t : Nat) (s : State) : Host.Outcome State Fault Refusal :=
  answer s (issueOp .vsra x y t s)

/-- VMIN (R152): VMIN writes integer element minima. -/
def execVmin (x : Fin 1104) (y : Fin 560) (t : Nat) (s : State) : Host.Outcome State Fault Refusal :=
  answer s (issueOp .vmin x y t s)

/-- VMAX (R152): VMAX writes integer element maxima. -/
def execVmax (x : Fin 1104) (y : Fin 560) (t : Nat) (s : State) : Host.Outcome State Fault Refusal :=
  answer s (issueOp .vmax x y t s)

/-- VCMPEQ (R151): VCMPEQ writes all ones where integer elements are equal. -/
def execVcmpeq (x : Fin 1104) (y : Fin 560) (t : Nat) (s : State) : Host.Outcome State Fault Refusal :=
  answer s (issueOp .vcmpeq x y t s)

/-- VCMPLT (R152): VCMPLT writes all ones where A < B. -/
def execVcmplt (x : Fin 1104) (y : Fin 560) (t : Nat) (s : State) : Host.Outcome State Fault Refusal :=
  answer s (issueOp .vcmplt x y t s)

/-- VSEL (R152): VSEL selects bits of A or B by v[VM]. -/
def execVsel (x : Fin 1104) (y : Fin 560) (t : Nat) (s : State) : Host.Outcome State Fault Refusal :=
  answer s (issueOp .vsel x y t s)

end Sys2Proof.Machine
end

