-- ==== Sys2Proof/Machine/VecMem.lean ====
section
/-! DEFINITION. Vector memory and messages, class 0x9 (R158-R161). -/
namespace Sys2Proof.Machine

/-- VLD (R159): VLD reads 32 bytes of SRAM into a vector register. -/
def execVld (x : Fin 1104) (y : Fin 560) (t : Nat) (s : State) : Host.Outcome State Fault Refusal :=
  answer s (issueOp .vld x y t s)

/-- VST (R159): VST writes a vector register to 32 bytes of SRAM. -/
def execVst (x : Fin 1104) (y : Fin 560) (t : Nat) (s : State) : Host.Outcome State Fault Refusal :=
  answer s (issueOp .vst x y t s)

/-- VINS (R160): VINS pops 1, 2 or 4 port entries into lanes of D. -/
def execVins (x : Fin 1104) (y : Fin 560) (t : Nat) (s : State) : Host.Outcome State Fault Refusal :=
  answer s (issueOp .vins x y t s)

/-- VSEND (R161): VSEND sends one or two lanes of A as flits on a slot. -/
def execVsend (x : Fin 1104) (y : Fin 560) (t : Nat) (s : State) : Host.Outcome State Fault Refusal :=
  answer s (issueOp .vsend x y t s)

end Sys2Proof.Machine
end

