-- ==== Sys2Proof/Machine/Dispatch.lean ====
section
/-! DEFINITION. The dispatch: one arm per command. -/
namespace Sys2Proof.Machine

def exec (i : Instr) (s : State) : Host.Outcome State Fault Refusal :=
  match i with
  | .registerWrite f addr wide v poison => Sys2Proof.Machine.execRegisterWrite f addr wide v poison s
  | .counterLoRead f addr wide => Sys2Proof.Machine.execCounterLoRead f addr wide s
  | .brkPmemLoRead f ap => Sys2Proof.Machine.execBrkPmemLoRead f ap s
  | .brkPmemHiRead f ap => Sys2Proof.Machine.execBrkPmemHiRead f ap s
  | .brkPmemLoWrite f ap v => Sys2Proof.Machine.execBrkPmemLoWrite f ap v s
  | .brkPmemHiWrite f ap v => Sys2Proof.Machine.execBrkPmemHiWrite f ap v s
  | .brkSramDataRead f ap t => Sys2Proof.Machine.execBrkSramDataRead f ap t s
  | .brkSramDataWrite f ap t v => Sys2Proof.Machine.execBrkSramDataWrite f ap t v s
  | .identGridSel f v => Sys2Proof.Machine.execIdentGridSel f v s
  | .brkRtSel f ap v => Sys2Proof.Machine.execBrkRtSel f ap v s
  | .brkStSel f ap v => Sys2Proof.Machine.execBrkStSel f ap v s
  | .brkEqSel f ap v => Sys2Proof.Machine.execBrkEqSel f ap v s
  | .brkCcSel f ap v => Sys2Proof.Machine.execBrkCcSel f ap v s
  | .brkRptPosRead f ap n => Sys2Proof.Machine.execBrkRptPosRead f ap n s
  | .brdBarSel f b v => Sys2Proof.Machine.execBrdBarSel f b v s
  | .medFltSel f m b v => Sys2Proof.Machine.execMedFltSel f m b v s
  | .rimPathSel f v => Sys2Proof.Machine.execRimPathSel f v s
  | .clkFieldSel f v => Sys2Proof.Machine.execClkFieldSel f v s
  | .pwrFieldSel f v => Sys2Proof.Machine.execPwrFieldSel f v s
  | .faultQuarSel f v => Sys2Proof.Machine.execFaultQuarSel f v s
  | .stesyLsel f h k v => Sys2Proof.Machine.execStesyLsel f h k v s
  | .stesyCsel f h v => Sys2Proof.Machine.execStesyCsel f h v s
  | .stesyFsel f h v => Sys2Proof.Machine.execStesyFsel f h v s
  | .gwSsel f h c v => Sys2Proof.Machine.execGwSsel f h c v s
  | .tilewinXyWrite f v => Sys2Proof.Machine.execTilewinXyWrite f v s
  | .slateWindowRead f ofs => Sys2Proof.Machine.execSlateWindowRead f ofs s
  | .medCplRead f m b => Sys2Proof.Machine.execMedCplRead f m b s
  | .dispatch x y t => Sys2Proof.Machine.execDispatch x y t s
  | .mov x y t => Sys2Proof.Machine.execMov x y t s
  | .add x y t => Sys2Proof.Machine.execAdd x y t s
  | .sub x y t => Sys2Proof.Machine.execSub x y t s
  | .mul x y t => Sys2Proof.Machine.execMul x y t s
  | .mulh x y t => Sys2Proof.Machine.execMulh x y t s
  | .mulhu x y t => Sys2Proof.Machine.execMulhu x y t s
  | .and x y t => Sys2Proof.Machine.execAnd x y t s
  | .or x y t => Sys2Proof.Machine.execOr x y t s
  | .xor x y t => Sys2Proof.Machine.execXor x y t s
  | .andn x y t => Sys2Proof.Machine.execAndn x y t s
  | .shl x y t => Sys2Proof.Machine.execShl x y t s
  | .shr x y t => Sys2Proof.Machine.execShr x y t s
  | .sra x y t => Sys2Proof.Machine.execSra x y t s
  | .rotl x y t => Sys2Proof.Machine.execRotl x y t s
  | .min x y t => Sys2Proof.Machine.execMin x y t s
  | .max x y t => Sys2Proof.Machine.execMax x y t s
  | .minu x y t => Sys2Proof.Machine.execMinu x y t s
  | .maxu x y t => Sys2Proof.Machine.execMaxu x y t s
  | .clz x y t => Sys2Proof.Machine.execClz x y t s
  | .popc x y t => Sys2Proof.Machine.execPopc x y t s
  | .bfx x y t => Sys2Proof.Machine.execBfx x y t s
  | .bfi x y t => Sys2Proof.Machine.execBfi x y t s
  | .sel x y t => Sys2Proof.Machine.execSel x y t s
  | .cmpeq x y t => Sys2Proof.Machine.execCmpeq x y t s
  | .cmpne x y t => Sys2Proof.Machine.execCmpne x y t s
  | .cmplt x y t => Sys2Proof.Machine.execCmplt x y t s
  | .cmple x y t => Sys2Proof.Machine.execCmple x y t s
  | .cmpltu x y t => Sys2Proof.Machine.execCmpltu x y t s
  | .cmpleu x y t => Sys2Proof.Machine.execCmpleu x y t s
  | .tstnz x y t => Sys2Proof.Machine.execTstnz x y t s
  | .pand x y t => Sys2Proof.Machine.execPand x y t s
  | .por x y t => Sys2Proof.Machine.execPor x y t s
  | .pxor x y t => Sys2Proof.Machine.execPxor x y t s
  | .pnull x y t => Sys2Proof.Machine.execPnull x y t s
  | .pget x y t => Sys2Proof.Machine.execPget x y t s
  | .pput x y t => Sys2Proof.Machine.execPput x y t s
  | .nop x y t => Sys2Proof.Machine.execNop x y t s
  | .repi x y t => Sys2Proof.Machine.execRepi x y t s
  | .repg x y t => Sys2Proof.Machine.execRepg x y t s
  | .mark x y t => Sys2Proof.Machine.execMark x y t s
  | .halt x y t => Sys2Proof.Machine.execHalt x y t s
  | .ldw x y t => Sys2Proof.Machine.execLdw x y t s
  | .stw x y t => Sys2Proof.Machine.execStw x y t s
  | .send x y t => Sys2Proof.Machine.execSend x y t s
  | .sendp x y t => Sys2Proof.Machine.execSendp x y t s
  | .arrive x y t => Sys2Proof.Machine.execArrive x y t s
  | .waitb x y t => Sys2Proof.Machine.execWaitb x y t s
  | .castle x y t => Sys2Proof.Machine.execCastle x y t s
  | .vfadd x y t => Sys2Proof.Machine.execVfadd x y t s
  | .vfsub x y t => Sys2Proof.Machine.execVfsub x y t s
  | .vfmul x y t => Sys2Proof.Machine.execVfmul x y t s
  | .vfma x y t => Sys2Proof.Machine.execVfma x y t s
  | .vfmin x y t => Sys2Proof.Machine.execVfmin x y t s
  | .vfmax x y t => Sys2Proof.Machine.execVfmax x y t s
  | .vfabs x y t => Sys2Proof.Machine.execVfabs x y t s
  | .vfneg x y t => Sys2Proof.Machine.execVfneg x y t s
  | .vfcmpeq x y t => Sys2Proof.Machine.execVfcmpeq x y t s
  | .vfcmplt x y t => Sys2Proof.Machine.execVfcmplt x y t s
  | .vfcmple x y t => Sys2Proof.Machine.execVfcmple x y t s
  | .vexp2 x y t => Sys2Proof.Machine.execVexp2 x y t s
  | .vlog2 x y t => Sys2Proof.Machine.execVlog2 x y t s
  | .vrcp x y t => Sys2Proof.Machine.execVrcp x y t s
  | .vrsqrt x y t => Sys2Proof.Machine.execVrsqrt x y t s
  | .vmov x y t => Sys2Proof.Machine.execVmov x y t s
  | .vadd x y t => Sys2Proof.Machine.execVadd x y t s
  | .vsub x y t => Sys2Proof.Machine.execVsub x y t s
  | .vmul x y t => Sys2Proof.Machine.execVmul x y t s
  | .vand x y t => Sys2Proof.Machine.execVand x y t s
  | .vor x y t => Sys2Proof.Machine.execVor x y t s
  | .vxor x y t => Sys2Proof.Machine.execVxor x y t s
  | .vandn x y t => Sys2Proof.Machine.execVandn x y t s
  | .vshl x y t => Sys2Proof.Machine.execVshl x y t s
  | .vshr x y t => Sys2Proof.Machine.execVshr x y t s
  | .vsra x y t => Sys2Proof.Machine.execVsra x y t s
  | .vmin x y t => Sys2Proof.Machine.execVmin x y t s
  | .vmax x y t => Sys2Proof.Machine.execVmax x y t s
  | .vcmpeq x y t => Sys2Proof.Machine.execVcmpeq x y t s
  | .vcmplt x y t => Sys2Proof.Machine.execVcmplt x y t s
  | .vsel x y t => Sys2Proof.Machine.execVsel x y t s
  | .vcvt x y t => Sys2Proof.Machine.execVcvt x y t s
  | .vcvt4 x y t => Sys2Proof.Machine.execVcvt4 x y t s
  | .vred x y t => Sys2Proof.Machine.execVred x y t s
  | .vperm x y t => Sys2Proof.Machine.execVperm x y t s
  | .vext x y t => Sys2Proof.Machine.execVext x y t s
  | .vlane x y t => Sys2Proof.Machine.execVlane x y t s
  | .vtest x y t => Sys2Proof.Machine.execVtest x y t s
  | .vld x y t => Sys2Proof.Machine.execVld x y t s
  | .vst x y t => Sys2Proof.Machine.execVst x y t s
  | .vins x y t => Sys2Proof.Machine.execVins x y t s
  | .vsend x y t => Sys2Proof.Machine.execVsend x y t s
  | .tmv x y t => Sys2Proof.Machine.execTmv x y t s
  | .tmma x y t => Sys2Proof.Machine.execTmma x y t s
  | .tldx x y t => Sys2Proof.Machine.execTldx x y t s
  | .tscl x y t => Sys2Proof.Machine.execTscl x y t s
  | .tdrv x y t => Sys2Proof.Machine.execTdrv x y t s
  | .tzero x y t => Sys2Proof.Machine.execTzero x y t s
  | .tsetr x y t => Sys2Proof.Machine.execTsetr x y t s
  | .accumUpdateComplete x y t => Sys2Proof.Machine.execAccumUpdateComplete x y t s
  | .sbase x y t => Sys2Proof.Machine.execSbase x y t s
  | .sloop x y t => Sys2Proof.Machine.execSloop x y t s
  | .sstride x y t => Sys2Proof.Machine.execSstride x y t s
  | .sbank x y t => Sys2Proof.Machine.execSbank x y t s
  | .emit x y t => Sys2Proof.Machine.execEmit x y t s
  | .land x y t => Sys2Proof.Machine.execLand x y t s
  | .sgather x y t => Sys2Proof.Machine.execSgather x y t s
  | .sfar x y t => Sys2Proof.Machine.execSfar x y t s
  | .sfarFlit x y t k => Sys2Proof.Machine.execSfarFlit x y t k s
  | .sgate x y t => Sys2Proof.Machine.execSgate x y t s
  | .sstop x y t => Sys2Proof.Machine.execSstop x y t s
  | .fillAction x y t k => Sys2Proof.Machine.execFillAction x y t k s
  | .flitForward x y t e0 e1 => Sys2Proof.Machine.execFlitForward x y t e0 e1 s
  | .creditReturn x y t e => Sys2Proof.Machine.execCreditReturn x y t e s
  | .tieTransferSend x y d t => Sys2Proof.Machine.execTieTransferSend x y d t s
  | .tieTransferReceive x y d err => Sys2Proof.Machine.execTieTransferReceive x y d err s
  | .tieReturnWord x y d med t e => Sys2Proof.Machine.execTieReturnWord x y d med t e s
  | .tieLandingMove x y d sl t => Sys2Proof.Machine.execTieLandingMove x y d sl t s
  | .edgeFlitAccept x south lane err now => Sys2Proof.Machine.execEdgeFlitAccept x south lane err now s
  | .edgeInjectRelease x south lane t => Sys2Proof.Machine.execEdgeInjectRelease x south lane t s
  | .edgeLandingMove x south sl t => Sys2Proof.Machine.execEdgeLandingMove x south sl t s
  | .recordAccept m => Sys2Proof.Machine.execRecordAccept m s
  | .engineBeat m e => Sys2Proof.Machine.execEngineBeat m e s
  | .completionIssue m e b slot => Sys2Proof.Machine.execCompletionIssue m e b slot s
  | .descGo f m b v => Sys2Proof.Machine.execDescGo f m b v s
  | .resume f m b v => Sys2Proof.Machine.execResume f m b v s
  | .ptCommit f m b v => Sys2Proof.Machine.execPtCommit f m b v s
  | .egressForward x south lane slot => Sys2Proof.Machine.execEgressForward x south lane slot s
  | .stesyEgressForward x south lane slot => Sys2Proof.Machine.execStesyEgressForward x south lane slot s
  | .waferWindowWrite mst m ofs recs => Sys2Proof.Machine.execWaferWindowWrite mst m ofs recs s
  | .dramWindowAccess mst m ofs wr len => Sys2Proof.Machine.execDramWindowAccess mst m ofs wr len s
  | .scrub m word => Sys2Proof.Machine.execScrub m word s
  | .engineQuiescent m e b => Sys2Proof.Machine.execEngineQuiescent m e b s
  | .rimBurst mst tgt ctx ofs beats be wr waiting e => Sys2Proof.Machine.execRimBurst mst tgt ctx ofs beats be wr waiting e s
  | .rimResponse tgt mst e => Sys2Proof.Machine.execRimResponse tgt mst e s
  | .eqTake x y t => Sys2Proof.Machine.execEqTake x y t s
  | .eqNotice x y t q => Sys2Proof.Machine.execEqNotice x y t q s
  | .ringReplay x y t q => Sys2Proof.Machine.execRingReplay x y t q s
  | .scatterBegin x y t => Sys2Proof.Machine.execScatterBegin x y t s
  | .scatterFlit x y t => Sys2Proof.Machine.execScatterFlit x y t s
  | .arrivalCounted b n t => Sys2Proof.Machine.execArrivalCounted b n t s
  | .releaseReceived x y k t => Sys2Proof.Machine.execReleaseReceived x y k t s
  | .stalemateDeclare b => Sys2Proof.Machine.execStalemateDeclare b s
  | .stalemateListReady b => Sys2Proof.Machine.execStalemateListReady b s
  | .timeCtlSet f v => Sys2Proof.Machine.execTimeCtlSet f v s
  | .timeSetApply => Sys2Proof.Machine.execTimeSetApply s
  | .scheduleArm f ent v => Sys2Proof.Machine.execScheduleArm f ent v s
  | .scheduleCancel f ent v => Sys2Proof.Machine.execScheduleCancel f ent v s
  | .boardStart b e => Sys2Proof.Machine.execBoardStart b e s
  | .streamStart b e => Sys2Proof.Machine.execStreamStart b e s
  | .barrierGate b e => Sys2Proof.Machine.execBarrierGate b e s
  | .opChange e => Sys2Proof.Machine.execOpChange e s
  | .load f b => Sys2Proof.Machine.execLoad f b s
  | .loadCheckPassEnd b list img pmap => Sys2Proof.Machine.execLoadCheckPassEnd b list img pmap s
  | .loadWritePassEnd b img => Sys2Proof.Machine.execLoadWritePassEnd b img s
  | .start f b => Sys2Proof.Machine.execStart f b s
  | .fieldStart b fld t => Sys2Proof.Machine.execFieldStart b fld t s
  | .drain f b => Sys2Proof.Machine.execDrain f b s
  | .drainHard f b => Sys2Proof.Machine.execDrainHard f b s
  | .drainInputsEnd b => Sys2Proof.Machine.execDrainInputsEnd b s
  | .quiescence b => Sys2Proof.Machine.execQuiescence b s
  | .drainLimit b => Sys2Proof.Machine.execDrainLimit b s
  | .reset f b => Sys2Proof.Machine.execReset f b s
  | .resetComplete b => Sys2Proof.Machine.execResetComplete b s
  | .faultBoardReset b => Sys2Proof.Machine.execFaultBoardReset b s
  | .check f b => Sys2Proof.Machine.execCheck f b s
  | .checkEnd b rpt => Sys2Proof.Machine.execCheckEnd b rpt s
  | .txtDb f h c v => Sys2Proof.Machine.execTxtDb f h c v s
  | .cplDb f h c v => Sys2Proof.Machine.execCplDb f h c v s
  | .ringEnable f h c v => Sys2Proof.Machine.execRingEnable f h c v s
  | .ringDisable f h c v => Sys2Proof.Machine.execRingDisable f h c v s
  | .ringEntryFetched h c entry data => Sys2Proof.Machine.execRingEntryFetched h c entry data s
  | .encodePretoken h c => Sys2Proof.Machine.execEncodePretoken h c s
  | .admitRequest h c => Sys2Proof.Machine.execAdmitRequest h c s
  | .issueWord h c => Sys2Proof.Machine.execIssueWord h c s
  | .maskFlitsWrite h c => Sys2Proof.Machine.execMaskFlitsWrite h c s
  | .returnTake b => Sys2Proof.Machine.execReturnTake b s
  | .finalCompletion h c => Sys2Proof.Machine.execFinalCompletion h c s
  | .cancel f h c v => Sys2Proof.Machine.execCancel f h c v s
  | .holdoffExpiry h c => Sys2Proof.Machine.execHoldoffExpiry h c s
  | .flrVf h k => Sys2Proof.Machine.execFlrVf h k s
  | .flrPf h => Sys2Proof.Machine.execFlrPf h s
  | .perstAssert h => Sys2Proof.Machine.execPerstAssert h s
  | .hotReset h => Sys2Proof.Machine.execHotReset h s
  | .linkDown h => Sys2Proof.Machine.execLinkDown h s
  | .busMasterEnable f on => Sys2Proof.Machine.execBusMasterEnable f on s
  | .unsupportedRequest f => Sys2Proof.Machine.execUnsupportedRequest f s
  | .dmaReadFailed cons => Sys2Proof.Machine.execDmaReadFailed cons s
  | .slateOpen f v => Sys2Proof.Machine.execSlateOpen f v s
  | .slateErase f v => Sys2Proof.Machine.execSlateErase f v s
  | .slateProgram f v data => Sys2Proof.Machine.execSlateProgram f v data s
  | .slateClose f v => Sys2Proof.Machine.execSlateClose f v s
  | .slateAbort f v => Sys2Proof.Machine.execSlateAbort f v s
  | .slateJournal f v => Sys2Proof.Machine.execSlateJournal f v s
  | .pageProgramDone ok => Sys2Proof.Machine.execPageProgramDone ok s
  | .sectorEraseDone ok => Sys2Proof.Machine.execSectorEraseDone ok s
  | .defectCommit => Sys2Proof.Machine.execDefectCommit s
  | .cardRemoval => Sys2Proof.Machine.execCardRemoval s
  | .coldStart => Sys2Proof.Machine.execColdStart s
  | .moduleReset => Sys2Proof.Machine.execModuleReset s
  | .powerLoss => Sys2Proof.Machine.execPowerLoss s
  | .restart f v => Sys2Proof.Machine.execRestart f v s
  | .vigilLoss => Sys2Proof.Machine.execVigilLoss s
  | .vstbyLoss => Sys2Proof.Machine.execVstbyLoss s
  | .vstbyReturn => Sys2Proof.Machine.execVstbyReturn s
  | .boot => Sys2Proof.Machine.execBoot s
  | .bootStepEnd ok => Sys2Proof.Machine.execBootStepEnd ok s
  | .flowOkRise => Sys2Proof.Machine.execFlowOkRise s
  | .cellCheck mv => Sys2Proof.Machine.execCellCheck mv s
  | .refGood r => Sys2Proof.Machine.execRefGood r s
  | .refLost r => Sys2Proof.Machine.execRefLost r s
  | .refSwitchRequest f v => Sys2Proof.Machine.execRefSwitchRequest f v s
  | .switchClean => Sys2Proof.Machine.execSwitchClean s
  | .switchForce edges => Sys2Proof.Machine.execSwitchForce edges s
  | .meshLocked fld => Sys2Proof.Machine.execMeshLocked fld s
  | .rephaseEnd fld => Sys2Proof.Machine.execRephaseEnd fld s
  | .governorLoop p pf => Sys2Proof.Machine.execGovernorLoop p pf s
  | .targetWrite f v => Sys2Proof.Machine.execTargetWrite f v s
  | .mStep fld => Sys2Proof.Machine.execMStep fld s
  | .voltageRead fld mv => Sys2Proof.Machine.execVoltageRead fld mv s
  | .confirmTimeout fld => Sys2Proof.Machine.execConfirmTimeout fld s
  | .droopTrigger fld => Sys2Proof.Machine.execDroopTrigger fld s
  | .stretchStep fld => Sys2Proof.Machine.execStretchStep fld s
  | .thermalSample sens tc => Sys2Proof.Machine.execThermalSample sens tc s
  | .flowOkLow => Sys2Proof.Machine.execFlowOkLow s
  | .railAlert => Sys2Proof.Machine.execRailAlert s
  | .backstop w => Sys2Proof.Machine.execBackstop w s
  | .stewardGo f v => Sys2Proof.Machine.execStewardGo f v s
  | .watchdogExpiry => Sys2Proof.Machine.execWatchdogExpiry s
  | .faultSteward => Sys2Proof.Machine.execFaultSteward s
  | .stewardReturn => Sys2Proof.Machine.execStewardReturn s
  | .floorEngage => Sys2Proof.Machine.execFloorEngage s
  | .coolantRequest ack => Sys2Proof.Machine.execCoolantRequest ack s
  | .trayRead flow tin => Sys2Proof.Machine.execTrayRead flow tin s
  | .subIntervalEnd => Sys2Proof.Machine.execSubIntervalEnd s
  | .energyPublish meas edge => Sys2Proof.Machine.execEnergyPublish meas edge s
  | .calibration cur => Sys2Proof.Machine.execCalibration cur s
  | .alignLock h k => Sys2Proof.Machine.execAlignLock h k s
  | .helloSend h k => Sys2Proof.Machine.execHelloSend h k s
  | .helloReceive h k u fec first => Sys2Proof.Machine.execHelloReceive h k u fec first s
  | .retrain h k => Sys2Proof.Machine.execRetrain h k s
  | .retrainTimeout h k => Sys2Proof.Machine.execRetrainTimeout h k s
  | .unitSend h k => Sys2Proof.Machine.execUnitSend h k s
  | .dataUnitReceive h k u fec first => Sys2Proof.Machine.execDataUnitReceive h k u fec first s
  | .linkUnitReceive h k u fec first => Sys2Proof.Machine.execLinkUnitReceive h k u fec first s
  | .flitsSend b slot => Sys2Proof.Machine.execFlitsSend b slot s
  | .creditUnitSend b slot => Sys2Proof.Machine.execCreditUnitSend b slot s
  | .injectorWrite b slot => Sys2Proof.Machine.execInjectorWrite b slot s
  | .loadedNotice b => Sys2Proof.Machine.execLoadedNotice b s
  | .recordNotice b => Sys2Proof.Machine.execRecordNotice b s
  | .startNotice b => Sys2Proof.Machine.execStartNotice b s
  | .armNotice b => Sys2Proof.Machine.execArmNotice b s
  | .drainNotice b => Sys2Proof.Machine.execDrainNotice b s
  | .quietNotice b => Sys2Proof.Machine.execQuietNotice b s
  | .stalemateNotice b => Sys2Proof.Machine.execStalemateNotice b s
  | .refuseNotice b => Sys2Proof.Machine.execRefuseNotice b s
  | .sidebandPoll fld silent => Sys2Proof.Machine.execSidebandPoll fld silent s
  | .faultReport => Sys2Proof.Machine.execFaultReport s
  | .timestampTick => Sys2Proof.Machine.execTimestampTick s
  | .vigilOscillatorPeriod => Sys2Proof.Machine.execVigilOscillatorPeriod s
  | .stallTcyc x y t q => Sys2Proof.Machine.execStallTcyc x y t q s
  | .stillTcyc b => Sys2Proof.Machine.execStillTcyc b s
  | .resultRelease x y t => Sys2Proof.Machine.execResultRelease x y t s
  | .cardInsertion card sfdp => Sys2Proof.Machine.execCardInsertion card sfdp s
  | .perstDeassert h => Sys2Proof.Machine.execPerstDeassert h s
  | .linkTrained h gen => Sys2Proof.Machine.execLinkTrained h gen s
  | .tckEdge rising tms tdi trstn => Sys2Proof.Machine.execTckEdge rising tms tdi trstn s

end Sys2Proof.Machine
end

