-- ==== Sys2Proof/Machine/Step.lean ====
section
/-! DEFINITION. One step: the command at the front of the queue has its effect. -/
namespace Sys2Proof.Machine

/-- Takes the command at the front of the queue and answers what it does with the queue's rest; the part idles on an empty
queue (assumption log 1). [DESIGN CHOICE log 1] -/
def step (s : State) : Host.Outcome State Fault Refusal :=
  match s.pending with
  | [] => .next s
  | c :: r => exec c { s with pending := r }

/-- `s` with the command that a word spells in front of its queue: no word spells one. [DESIGN CHOICE log 6] -/
def State.withFetchWord (s : State) (nbits w : Nat) : State :=
  match Sys2Proof.decodeTableWord nbits w with
  | some c => { s with pending := c :: s.pending }
  | none => s

end Sys2Proof.Machine
end

