-- ==== Sys2Proof/Safety.lean ====
section
/-! DEFINITION. What claims speak of: a command that has its effect, a legal state of boot, the widths of counts, the items of the
Slate, canonical memories. -/
namespace Sys2Proof.Machine

/-- The command completes: it answers a next state and does not wait, and what the state is like then. -/
def Done (c : Instr) (s : State) (P : State → Prop) : Prop := ∃ t, exec c s = .next t ∧ t.resp ≠ .held ∧ P t

/-- The command waits: nothing but the answer changes. -/
def Waits (c : Instr) (s : State) : Prop := exec c s = .next { s with resp := .held }

/-- Boot runs, is DONE or FAILED, never two of them; its step is one of the nine of R487; DONE means that the maps of R34 are
made. -/
def BootLegal (s : State) : Prop :=
  ¬(s.boot.running = true ∧ s.boot.done = true) ∧ ¬(s.boot.running = true ∧ s.boot.failed = true)
    ∧ ¬(s.boot.done = true ∧ s.boot.failed = true) ∧ 1 ≤ s.boot.step ∧ s.boot.step ≤ 9
    ∧ (s.boot.done = true → s.mapsReady = true)

/-- The timestamp fits in 64 bits (R312), the wafer ID in 15 (R608), the wafer cap in 16 (R551). -/
def WidthsOk (s : State) : Prop := s.now < 2 ^ 64 ∧ s.wafer < 2 ^ 15 ∧ s.pwr.capW < 2 ^ 16

/-- The items of R472 that the state holds as one value each: wafer ID, wafer cap, energy coefficients, clock enables. -/
def slateItems (s : State) : Nat × Nat × SMap Word × SMap Word := (s.wafer, s.pwr.capW, s.pwr.coef, s.clk.en)

/-- The byte memories are in their canonical form: data SRAM and program memory of every brick, SRAM of every HED, DRAM of every
MED, the card. -/
def MemoriesWf (s : State) : Prop :=
  (∀ k, swf 0 (getB s k).sram = true ∧ swf 0 (getB s k).pmem = true)
    ∧ (∀ h, swf 0 (getHed s h).sram = true) ∧ (∀ m, swf 0 (getMed s m).dram = true) ∧ swf 0xFF#8 s.slate.card = true

/-! ### Issue of instructions -/

/-- The command that issues an instruction (DISPATCH, REPI and REPG belong to the fetch unit). -/
def issueCmd (op : BOp) (x : Fin 1104) (y : Fin 560) (t : Nat) : Instr :=
  match op with
  | .mov => .mov x y t
  | .add => .add x y t
  | .sub => .sub x y t
  | .mul => .mul x y t
  | .mulh => .mulh x y t
  | .mulhu => .mulhu x y t
  | .and => .and x y t
  | .or => .or x y t
  | .xor => .xor x y t
  | .andn => .andn x y t
  | .shl => .shl x y t
  | .shr => .shr x y t
  | .sra => .sra x y t
  | .rotl => .rotl x y t
  | .min => .min x y t
  | .max => .max x y t
  | .minu => .minu x y t
  | .maxu => .maxu x y t
  | .clz => .clz x y t
  | .popc => .popc x y t
  | .bfx => .bfx x y t
  | .bfi => .bfi x y t
  | .sel => .sel x y t
  | .cmpeq => .cmpeq x y t
  | .cmpne => .cmpne x y t
  | .cmplt => .cmplt x y t
  | .cmple => .cmple x y t
  | .cmpltu => .cmpltu x y t
  | .cmpleu => .cmpleu x y t
  | .tstnz => .tstnz x y t
  | .pand => .pand x y t
  | .por => .por x y t
  | .pxor => .pxor x y t
  | .pnull => .pnull x y t
  | .pget => .pget x y t
  | .pput => .pput x y t
  | .nop => .nop x y t
  | .repi => .repi x y t
  | .repg => .repg x y t
  | .mark => .mark x y t
  | .halt => .halt x y t
  | .ldw => .ldw x y t
  | .stw => .stw x y t
  | .send => .send x y t
  | .sendp => .sendp x y t
  | .arrive => .arrive x y t
  | .waitb => .waitb x y t
  | .castle => .castle x y t
  | .vfadd => .vfadd x y t
  | .vfsub => .vfsub x y t
  | .vfmul => .vfmul x y t
  | .vfma => .vfma x y t
  | .vfmin => .vfmin x y t
  | .vfmax => .vfmax x y t
  | .vfabs => .vfabs x y t
  | .vfneg => .vfneg x y t
  | .vfcmpeq => .vfcmpeq x y t
  | .vfcmplt => .vfcmplt x y t
  | .vfcmple => .vfcmple x y t
  | .vexp2 => .vexp2 x y t
  | .vlog2 => .vlog2 x y t
  | .vrcp => .vrcp x y t
  | .vrsqrt => .vrsqrt x y t
  | .vmov => .vmov x y t
  | .vadd => .vadd x y t
  | .vsub => .vsub x y t
  | .vmul => .vmul x y t
  | .vand => .vand x y t
  | .vor => .vor x y t
  | .vxor => .vxor x y t
  | .vandn => .vandn x y t
  | .vshl => .vshl x y t
  | .vshr => .vshr x y t
  | .vsra => .vsra x y t
  | .vmin => .vmin x y t
  | .vmax => .vmax x y t
  | .vcmpeq => .vcmpeq x y t
  | .vcmplt => .vcmplt x y t
  | .vsel => .vsel x y t
  | .vcvt => .vcvt x y t
  | .vcvt4 => .vcvt4 x y t
  | .vred => .vred x y t
  | .vperm => .vperm x y t
  | .vext => .vext x y t
  | .vlane => .vlane x y t
  | .vtest => .vtest x y t
  | .vld => .vld x y t
  | .vst => .vst x y t
  | .vins => .vins x y t
  | .vsend => .vsend x y t
  | .tmv => .tmv x y t
  | .tmma => .tmma x y t
  | .tldx => .tldx x y t
  | .tscl => .tscl x y t
  | .tdrv => .tdrv x y t
  | .tzero => .tzero x y t
  | .tsetr => .tsetr x y t

/-- Instruction `op` may issue from brick (x, y) in tcyc t (R56, R60, R70, R71): the brick exists, its clock runs, it is RUNNING
or DRAINING, t has not passed; the head h of the instruction's queue is `op`, is due, its queue has not issued in t, and no cause
of R70 holds it. b is the brick as tcyc t finds it. -/
@[reducible] def CanIssue (op : BOp) (s : State) (x : Fin 1104) (y : Fin 560) (t k : Nat) (b : Brick) (h : QEntry) (rest : List QEntry) : Prop :=
  keyOf s x y = some k ∧ clkRuns s (fieldOf x y) = true ∧ (b.st = .running ∨ b.st = .draining) ∧ brickAt (getB s k) t = some b
    ∧ queGet b (queOp op) = h :: rest ∧ opE h = op ∧ h.due ≤ t ∧ marked b (queIx (queOp op)) = false
    ∧ headCause s x y b (queOp op) h t = 0

/-- Two boards differ at most in the record that something moved and in their arrivals. -/
def BoardButMoved (a b : Board) : Prop := { a with moved := b.moved, arrivals := b.arrivals } = b

/-- Two fields differ at most in their activity counts. -/
def FieldButAct (a b : FieldSt) : Prop := { a with act := b.act } = b

/-- Two states differ at most in their answers, bricks, boards, fields and faults waiting to be reported. -/
def ButWafer (u s : State) : Prop :=
  { u with resp := s.resp, bricks := s.bricks, boards := s.boards, fields := s.fields, raised := s.raised } = s

/-- What no issue touches: every other brick, all of a board but its record that something moved and its arrivals, all of a field
but its activity counts, and the rest of the part. -/
def IssueFrame (s u : State) (k : Nat) : Prop :=
  (∀ j, j ≠ k → getB u j = getB s j) ∧ (∀ n, BoardButMoved (getBd u n) (getBd s n))
    ∧ (∀ f, FieldButAct (getField u f) (getField s f)) ∧ ButWafer u s

/-- The command issues the head of queue q of brick k: it answers `done`, the head has left its queue, and the brick is as P says;
nothing else changes but what IssueFrame names. -/
def Issues (c : Instr) (s : State) (k : Nat) (q : Que) (rest : List QEntry) (P : Brick → Prop) : Prop :=
  ∃ u, exec c s = .next u ∧ u.resp = .done ∧ queGet (getB u k) q = rest ∧ P (getB u k) ∧ IssueFrame s u k

/-- A unit of brick (x, y) may act in tcyc t (R71): the brick exists, its clock runs, it is not STOPPED or QUARANTINED, t has not
passed. b is the brick as tcyc t finds it. -/
@[reducible] def CanAct (s : State) (x : Fin 1104) (y : Fin 560) (t k : Nat) (b : Brick) : Prop :=
  keyOf s x y = some k ∧ clkRuns s (fieldOf x y) = true ∧ b.st ≠ .stopped ∧ b.st ≠ .quarantined ∧ brickAt (getB s k) t = some b

/-- The command is done and brick k is as P says; nothing else changes but what IssueFrame names. -/
def Acts (c : Instr) (s : State) (k : Nat) (P : Brick → Prop) : Prop :=
  ∃ u, exec c s = .next u ∧ u.resp = .done ∧ P (getB u k) ∧ IssueFrame s u k

/-- Context j of the stream unit executes its stream instruction `op` in tcyc t: the unit takes it, and its bank, if it asks for
one, is granted (R223). -/
@[reducible] def StreamTurn (op : SOp) (s : State) (x : Fin 1104) (y : Fin 560) (t k : Nat) (b : Brick) (j : Nat) : Prop :=
  CanAct s x y t k b ∧ streamPick b t = some j ∧ sopOf (stProg b (getCtx b j).pc) = some op
    ∧ ∀ bank, streamBankOf b (getCtx b j) op (stProg b (getCtx b j).pc) = some bank → bankRefused s x y b [.t, .v, .s] bank t = false

/-- A vector of a function is signalled (R558, R574): a message, or its pending bit while it is masked or the function may not issue
requests. -/
def Signalled (s u : State) (fn vec : Nat) : Prop :=
  if bitAt (sget 0 (getFn s fn).msix (16 * vec + 12)) 0 = false ∨ (getFn s fn).bme = false then
    u.toHost = s.toHost ∧ (∀ j, j ≠ fn → getFn u j = getFn s j) ∧ { getFn u fn with pba := (getFn s fn).pba } = getFn s fn
      ∧ ∀ v, sget 0 (getFn u fn).pba v = if v = vec then 1 else sget 0 (getFn s fn).pba v
  else u.toHost = s.toHost ++ [.irq fn vec] ∧ u.fns = s.fns

/-- An access of a function to a block arrives, is permitted and is served (R489, R519, R621, R622). -/
@[reducible] def CanAccess (s : State) (f : Fn) (blk : Blk) (rd : Bool) : Prop :=
  linkOk s f = true ∧ blkServed s f blk rd = true

/-- A BRD_CTL command reaches its board (R414, R416). -/
@[reducible] def CanCommand (s : State) (f : Fn) (b : Nat) : Prop :=
  CanAccess s f .other false ∧ reaches f b = true ∧ s.pwr.stopped = false

/-- Channel c of HED h becomes `v`; every other channel, and all else of the HEDs, stays. -/
def ChanBecomes (s u : State) (h c : Nat) (v : Chan) : Prop :=
  (∀ h' c', getCh u h' c' = if h' = h ∧ c' = c then v else getCh s h' c')
    ∧ ∀ j, { getHed u j with chans := (getHed s j).chans } = getHed s j

/-- The vigil domain after a stop of cause c at tick `now` (R499): of two causes in one tick LAST is the lower code. -/
def stopNoted (v : VigilSt) (now c : Nat) : VigilSt :=
  { v with last := if v.last ≠ 0 ∧ v.stopTime = now then min v.last c else c, seen := v.seen ||| 2 ^ c, stopTime := now }

/-- What every wafer restart leaves (R491, R492): the device is at rest and waits for boot with KIND `kind`; bricks, bridges, boards, MEDs,
HEDs, clocks, power, faults, maps are at reset; the timestamp counts in holdover; the field regulators hold their commands; the card is
kept but for a sector that was being erased; TDO is at high impedance (R496). -/
def AtRest (s u : State) (kind : Nat) : Prop :=
  u.bricks = [] ∧ u.segs = [] ∧ u.mapsReady = false ∧ u.gridSel = 0 ∧ u.grid = [] ∧ u.ties = [] ∧ u.edges = [] ∧ u.boards = [] ∧ u.meds = []
    ∧ u.heds = [] ∧ u.rim = {} ∧ u.wafer = 0 ∧ u.clk = {} ∧ u.pwr = {} ∧ u.flt = {} ∧ u.raised = [] ∧ u.boot = { kind := kind }
    ∧ u.now = s.now ∧ u.time = { continuity := s.time.continuity, holdover := true, holdSeen := true, frac := s.time.frac }
    ∧ u.toHost = s.toHost ∧ u.flowOk = s.flowOk ∧ u.tap = { s.tap with tdo := none } ∧ u.pending = s.pending
    ∧ (∀ f < 84, getField u f = { voltCmd := (getField s f).voltCmd, volt := (getField s f).volt })
    ∧ { u.slate with card := [] } = { present := s.slate.present, sfdp := s.slate.sfdp }
    ∧ ∀ i, (∀ a, s.slate.sector = some a → i < a ∨ a + 0x10000 ≤ i) → sget 0xFF u.slate.card i = sget 0xFF s.slate.card i

/-- Every field is as `p` turns it; no other field is touched. -/
def FieldsBecome (s u : State) (p : Nat → FieldSt → FieldSt) : Prop :=
  ∀ f, getField u f = if f < 84 then p f (getField s f) else getField s f

/-- An access through aperture `ap` of a function reaches brick k: the link is up, the block is served, the aperture is valid, the brick's
field has power (R525, R562, R563). -/
@[reducible] def CanReach (s : State) (f : Fn) (ap : Nat) (rd : Bool) (k : Nat) : Prop :=
  CanAccess s f .other rd ∧ tileTarget s f ap = some k ∧ (getField s (fieldOfKey k)).mesh ≠ .off

/-- Nothing changes but the answer and brick k, which becomes b. -/
def BrickIs (s u : State) (k : Nat) (b : Brick) : Prop :=
  { u with resp := s.resp, bricks := s.bricks } = s ∧ ∀ j, getB u j = if j = k then b else getB s j

/-- Stesy port k of HED h becomes v; every other port, and all else of the HEDs, stays. -/
def PortBecomes (s u : State) (h k : Nat) (v : Port) : Prop :=
  (∀ h' k', getPort u h' k' = if h' = h ∧ k' = k then v else getPort s h' k')
    ∧ ∀ j, { getHed u j with ports := (getHed s j).ports } = getHed s j

/-- Channel slot n of HED h becomes v; every other slot, and all else of the HEDs, stays. -/
def SlotBecomes (s u : State) (h n : Nat) (v : Slot) : Prop :=
  (∀ h' n', getSlot u h' n' = if h' = h ∧ n' = n then v else getSlot s h' n')
    ∧ ∀ j, { getHed u j with slots := (getHed s j).slots } = getHed s j

/-- Nothing changes but the answer and field f, which becomes v. -/
def FieldIs (s u : State) (f : Nat) (v : FieldSt) : Prop :=
  { u with resp := s.resp, fields := s.fields } = s ∧ ∀ g, getField u g = if g = f then v else getField s g

/-- What an idle sequencer does with a field that stands at its current point (R536, R546): where the Steward acts and the granted point is
another one, it begins a transition to it: up with the voltage of its destination, down with frequency steps. -/
def nextTransition (s : State) (v : FieldSt) : FieldSt :=
  if v.phase = 0 ∧ v.mesh ≠ .off ∧ stewardActs s = true ∧ s.pwr.floor = false then
    if v.current < v.granted then
      { v with phase := 1, dest := v.granted, up := true, voltCmd := opV v.granted, voltWait := true }
    else if v.granted < v.current then { v with phase := 2, dest := v.granted, up := false }
    else v
  else v

/-- What a power stop leaves (R542): no field keeps any state; the stop is recorded; the coolant request is 100 %; every defined board reads
HALTED with FAULT_DRAIN; STOPPED is set; a resumption in progress ends (R520); where no request was open and no resumption in progress,
nothing else changes and the power vector is signalled. -/
def PowerStopped (s u : State) (cause : Nat) : Prop :=
  u.bricks = [] ∧ u.ties = [] ∧ u.edges = [] ∧ u.vigil = stopNoted s.vigil s.now cause ∧ u.pwr = { s.pwr with stopped := true, request := 100 }
    ∧ FieldsBecome s u (fun _ v => { v with mesh := .off, m := 0, phase := 0, voltCmd := 0, volt := 0, voltWait := false, stretch := 0 })
    ∧ (∀ b < 16, (getBd s b).st = .undefined → (getBd u b).st = .undefined)
    ∧ (∀ b < 16, (getBd s b).st ≠ .undefined → (getBd u b).st = .halted ∧ (getBd u b).faultDrain = true ∧ (getBd u b).drain = none
        ∧ (getBd u b).startPending = false)
    ∧ u.now = s.now ∧ u.segs = s.segs ∧ u.flowOk = s.flowOk
    ∧ u.clk = (if s.clk.resuming = true then { s.clk with
        resuming := false, sticky := s.clk.sticky ||| 0x1000000, waitLen := (s.now + 2 ^ 64 - s.clk.waitStart) % 2 ^ 64 } else s.clk)
    ∧ ((∀ b < 16, curChans s b = []) → s.clk.resuming = false → Signalled s u (pfIx 0) 3
        ∧ { u with resp := s.resp, bricks := s.bricks, ties := s.ties, edges := s.edges, boards := s.boards, fields := s.fields
                   vigil := s.vigil, pwr := s.pwr, fns := s.fns, toHost := s.toHost } = s)

/-- The brick differs from b in nothing but its queues and what issue always writes: pops, null flags, freed credits, counts,
marks of the tcyc, the cause of a queue, and pending results. -/
def IssueKeeps (b b' : Brick) : Prop :=
  { b' with qS := b.qS, qV := b.qV, qT := b.qT, causeS := b.causeS, causeV := b.causeV, causeT := b.causeT, flights := b.flights,
            used := b.used, ports := b.ports, nf := b.nf, credFly := b.credFly, cnt := b.cnt } = b

/-- The entries that an instruction pops (R62, R109). -/
def poppedBy (op : BOp) (b : Brick) (h : QEntry) : List Flit := (popAll false 0 (popsOf op h.word) b []).2

/-- The 32-bit and 256-bit values of the operands of a head (R106, R142, R143). -/
def opA (op : BOp) (s : State) (x y : Nat) (b : Brick) (h : QEntry) : Word :=
  sel32 b (opCtx s x y b h) (iA h.word) (popsA op h.word (poppedBy op b h))
def opB (op : BOp) (s : State) (x y : Nat) (b : Brick) (h : QEntry) : Word :=
  sel32 b (opCtx s x y b h) (iB h.word) (popsB op h.word (poppedBy op b h))
def opVA (op : BOp) (s : State) (x y : Nat) (b : Brick) (h : QEntry) : VecReg :=
  sel256 b (opCtx s x y b h) (iA h.word) (popsA op h.word (poppedBy op b h))
def opVB (op : BOp) (s : State) (x y : Nat) (b : Brick) (h : QEntry) : VecReg :=
  sel256 b (opCtx s x y b h) (iB h.word) (popsB op h.word (poppedBy op b h))

/-! ### Results as the spec words them -/

/-- An exact result clamped to the signed 32-bit range, or taken modulo 2^32 within it (R118). -/
def clampS (v : Int) : Word := if v < -2147483648 then 0x80000000 else if 2147483647 < v then 0x7FFFFFFF else BitVec.ofInt 32 v
/-- An exact result clamped to the unsigned range. -/
def clampU (v : Int) : Word := if v < 0 then 0 else if 4294967295 < v then 0xFFFFFFFF else BitVec.ofInt 32 v

/-- D of a class 0x1 instruction, as R116 to R119 word it, over machine words; `sel` is p[PS] XOR PSN. -/
def scalarSpec (op : BOp) (w : DWord) (a b : Word) (sel : Bool) : Word :=
  let sat := bitAt w 29
  let uns := bitAt w 28
  let n := b.toNat % 32
  match op with
  | .mov => a
  | .add => if !sat then a + b else if uns then clampU (a.toNat + b.toNat) else clampS (a.toInt + b.toInt)
  | .sub => if !sat then a - b else if uns then clampU ((a.toNat : Int) - b.toNat) else clampS (a.toInt - b.toInt)
  | .mul => if !sat then a * b else if uns then clampU (a.toNat * b.toNat) else clampS (a.toInt * b.toInt)
  | .mulh => (BitVec.ofInt 64 (a.toInt * b.toInt)).extractLsb' 32 32
  | .mulhu => (BitVec.ofNat 64 (a.toNat * b.toNat)).extractLsb' 32 32
  | .and => a &&& b
  | .or => a ||| b
  | .xor => a ^^^ b
  | .andn => a &&& ~~~b
  | .shl => a <<< n
  | .shr => a >>> n
  | .sra => a.sshiftRight n
  | .rotl => (a <<< n) ||| (a >>> (32 - n))
  | .min => if a.toInt ≤ b.toInt then a else b
  | .max => if a.toInt ≤ b.toInt then b else a
  | .minu => if a.toNat ≤ b.toNat then a else b
  | .maxu => if a.toNat ≤ b.toNat then b else a
  | .clz => BitVec.ofNat 32 (((List.range 32).reverse.takeWhile (fun i => !a.getLsbD i)).length)
  | .popc => BitVec.ofNat 32 ((List.range 32).countP (fun i => a.getLsbD i))
  | .bfx => (a >>> fld w 0 5) &&& BitVec.ofNat 32 (2 ^ (fld w 8 5 + 1) - 1)
  | .bfi => BitVec.ofNat 32 ((List.range 32).foldl (fun acc i => acc +
      (if fld w 0 5 ≤ i ∧ i ≤ fld w 0 5 + fld w 8 5 then b2n (b.getLsbD (i - fld w 0 5)) else b2n (a.getLsbD i)) * 2 ^ i) 0)
  | _ => if sel then a else b

/-- The bit an instruction of class 0x2 writes to p[PD] (R120): the compares over the integers their operands stand for. -/
def predSpec (op : BOp) (b : Brick) (w : DWord) (a c : Word) : Bool :=
  let pa := if fld w 24 3 = 0 then true else b.p.getLsbD (fld w 24 3)
  let pb := if fld w 20 3 = 0 then true else b.p.getLsbD (fld w 20 3)
  match op with
  | .cmpeq => decide (a.toNat = c.toNat)
  | .cmpne => decide (a.toNat ≠ c.toNat)
  | .cmplt => decide (a.toInt < c.toInt)
  | .cmple => decide (a.toInt ≤ c.toInt)
  | .cmpltu => decide (a.toNat < c.toNat)
  | .cmpleu => decide (a.toNat ≤ c.toNat)
  | .tstnz => (List.range 32).any (fun i => a.getLsbD i && c.getLsbD i)
  | .pand => xor pa (bitAt w 23) && xor pb (bitAt w 19)
  | .por => xor pa (bitAt w 23) || xor pb (bitAt w 19)
  | .pxor => xor (xor pa (bitAt w 23)) (xor pb (bitAt w 19))
  | _ => b.nf.getLsbD (fld w 0 3)

/-- p7..p0 as a word, p0 reading 1 (R67, R120). -/
def pgetSpec (b : Brick) : Word :=
  BitVec.ofNat 32 (1 + ((List.range 7).map (fun i => b2n (b.p.getLsbD (i + 1)) * 2 ^ (i + 1))).sum)

/-- An exact integer in a w-bit element: modulo 2^w, or clamped to the signed or the unsigned range (R118, R152). -/
def elemFit (w : Nat) (sat uns : Bool) (v : Int) : Nat :=
  let r : Int := if !sat then v else if uns then max 0 (min v (2 ^ w - 1)) else max (-(2 ^ (w - 1))) (min v (2 ^ (w - 1) - 1))
  (r % 2 ^ w).toNat

/-- The integer a w-bit element stands for (R85, R152). -/
def elemInt (w : Nat) (uns : Bool) (v : Nat) : Int := if uns ∨ v < 2 ^ (w - 1) then v else (v : Int) - 2 ^ w

/-- One element of D of the class 0x7 instructions that work element by element (R151, R152). -/
def viSpec (op : BOp) (w : Nat) (sat uns : Bool) (a b : Nat) : Nat :=
  let u := sat && uns
  match op with
  | .vadd => elemFit w sat uns (elemInt w u a + elemInt w u b)
  | .vsub => elemFit w sat uns (elemInt w u a - elemInt w u b)
  | .vmul => elemFit w sat uns (elemInt w u a * elemInt w u b)
  | .vshl => a * 2 ^ (b % w) % 2 ^ w
  | .vshr => a / 2 ^ (b % w)
  | .vsra => (elemInt w false a / 2 ^ (b % w) % 2 ^ w).toNat
  | .vmin => if elemInt w uns a ≤ elemInt w uns b then a else b
  | .vmax => if elemInt w uns a ≤ elemInt w uns b then b else a
  | .vcmpeq => if a = b then 2 ^ w - 1 else 0
  | _ => if elemInt w uns a < elemInt w uns b then 2 ^ w - 1 else 0

/-- D of the class 0x7 instructions that work on whole registers, bit by bit (R151, R152). -/
def vbitSpec (op : BOp) (a b m : VecReg) (i : Nat) : Bool :=
  match op with
  | .vmov => a.getLsbD i
  | .vand => a.getLsbD i && b.getLsbD i
  | .vor => a.getLsbD i || b.getLsbD i
  | .vxor => xor (a.getLsbD i) (b.getLsbD i)
  | .vandn => a.getLsbD i && !b.getLsbD i
  | _ => if m.getLsbD i then a.getLsbD i else b.getLsbD i

/-- One element of D of a class 0x6 instruction (R149, R150): an exact result rounded once, or the code the rule names. -/
def vfSpec (op : BOp) (f : Fmt) (rtz : Bool) (a b d : Nat) : Nat :=
  let w := fmtW f
  let round := fun v => fenc f rtz false false v
  let va := fdec f a
  let vb := fdec f b
  let ones := fun (c : Bool) => if c then 2 ^ w - 1 else 0
  match op with
  | .vfadd => round (fadd va vb)
  | .vfsub => round (fadd va (fneg vb))
  | .vfmul => round (fmul va vb)
  | .vfma => round (fadd (fmul va vb) (fdec f d))
  | .vfmin => fminmax f false a b
  | .vfmax => fminmax f true a b
  | .vfabs => if va = .nan then fmtNan f else if 2 ^ (w - 1) ≤ a then a - 2 ^ (w - 1) else a
  | .vfneg =>
    let c := if va = .nan then fmtNan f else if 2 ^ (w - 1) ≤ a then a - 2 ^ (w - 1) else a
    if 2 ^ (w - 1) ≤ a then c else c + 2 ^ (w - 1)
  | .vfcmpeq => ones (fcmp va vb = some .eq)
  | .vfcmplt => ones (fcmp va vb = some .lt)
  | .vfcmple => ones (fcmp va vb = some .lt ∨ fcmp va vb = some .eq)
  | .vexp2 => vexp2 rtz a
  | .vlog2 => vlog2 rtz a
  | .vrcp => vrcp rtz a
  | _ => vrsqrt rtz a

end Sys2Proof.Machine
end

