-- ==== Sys2Proof/Certificates/Slice0/Obligations.lean ====
section
/-! DEFINITION. The statements. A command that takes effect answers a next state whose answer is not held; one whose condition does not
hold waits (assumption log 2). Steps of a brick carry the tcyc of its field (log 7). -/
open Sys2Proof Sys2Proof.Machine

/-- A step runs the command in front of the queue. The step of a state whose queue has c in front runs c on the state with the queue's rest. -/
def Obligations.StepRunsFront : Prop :=
  ∀ (c : Instr) (s : State), step { s with pending := c :: s.pending } = exec c s

/-- The state after reset meets the invariants. R312, R487, R551, R608: after reset boot is legal (it has not begun), the counts fit their widths, and every byte memory is in its
canonical form. Model's choices it rests on: log 4, 5. -/
def Obligations.ResetMeetsInvariants : Prop :=
  BootLegal State.reset ∧ WidthsOk State.reset ∧ MemoriesWf State.reset

/-- p0 discards writes and reads 1. R67: a write to p0 is discarded, and p0 reads 1 wherever a predicate is read: by a predicate or SEL field, by the numbers PGET reads,
and after a release that names p0. -/
def Obligations.PredicateZero : Prop :=
  (∀ (b : Brick), pReg b 0 = true ∧ bitAt (BitVec.ofNat 32 (pAll b)) 0 = true)
  ∧ (∀ (b : Brick) (w : DWord), iPSEL w = 0 → predOf b w = !iPN w)
  ∧ (∀ (p : BitVec 8) (v : Bool), setP p 0 v = p)
  ∧ (∀ (b : Brick) (v : Bool), applyRW b (.p 0 v) = b)

/-- MARK writes VALUE and SEQ in one write. R129: a MARK with a true predicate writes, in its issue tcyc and in one write, IMM into VALUE and one more, modulo 65,536, into SEQ;
one with a false predicate changes nothing. It pops nothing, and no other register the brick shows changes. -/
def Obligations.MarkWritesAtOnce : Prop :=
  ∀ (s : State) (x : Fin 1104) (y : Fin 560) (t k : Nat) (b : Brick) (h : QEntry) (rest : List QEntry),
    CanIssue .mark s x y t k b h rest →
    Issues (.mark x y t) s k .s rest (fun b' =>
      (∀ n, portQ b' n = portQ b n) ∧ b'.nf = b.nf ∧ b'.flights = b.flights ∧ (∀ o, o ≠ 0x830 → obsW b' o = obsW b o)
      ∧ (predOf b h.word = false → obsW b' 0x830 = obsW b 0x830)
      ∧ (predOf b h.word = true → fld (obsW b' 0x830) 0 16 = iIMM h.word
          ∧ fld (obsW b' 0x830) 16 16 = (fld (obsW b 0x830) 16 16 + 1) % 2 ^ 16))

/-- SGATE pops one entry and discards it. R231, R62: SGATE pops one entry from PORT and discards its payload and EOM marker; the pop sets NF of PORT to the entry's null marker,
and every other null flag, every register and every byte of the brick are as before; its context is ready to execute it exactly when
PORT holds an entry. -/
def Obligations.StreamGatePops : Prop :=
  (∀ (s : State) (x : Fin 1104) (y : Fin 560) (t k : Nat) (b : Brick) (j : Nat), StreamTurn .sgate s x y t k b j →
    Acts (.sgate x y t) s k (fun b' =>
      (∀ n, portQ b' n = if n = fld (stProg b (getCtx b j).pc) 25 3 then (portQ b n).drop 1 else portQ b n)
      ∧ (∀ n < 8, b'.nf.getLsbD n = if n = fld (stProg b (getCtx b j).pc) 25 3 then ((portQ b n).headD {}).null else b.nf.getLsbD n)
      ∧ b'.g = b.g ∧ b'.p = b.p ∧ b'.v = b.v ∧ b'.sram = b.sram ∧ b'.flights = b.flights))
  ∧ (∀ (b : Brick) (c : Ctx) (t : Nat), c.phase = .active → c.farLeft = [] → c.ending = false →
      sopOf (stProg b c.pc) = some .sgate → (ctxReady b c t = true ↔ 1 ≤ portReady b (fld (stProg b c.pc) 25 3) t))

/-- A switch begins when the selected reference is lost, and never back by itself. R512: when the selected reference becomes LOST and the other is GOOD, the switch begins at once; no reference is returned to
automatically: one that qualifies again while the other is selected and the device does not wait stays unselected, and no switch
begins. -/
def Obligations.SelectedReferenceLost : Prop :=
  ∀ (s : State) (r : Fin 2), s.clk.selected = true → s.clk.waiting = false →
    (r.val = selRef s.clk → refOk s.clk r = true → refOk s.clk (1 - r.val) = true →
      ∃ u, exec (.refLost r) s = .next u ∧ u.resp = .done ∧ { u with resp := s.resp, clk := s.clk } = s
        ∧ refOk u.clk r = false ∧ u.clk.switching = true ∧ u.clk.sel = s.clk.sel)
    ∧ (r.val ≠ selRef s.clk → refOk s.clk r = false →
      ∃ u, exec (.refGood r) s = .next u ∧ u.resp = .done ∧ { u with resp := s.resp, clk := s.clk } = s
        ∧ refOk u.clk r = true ∧ u.clk.sel = s.clk.sel ∧ u.clk.selected = true ∧ u.clk.switching = s.clk.switching)

/-- Scalar instructions give g[D] the value of their rule. R56, R63, R113, R116-R119: an instruction of class 0x1 that may issue reserves g[D] and gives it, L tcyc later, the value that R116 to
R119 state (nothing with a false predicate); nothing else changes but pops, counts and marks. -/
def Obligations.ScalarIssueWritesD : Prop :=
  ∀ op ∈ [BOp.mov, .add, .sub, .mul, .mulh, .mulhu, .and, .or, .xor, .andn, .shl, .shr, .sra, .rotl, .min, .max, .minu, .maxu,
      .clz, .popc, .bfx, .bfi, .sel],
  ∀ (s : State) (x : Fin 1104) (y : Fin 560) (t k : Nat) (b : Brick) (h : QEntry) (rest : List QEntry),
    CanIssue op s x y t k b h rest →
    Issues (issueCmd op x y t) s k .s rest (fun b' => IssueKeeps b b' ∧
      b'.flights = b.flights ++ [⟨t + (if op ∈ [BOp.mul, .mulh, .mulhu] then 2 else 1), [rG (iD h.word)],
        if predOf b h.word then
          [.g (iD h.word) (scalarSpec op h.word (opA op s x y b h) (opB op s x y b h)
            (xor (if fld h.word 25 3 = 0 then true else b.p.getLsbD (fld h.word 25 3)) (bitAt h.word 24)))]
        else []⟩])

/-- Predicate instructions give their predicates. R120, R121, R67: an instruction of class 0x2 that may issue gives p[PD] its bit one tcyc later; PD = 0 is discarded. PGET gives g[D]
the eight predicates; PPUT gives p1 to p7 the bits of A. -/
def Obligations.PredicateIssueWritesP : Prop :=
  (∀ op ∈ [BOp.cmpeq, .cmpne, .cmplt, .cmple, .cmpltu, .cmpleu, .tstnz, .pand, .por, .pxor, .pnull],
    ∀ (s : State) (x : Fin 1104) (y : Fin 560) (t k : Nat) (b : Brick) (h : QEntry) (rest : List QEntry),
      CanIssue op s x y t k b h rest →
      Issues (issueCmd op x y t) s k .s rest (fun b' => IssueKeeps b b' ∧
        b'.flights = b.flights ++ (if fld h.word 27 3 = 0 then [] else [⟨t + 1, [rP (fld h.word 27 3)],
          if predOf b h.word then [.p (fld h.word 27 3) (predSpec op b h.word (opA op s x y b h) (opB op s x y b h))] else []⟩])))
  ∧ (∀ (s : State) (x : Fin 1104) (y : Fin 560) (t k : Nat) (b : Brick) (h : QEntry) (rest : List QEntry),
      CanIssue .pget s x y t k b h rest →
      Issues (.pget x y t) s k .s rest (fun b' => IssueKeeps b b' ∧
        b'.flights = b.flights ++ [⟨t + 1, [rG (iD h.word)], if predOf b h.word then [.g (iD h.word) (pgetSpec b)] else []⟩]))
  ∧ (∀ (s : State) (x : Fin 1104) (y : Fin 560) (t k : Nat) (b : Brick) (h : QEntry) (rest : List QEntry),
      CanIssue .pput s x y t k b h rest →
      Issues (.pput x y t) s k .s rest (fun b' => IssueKeeps b b' ∧
        b'.flights = b.flights ++ [⟨t + 1, [rP 1, rP 2, rP 3, rP 4, rP 5, rP 6, rP 7],
          if predOf b h.word then
            (List.range 7).map (fun i => RW.p (i + 1) ((opA .pput s x y b h).getLsbD (i + 1))) else []⟩]))

/-- NOP, MARK, HALT, ARRIVE, WAITB and CASTLE have their effects. R125, R129, R69, R130: NOP changes nothing of the brick but counts and marks; MARK with a true predicate writes its value and one more
in SEQ to BRK_MARK; HALT makes the brick HALTED. R135, R136, R138, R236, R302: ARRIVE with a true predicate counts one arrival of its
barrier not yet released, turns the barrier's parity and sends the arrival into its board's tree; WAITB changes nothing; CASTLE with a
true predicate swaps a declared buffer's halves and clears its DONE. With a false predicate they change nothing. -/
def Obligations.ControlIssue : Prop :=
  ((∀ (s : State) (x : Fin 1104) (y : Fin 560) (t k : Nat) (b : Brick) (h : QEntry) (rest : List QEntry),
      CanIssue .nop s x y t k b h rest →
      Issues (.nop x y t) s k .s rest (fun b' => IssueKeeps b b' ∧ b'.flights = b.flights))
  ∧ (∀ (s : State) (x : Fin 1104) (y : Fin 560) (t k : Nat) (b : Brick) (h : QEntry) (rest : List QEntry),
      CanIssue .mark s x y t k b h rest →
      Issues (.mark x y t) s k .s rest (fun b' =>
        IssueKeeps b { b' with obs := b.obs } ∧ b'.flights = b.flights
          ∧ (∀ o, o ≠ 0x830 → obsW b' o = obsW b o)
          ∧ fld (obsW b' 0x830) 0 16 = (if predOf b h.word then iIMM h.word else fld (obsW b 0x830) 0 16)
          ∧ fld (obsW b' 0x830) 16 16
              = (if predOf b h.word then (fld (obsW b 0x830) 16 16 + 1) % 65536 else fld (obsW b 0x830) 16 16)))
  ∧ (∀ (s : State) (x : Fin 1104) (y : Fin 560) (t k : Nat) (b : Brick) (h : QEntry) (rest : List QEntry),
      CanIssue .halt s x y t k b h rest →
      Issues (.halt x y t) s k .s rest (fun b' =>
        b'.st = .halted ∧ IssueKeeps b { b' with st := b.st } ∧ b'.flights = b.flights)))
  ∧ ((∀ (s : State) (x : Fin 1104) (y : Fin 560) (t k : Nat) (b : Brick) (h : QEntry) (rest : List QEntry),
      CanIssue .arrive s x y t k b h rest →
      let n := fld h.word 0 6
      Issues (.arrive x y t) s k .s rest (fun b' =>
        IssueKeeps b { b' with barOut := b.barOut, barNP := b.barNP } ∧ b'.flights = b.flights
          ∧ (∀ i, sget 0 b'.barOut i = if predOf b h.word = true ∧ i = n then sget 0 b.barOut i + 1 else sget 0 b.barOut i)
          ∧ (∀ i, sget 0 b'.barNP i = if predOf b h.word = true ∧ i = n then 1 - sget 0 b.barNP i else sget 0 b.barNP i))
      ∧ (∀ m u, boardAt s x y = some m → exec (.arrive x y t) s = .next u →
          (getBd u m).arrivals = (getBd s m).arrivals
            ++ (if predOf b h.word then [⟨n, sget 0 b.barNP n, fieldOf x y, t⟩] else [])))
  ∧ (∀ (s : State) (x : Fin 1104) (y : Fin 560) (t k : Nat) (b : Brick) (h : QEntry) (rest : List QEntry),
      CanIssue .waitb s x y t k b h rest →
      Issues (.waitb x y t) s k .s rest (fun b' => IssueKeeps b b' ∧ b'.flights = b.flights))
  ∧ (∀ (s : State) (x : Fin 1104) (y : Fin 560) (t k : Nat) (b : Brick) (h : QEntry) (rest : List QEntry),
      CanIssue .castle s x y t k b h rest → cbDecl b (fld h.word 0 3) = true →
      let n := fld h.word 0 3
      Issues (.castle x y t) s k .s rest (fun b' =>
        IssueKeeps b { b' with cb := b.cb } ∧ b'.flights = b.flights
          ∧ (∀ i, sget {} b'.cb i = if predOf b h.word = true ∧ i = n
              then { rd := 1 - (sget {} b.cb n).rd, done := false, chg := t + 1, filling := false } else sget {} b.cb i))))

/-- Loads give the bytes of memory, stores write exactly theirs. R122-R124, R159, R8, R9: LDW and VLD with a true predicate at a valid address whose words are readable give their destination, 3 tcyc
later, the bytes there in little-endian order; with a false predicate they give nothing. Memory does not change. R122-R124, R159, R650:
STW and VST with a true predicate at a valid address whose words are readable write the bytes of B there and no other byte of data
SRAM; with a false predicate they write nothing. Model's choices it rests on: log 10, 15. -/
def Obligations.MemoryIssue : Prop :=
  (∀ op ∈ [BOp.ldw, .vld],
  ∀ (s : State) (x : Fin 1104) (y : Fin 560) (t k : Nat) (b : Brick) (h : QEntry) (rest : List QEntry),
    CanIssue op s x y t k b h rest →
    let n := if op = .ldw then 4 else 32
    let a := memAddr b (opCtx s x y b h) op h
    (predOf b h.word = true → a < 0xC000 ∧ a % n = 0 ∧ (sramHealth b a n).2 = none) →
    Issues (issueCmd op x y t) s k (queOp op) rest (fun b' => IssueKeeps b b' ∧
      ∃ ws, b'.flights = b.flights ++ [⟨t + 3, [if op = .ldw then rG (iD h.word) else rV (iD h.word)], ws⟩] ∧
        if predOf b h.word then
          ∃ v : Nat, ws = [if op = .ldw then RW.g (iD h.word) (BitVec.ofNat 32 v) else RW.v (iD h.word) (BitVec.ofNat 256 v)]
            ∧ v < 2 ^ (8 * n) ∧ ∀ i < n, v / 2 ^ (8 * i) % 256 = (sget 0 b.sram (a + i)).toNat
        else ws = []))
  ∧ (∀ op ∈ [BOp.stw, .vst],
  ∀ (s : State) (x : Fin 1104) (y : Fin 560) (t k : Nat) (b : Brick) (h : QEntry) (rest : List QEntry),
    CanIssue op s x y t k b h rest →
    let n := if op = .stw then 4 else 32
    let a := memAddr b (opCtx s x y b h) op h
    let v : Nat := if op = .stw then (opB .stw s x y b h).toNat else (vReg b (iB h.word)).toNat
    (predOf b h.word = true → a < 0xC000 ∧ a % n = 0 ∧ (op = .stw → (sramHealth b a n).2 = none)) →
    Issues (issueCmd op x y t) s k (queOp op) rest (fun b' =>
      IssueKeeps b { b' with sram := b.sram, sramEcc := b.sramEcc } ∧ b'.flights = b.flights
        ∧ (∀ j, sget 0 b'.sram j = if predOf b h.word = true ∧ a ≤ j ∧ j < a + n then BitVec.ofNat 8 (v / 2 ^ (8 * (j - a)))
            else sget 0 b.sram j)))

/-- Accesses that break their limits fault. R123, R159, R163, R650, R72: an access of data SRAM with a true predicate at an address outside it, or not a multiple of its size,
faults with FAULT_ADDR and the address; one that reads a word found uncorrectable faults with FAULT_DED and the word's address. The
brick is FAULTED, no register and no byte of memory changes, and the fault waits to be reported. Model's choices it rests on: log 15. -/
def Obligations.MemoryFault : Prop :=
  ∀ p ∈ [(BOp.ldw, 4), (.stw, 4), (.vld, 32), (.vst, 32), (.tmv, 32), (.tldx, 32), (.tscl, 32)],
  ∀ (s : State) (x : Fin 1104) (y : Fin 560) (t k : Nat) (b : Brick) (h : QEntry) (rest : List QEntry) (code d : Nat),
    CanIssue p.1 s x y t k b h rest → predOf b h.word = true → memOf p.1 h.word ≠ none →
    let a := memAddr b (opCtx s x y b h) p.1 h
    ((0xC000 ≤ a ∨ a % p.2 ≠ 0) ∧ code = 0x04 ∧ d = a
      ∨ (a < 0xC000 ∧ a % p.2 = 0) ∧ p.1 ≠ .vst ∧ (sramHealth b a p.2).2 = some d ∧ code = 0x10) →
    ∃ u, exec (issueCmd p.1 x y t) s = .next u ∧ u.resp = .done ∧ (getB u k).st = .faulted
      ∧ (getB u k).g = b.g ∧ (getB u k).p = b.p ∧ (getB u k).v = b.v ∧ (getB u k).acc = b.acc ∧ (getB u k).wsc = b.wsc
      ∧ (getB u k).xl = b.xl ∧ (getB u k).xsc = b.xsc ∧ (getB u k).sram = b.sram ∧ (getB u k).updates = b.updates
      ∧ (∃ r, u.raised = s.raised ++ [r] ∧ r.code = code ∧ r.brick = some (x.val, y.val) ∧ r.detail = BitVec.ofNat 32 d)
      ∧ IssueFrame s u k

/-- Sends spend credits and put flits in their slots. R132, R133, R161: SEND, SENDP and VSEND spend one credit of their slot for each flit; the first enters the slot's buffer in t + 1, the
second in t + 2; a flit is null, with payload 0, if the predicate is false or KEEPNULL meets a null entry; EOM, IMM[15], goes with the
last. -/
def Obligations.SendIssue : Prop :=
  ∀ op ∈ [BOp.send, .sendp, .vsend],
  ∀ (s : State) (x : Fin 1104) (y : Fin 560) (t k : Nat) (b : Brick) (h : QEntry) (rest : List QEntry),
    CanIssue op s x y t k b h rest →
    let w := h.word
    let sl := fld w 0 5
    let fs := poppedBy op b h
    let null := fun (f : Flit) => !predOf b w || (op != .vsend && bitAt w 29 && f.null)
    let n1 := null (popsA op w fs)
    let n2 := null (popsB op w fs)
    let two := op == .sendp || (op == .vsend && bitAt w 5)
    let v1 : Word := if op = .vsend then laneOf (vReg b (iA w)) (fld w 6 3) else opA op s x y b h
    let v2 : Word := if op = .vsend then laneOf (vReg b (iA w)) (fld w 6 3 + 1) else opB op s x y b h
    let f1 : Flit := ⟨if n1 then 0 else v1, n1, !two && bitAt w 15, t + 1⟩
    let f2 : Flit := ⟨if n2 then 0 else v2, n2, bitAt w 15, t + 2⟩
    Issues (issueCmd op x y t) s k (queOp op) rest (fun b' =>
      IssueKeeps b { b' with fifos := b.fifos, sndCred := b.sndCred } ∧ b'.flights = b.flights
        ∧ (∀ i, sget [] b'.fifos i = if i = 128 + sl then sget [] b.fifos i ++ (if two then [f1, f2] else [f1]) else sget [] b.fifos i)
        ∧ (∀ i, sget 0 b'.sndCred i = if i = sl then sget 0 b.sndCred i - (if two then 2 else 1) else sget 0 b.sndCred i))

/-- Vector float instructions and conversions give the results of their rules. R142, R148-R150: an instruction of class 0x6 that may issue gives v[D], L tcyc later, a register each of whose elements is the rule's
result of the elements of A and B there (and of D for VFMA). R154-R158, R160: the conversions, reductions and lane moves of classes 0x8
and 0x9 give their destination, L tcyc later, what the rules state: VCVT and VCVT4 converted elements and a scale byte, every other
element kept; VRED the reduction; VPERM, VEXT, VLANE and VINS the lanes named; VTEST whether A AND B is not zero. Model's choices it
rests on: log 12, 13, 64. -/
def Obligations.VectorFloatIssue : Prop :=
  (∀ p ∈ [(BOp.vfadd, 3), (.vfsub, 3), (.vfmul, 3), (.vfma, 4), (.vfmin, 2), (.vfmax, 2), (.vfabs, 1), (.vfneg, 1), (.vfcmpeq, 2),
      (.vfcmplt, 2), (.vfcmple, 2), (.vexp2, 8), (.vlog2, 8), (.vrcp, 8), (.vrsqrt, 8)],
  ∀ (s : State) (x : Fin 1104) (y : Fin 560) (t k : Nat) (b : Brick) (h : QEntry) (rest : List QEntry) (f : Fmt),
    CanIssue p.1 s x y t k b h rest → iFMT h.word = some f → f ∈ [Fmt.bf16, .fp16, .fp32] →
    Issues (issueCmd p.1 x y t) s k .v rest (fun b' =>
      IssueKeeps b { b' with transFree := b.transFree } ∧ ∃ ws, b'.flights = b.flights ++ [⟨t + p.2, [rV (iD h.word)], ws⟩] ∧
        if predOf b h.word then
          ∃ d : VecReg, ws = [.v (iD h.word) d] ∧ ∀ i < 256 / fmtW f,
            elemAt (fmtW f) d.toNat i = vfSpec p.1 f (bitAt h.word 25) (elemAt (fmtW f) (opVA p.1 s x y b h).toNat i)
              (elemAt (fmtW f) (opVB p.1 s x y b h).toNat i) (elemAt (fmtW f) (vReg b (iD h.word)).toNat i) % 2 ^ fmtW f
        else ws = []))
  ∧ (∀ (s : State) (x : Fin 1104) (y : Fin 560) (t k : Nat) (b : Brick) (h : QEntry) (rest : List QEntry),
  let w := h.word
  let d := iD w
  let old := vReg b d
  let out := fun (c : Instr) (L : Nat) (rs : List Nat) (P : List RW → Prop) =>
    Issues c s k .v rest (fun b' => IssueKeeps b b' ∧ ∃ ws, b'.flights = b.flights ++ [⟨t + L, rs, ws⟩]
      ∧ if predOf b w then P ws else ws = [])
  (CanIssue .vcvt s x y t k b h rest → ∀ fd fs, fmtOf (fld w 26 4) = some fd → fmtOf (fld w 22 4) = some fs → wordOk w = true →
    out (.vcvt x y t) 2 [rV d] (fun ws => ∃ r : VecReg, ws = [.v d r] ∧ ∀ i < 256 / fmtW fd, elemAt (fmtW fd) r.toNat i
      = if 8 * fld w 3 3 ≤ i ∧ i < 8 * fld w 3 3 + 8 then
          fconv fs fd (bitAt w 21) (bitAt w 20) (fld (gReg b (fld w 8 5)) (8 * fld w 6 2) 8)
            (elemAt (fmtW fs) (opVA .vcvt s x y b h).toNat (8 * fld w 0 3 + (i - 8 * fld w 3 3))) % 2 ^ fmtW fd
        else elemAt (fmtW fd) old.toNat i))
  ∧ (CanIssue .vcvt4 s x y t k b h rest →
    out (.vcvt4 x y t) 3 [rV d, rG (fld w 8 5)] (fun ws => ∃ (r : VecReg) (g : Word), ws = [.v d r, .g (fld w 8 5) g] ∧
      let blk := cvt4Block (bitAt w 21) ((List.range 32).map (fun i => elemAt 32 (vReg b (iA w + i / 8)).toNat (i % 8)))
      (∀ i < 64, elemAt 4 r.toNat i = if 32 * fld w 0 1 ≤ i ∧ i < 32 * fld w 0 1 + 32 then blk.1.getD (i - 32 * fld w 0 1) 0 % 16
        else elemAt 4 old.toNat i)
      ∧ ∀ i < 4, elemAt 8 g.toNat i = if i = fld w 6 2 then blk.2 % 256 else elemAt 8 (gReg b (fld w 8 5)).toNat i))
  ∧ (CanIssue .vred s x y t k b h rest → ∀ f, iFMT w = some f → f ∈ [Fmt.int8, .int32] → fld w 24 2 < 3 →
    let es := (List.range (256 / fmtW f)).map (fun i => elemInt (fmtW f) (bitAt w 22) (elemAt (fmtW f) (opVA .vred s x y b h).toNat i))
    out (.vred x y t) 2 [rG d] (fun ws => ∃ r : Word, ws = [.g d r] ∧
      (fld w 24 2 = 0 → r = BitVec.ofInt 32 es.sum)
      ∧ (fld w 24 2 = 1 → ∃ m ∈ es, r = BitVec.ofInt 32 m ∧ ∀ e ∈ es, e ≤ m)
      ∧ (fld w 24 2 = 2 → ∃ m ∈ es, r = BitVec.ofInt 32 m ∧ ∀ e ∈ es, m ≤ e)))
  ∧ (CanIssue .vred s x y t k b h rest → ∀ f, iFMT w = some f → f ∈ [Fmt.bf16, .fp16, .fp32] → fld w 24 2 < 3 →
    let e := fun (i : Nat) => elemAt (fmtW f) (opVA .vred s x y b h).toNat i
    let g := fun (p q : Nat) => vfSpec (if fld w 24 2 = 0 then .vfadd else if fld w 24 2 = 1 then .vfmax else .vfmin) f (bitAt w 23) p q 0
    let lane := fun (l : Nat) => if fmtW f = 32 then e l else g (e (2 * l)) (e (2 * l + 1))
    out (.vred x y t) 6 [rG d] (fun ws => ws = [.g d (BitVec.ofNat 32
      (g (g (g (lane 0) (lane 1)) (g (lane 2) (lane 3))) (g (g (lane 4) (lane 5)) (g (lane 6) (lane 7)))))]))
  ∧ (CanIssue .vperm s x y t k b h rest →
    out (.vperm x y t) 1 [rV d] (fun ws => ∃ r : VecReg, ws = [.v d r] ∧ ∀ i < 8,
      laneOf r i = laneOf (opVA .vperm s x y b h) (fld (gReg b (iB w)) (3 * i) 3)))
  ∧ (CanIssue .vext s x y t k b h rest →
    out (.vext x y t) 1 [rG d] (fun ws => ws = [.g d (laneOf (opVA .vext s x y b h) (fld w 0 3))]))
  ∧ (CanIssue .vlane s x y t k b h rest →
    out (.vlane x y t) 1 [rV d] (fun ws => ∃ r : VecReg, ws = [.v d r] ∧ ∀ i < 8,
      laneOf r i = if i = fld w 0 3 then opB .vlane s x y b h else laneOf old i))
  ∧ (CanIssue .vtest s x y t k b h rest →
    Issues (.vtest x y t) s k .v rest (fun b' => IssueKeeps b b' ∧ b'.flights = b.flights ++ (if fld w 16 3 = 0 then []
      else [⟨t + 1, [rP (fld w 16 3)], if predOf b w then
        [.p (fld w 16 3) ((List.range 256).any (fun i => (opVA .vtest s x y b h).getLsbD i && (opVB .vtest s x y b h).getLsbD i))]
        else []⟩])))
  ∧ (CanIssue .vins s x y t k b h rest → wordOk w = true →
    out (.vins x y t) 1 [rV d] (fun ws => ∃ r : VecReg, ws = [.v d r] ∧ ∀ i < 8,
      laneOf r i = if fld w 2 3 ≤ i ∧ i < fld w 2 3 + 2 ^ fld w 0 2
        then flitVal ((poppedBy .vins b h).getD (i - fld w 2 3) {}) else laneOf old i)))

/-- Vector integer instructions give the results of their rules. R142, R151, R152: an instruction of class 0x7 that may issue gives v[D], L tcyc later, the rule's result: element by element for the
arithmetic, shifts and compares, bit by bit for the others. -/
def Obligations.VectorIntIssue : Prop :=
  (∀ op ∈ [BOp.vadd, .vsub, .vmul, .vshl, .vshr, .vsra, .vmin, .vmax, .vcmpeq, .vcmplt],
    ∀ (s : State) (x : Fin 1104) (y : Fin 560) (t k : Nat) (b : Brick) (h : QEntry) (rest : List QEntry),
      CanIssue op s x y t k b h rest → wordOk h.word = true →
      let n := if fld h.word 26 4 = 7 then 8 else 32
      Issues (issueCmd op x y t) s k .v rest (fun b' => IssueKeeps b b' ∧
        ∃ ws, b'.flights = b.flights ++ [⟨t + (if op = .vmul then 2 else 1), [rV (iD h.word)], ws⟩] ∧
          if predOf b h.word then
            ∃ d : VecReg, ws = [.v (iD h.word) d] ∧ ∀ i < 256 / n,
              elemAt n d.toNat i = viSpec op n (bitAt h.word 25) (bitAt h.word 24) (elemAt n (opVA op s x y b h).toNat i)
                (elemAt n (opVB op s x y b h).toNat i)
          else ws = []))
  ∧ (∀ op ∈ [BOp.vmov, .vand, .vor, .vxor, .vandn, .vsel],
    ∀ (s : State) (x : Fin 1104) (y : Fin 560) (t k : Nat) (b : Brick) (h : QEntry) (rest : List QEntry),
      CanIssue op s x y t k b h rest →
      Issues (issueCmd op x y t) s k .v rest (fun b' => IssueKeeps b b' ∧
        ∃ ws, b'.flights = b.flights ++ [⟨t + 1, [rV (iD h.word)], ws⟩] ∧
          if predOf b h.word then
            ∃ d : VecReg, ws = [.v (iD h.word) d] ∧ ∀ i < 256, d.getLsbD i
              = vbitSpec op (opVA op s x y b h) (opVB op s x y b h) (vReg b (fld h.word 16 4)) i
          else ws = []))

/-- Tensor instructions queue their updates, load their registers, read their rows. R163, R165-R167, R171, R172, R174: TMV and TMMA with a true predicate put one update behind those of their accumulator, with the
operands as they stand at issue, due after 6 tcyc (7 in FP32) or 5 after the array is free; either holds the array for its beats.
R168-R170, R172: TLDX gives XL and XSC, TSCL half of W_SC, the bytes of their source one tcyc later; TDRV gives v[D] the rows it reads,
converted, two tcyc later, and with CLR clears them at once; TZERO and TSETR put one update behind those of their accumulator, due one
tcyc later. -/
def Obligations.TensorIssue : Prop :=
  (∀ (s : State) (x : Fin 1104) (y : Fin 560) (t k : Nat) (b : Brick) (h : QEntry) (rest : List QEntry),
  let w := h.word
  let fp32 := fld w 26 4 = 5
  (CanIssue .tmv s x y t k b h rest →
    let a := memAddr b (opCtx s x y b h) .tmv h
    let j := (fld w 11 5 + (if bitAt w 21 then h.ri0.toNat else 0)) % 32
    (predOf b w = true → a < 0xC000 ∧ a % 32 = 0 ∧ (sramHealth b a 32).2 = none) →
    Issues (.tmv x y t) s k .t rest (fun b' =>
      IssueKeeps b { b' with arrayFree := b.arrayFree, updates := b.updates } ∧ b'.flights = b.flights
        ∧ b'.arrayFree = t + (if fp32 then 2 else 1)
        ∧ b'.updates = b.updates ++ (if predOf b w then [⟨t + (if fp32 then 7 else 6), iD w,
            .tmv (fld w 26 4) (fld w 22 4) (2 * j) (BitVec.ofNat 256 (sramVal b a 32)) b.xl (wscB b (2 * j)) (wscB b (2 * j + 1))
              b.xsc.toNat⟩] else [])))
  ∧ (CanIssue .tmma s x y t k b h rest →
    Issues (.tmma x y t) s k .t rest (fun b' =>
      IssueKeeps b { b' with arrayFree := b.arrayFree, updates := b.updates } ∧ b'.flights = b.flights
        ∧ b'.arrayFree = t + (if fp32 then 64 else 32)
        ∧ b'.updates = b.updates ++ (if predOf b w then [⟨t + (if fp32 then 69 else 37), iD w,
            .tmma (fld w 26 4) (fld w 22 4) (tile b (iA w)) (tile b (iB w)) ((List.range 16).map (wscB b))⟩] else []))))
  ∧ (∀ (s : State) (x : Fin 1104) (y : Fin 560) (t k : Nat) (b : Brick) (h : QEntry) (rest : List QEntry),
  let w := h.word
  (∀ op ∈ [BOp.tldx, .tscl], CanIssue op s x y t k b h rest →
    let a := memAddr b (opCtx s x y b h) op h
    (predOf b w = true → bitAt w 29 = false → a < 0xC000 ∧ a % 32 = 0 ∧ (sramHealth b a 32).2 = none) →
    let byte := fun (i : Nat) => if bitAt w 29 then BitVec.ofNat 8 (elemAt 8 (vReg b (iA w)).toNat i) else sget 0 b.sram (a + i)
    Issues (issueCmd op x y t) s k .t rest (fun b' => IssueKeeps b b' ∧
      ∃ ws, b'.flights = b.flights ++ [⟨t + 1, [if op = .tldx then rXL else rWSC], ws⟩] ∧
        if predOf b w then
          (if op = .tldx then ∃ v c, ws = [.xl v c] ∧ c = byte 16 ∧ ∀ i < 16, BitVec.ofNat 8 (elemAt 8 v.toNat i) = byte i
           else ws = [.wsc (32 * fld w 24 1) ((List.range 32).map byte)])
        else ws = []))
  ∧ (CanIssue .tdrv s x y t k b h rest → ∀ f, iFMT w = some f → 0 < tdrvRows f →
    let row := 8 * fld w 19 3
    Issues (.tdrv x y t) s k .t rest (fun b' => IssueKeeps b { b' with acc := b.acc } ∧
      (∃ ws, b'.flights = b.flights ++ [⟨t + 2, [rV (iD w)], ws⟩] ∧
        if predOf b w then ∃ r : VecReg, ws = [.v (iD w) r] ∧ ∀ i < 256 / fmtW f, elemAt (fmtW f) r.toNat i
            = fconv (if bitAt w 25 then .int32 else .fp32) f (bitAt w 24) (bitAt w 23) 0 (accW b (iA w) (row + i)).toNat % 2 ^ fmtW f
        else ws = [])
      ∧ ∀ j, sget 0 b'.acc j = if predOf b w = true ∧ bitAt w 22 = true ∧ accIx (iA w) row ≤ j ∧ j < accIx (iA w) row + 8 * tdrvRows f
          then 0 else sget 0 b.acc j))
  ∧ (CanIssue .tzero s x y t k b h rest →
    Issues (.tzero x y t) s k .t rest (fun b' => IssueKeeps b { b' with updates := b.updates } ∧ b'.flights = b.flights
      ∧ b'.updates = b.updates ++ (if predOf b w then [⟨t + 1, iD w, .zero⟩] else [])))
  ∧ (CanIssue .tsetr s x y t k b h rest →
    Issues (.tsetr x y t) s k .t rest (fun b' => IssueKeeps b { b' with updates := b.updates } ∧ b'.flights = b.flights
      ∧ b'.updates = b.updates ++ (if predOf b w then [⟨t + 1, iD w, .setr (fld w 19 3) (vReg b (iA w))⟩] else []))))

/-- Releases and updates write exactly their results. R113, R67: RESULT_RELEASE lets the oldest issued instruction whose latency has passed write its results and frees its destinations:
each register written takes its value, p0 takes none, every other keeps its own, and no memory changes. R166, R167, R170, R172:
ACCUM_UPDATE_COMPLETE applies an accumulator's oldest update, once it is due, whatever updates of other accumulators are still
under way: TZERO's zeros, TSETR's row, TMV's two elements, the
later after the earlier, TMMA's sixty-four; every other element keeps its value. Model's choices it rests on: log 11. -/
def Obligations.ResultsWritten : Prop :=
  (∀ (s : State) (x : Fin 1104) (y : Fin 560) (t k : Nat) (b : Brick) (pre post : List Flight) (f : Flight),
    keyOf s x y = some k → clkRuns s (fieldOf x y) = true → b.st ≠ .stopped → b.st ≠ .quarantined →
    brickAt (getB s k) t = some b → b.flights = pre ++ f :: post → (∀ g ∈ pre, t < g.due) → f.due ≤ t →
    ∃ u, exec (.resultRelease x y t) s = .next u ∧ u.resp = .done ∧ IssueFrame s u k ∧
      (getB u k).flights = pre ++ post
      ∧ { getB u k with flights := b.flights, g := b.g, p := b.p, v := b.v, wsc := b.wsc, xl := b.xl, xsc := b.xsc } = b
      ∧ (f.writes = [] → getB u k = { b with flights := pre ++ post })
      ∧ (∀ n w, f.writes = [.g n w] → ∀ m, gReg (getB u k) m = if m = n then w else gReg b m)
      ∧ (∀ n w, f.writes = [.v n w] → ∀ m, vReg (getB u k) m = if m = n then w else vReg b m)
      ∧ (∀ n c, f.writes = [.p n c] → ∀ m, m < 8 → pReg (getB u k) m = if m = n ∧ n ≠ 0 then c else pReg b m)
      ∧ (∀ v c, f.writes = [.xl v c] → (getB u k).xl = v ∧ (getB u k).xsc = c))
  ∧ (∀ (s : State) (x : Fin 1104) (y : Fin 560) (t k : Nat) (b : Brick) (z : Upd) (pre post : List Upd),
    keyOf s x y = some k → clkRuns s (fieldOf x y) = true → b.st ≠ .stopped → b.st ≠ .quarantined →
    brickAt (getB s k) t = some b → b.updates = pre ++ z :: post → (∀ a ∈ pre, t < a.due ∧ a.acc ≠ z.acc) → z.due ≤ t → z.acc < 4 →
    (match z.op with | .tmv _ _ e _ _ _ _ _ => e < 63 | .setr r _ => r < 8 | _ => True) →
    ∃ u, exec (.accumUpdateComplete x y t) s = .next u ∧ u.resp = .done ∧ IssueFrame s u k
      ∧ { getB u k with updates := b.updates, acc := b.acc } = b ∧ (getB u k).updates = pre ++ post
      ∧ (∀ n e, n ≠ z.acc → n < 4 → e < 64 → accW (getB u k) n e = accW b n e)
      ∧ ∀ e < 64, accW (getB u k) z.acc e =
          (match z.op with
            | .zero => 0
            | .setr r v => if e / 8 = r then laneOf v (e % 8) else accW b z.acc e
            | .tmv fw fx j w v s0 s1 sx =>
              if e = j then macElem fw fx s0 sx (accW b z.acc j) (fld w 0 128) v.toNat
              else if e = j + 1 then macElem fw fx s1 sx (accW b z.acc (j + 1)) (fld w 128 128) v.toNat
              else accW b z.acc e
            | .tmma fa fb ta tb sc =>
              macElem fa fb (sc.getD (e / 8) 0) (sc.getD (8 + e % 8) 0) (accW b z.acc e) (fld ta (128 * (e / 8)) 128)
                (fld tb (128 * (e % 8)) 128)))

/-- The fetch unit dispatches, repeats and stops. R57, R68, R112, R126-R128: DISPATCH of a valid word puts it at the end of its queue, due two tcyc on, with the indices of the two
innermost levels, and moves the fetch position on; a full queue holds it. REPI and REPG with a count above 0 open a level at the next
word; with a count of 0 they go on past their block; REPG waits for its register. HALT stops the fetch where it is. Model's choices it
rests on: log 14, 65. -/
def Obligations.DispatchFetches : Prop :=
  ∀ (s : State) (x : Fin 1104) (y : Fin 560) (t k : Nat) (b : Brick),
    keyOf s x y = some k → clkRuns s (fieldOf x y) = true → b.st = .running ∨ b.st = .draining → brickAt (getB s k) t = some b →
    b.haltDisp = false → marked b 3 = false → b.pc < 2048 → sget 0 b.pmemEcc b.pc = 0 →
    let w := sget 0 b.pmem b.pc
    let ri := fun (i : Nat) => ((b.rpt[i]?).map (fun l => BitVec.ofNat 32 l.idx)).getD 0#32
    wordOk w = true →
    (∀ op q, iBOp w = some op → op ≠ .repi → op ≠ .repg → q = queOp op →
      ((queGet b q).length < 8 → ∃ u, exec (.dispatch x y t) s = .next u ∧ u.resp = .done ∧ IssueFrame s u k
        ∧ queGet (getB u k) q = queGet b q ++ [⟨b.seqNext, b.pc, w, ri 0, ri 1, t + 2⟩]
        ∧ (∀ r, r ≠ q → queGet (getB u k) r = queGet b r)
        ∧ (op = .halt → (getB u k).haltDisp = true ∧ (getB u k).pc = b.pc ∧ (getB u k).rpt = b.rpt)
        ∧ (op ≠ .halt → b.rpt = [] → (getB u k).pc = b.pc + 1)
        ∧ (∀ l r, op ≠ .halt → b.rpt = l :: r → l.last ≠ b.pc → (getB u k).pc = b.pc + 1 ∧ (getB u k).rpt = b.rpt)
        ∧ (∀ l r, op ≠ .halt → b.rpt = l :: r → l.last = b.pc → 1 < l.left →
            (getB u k).pc = l.first ∧ (getB u k).rpt = { l with left := l.left - 1, idx := l.idx + 1 } :: r)
        ∧ { getB u k with qS := b.qS, qV := b.qV, qT := b.qT, seqNext := b.seqNext, used := b.used, haltDisp := b.haltDisp,
                          dispStall := b.dispStall, pc := b.pc, rpt := b.rpt } = b)
      ∧ (8 ≤ (queGet b q).length → ∃ u, exec (.dispatch x y t) s = .next u ∧ u.resp = .held ∧ IssueFrame s u k
        ∧ getB u k = { b with dispStall := true }))
    ∧ (∀ c ∈ [Instr.repi x y t, .dispatch x y t], iBOp w = some .repi → b.rpt.length < 4 → 0 < iIMM w →
      ∃ u, exec c s = .next u ∧ u.resp = .done ∧ IssueFrame s u k ∧ (getB u k).pc = b.pc + 1
        ∧ (getB u k).rpt = ⟨b.pc + 1, b.pc + fld w 16 11, iIMM w, 0⟩ :: b.rpt
        ∧ { getB u k with pc := b.pc, rpt := b.rpt, used := b.used, cnt := b.cnt, dispStall := b.dispStall } = b)
    ∧ (∀ c ∈ [Instr.repg x y t, .dispatch x y t], iBOp w = some .repg → writePending b (rG (iA w)) = false → b.rpt.length < 4 →
      0 < (gReg b (iA w)).toNat →
      ∃ u, exec c s = .next u ∧ u.resp = .done ∧ IssueFrame s u k ∧ (getB u k).pc = b.pc + 1
        ∧ (getB u k).rpt = ⟨b.pc + 1, b.pc + fld w 16 11, (gReg b (iA w)).toNat, 0⟩ :: b.rpt
        ∧ { getB u k with pc := b.pc, rpt := b.rpt, used := b.used, cnt := b.cnt, dispStall := b.dispStall } = b)
    ∧ (∀ c ∈ [Instr.repi x y t, .repg x y t], iBOp w = some .repi ∧ c = .repi x y t ∧ iIMM w = 0
        ∨ iBOp w = some .repg ∧ c = .repg x y t ∧ writePending b (rG (iA w)) = false ∧ gReg b (iA w) = 0 → b.rpt = [] →
      ∃ u, exec c s = .next u ∧ u.resp = .done ∧ IssueFrame s u k ∧ (getB u k).rpt = [] ∧ (getB u k).pc = b.pc + fld w 16 11 + 1)
    ∧ (iBOp w = some .repg → writePending b (rG (iA w)) = true →
      ∃ u, exec (.repg x y t) s = .next u ∧ u.resp = .held ∧ IssueFrame s u k ∧ getB u k = { b with dispStall := true })

/-- Stream control words and loop ends act on their context alone. R222-R226, R231: SBASE, SLOOP, SSTRIDE, SBANK, SGATE and SSTOP do to the context the unit takes what the table of R224 says; the
loop-end steps follow every word but SLOOP and SSTOP; the pointer goes to the context after it. SGATE pops one entry, and NF of its
port takes the entry's null marker (R62). No other context changes. R225, R235: after a word that ends no open body the next word follows; where the innermost body ends and its
FILL action finds DONE set, the context waits there; else the action sets DONE, and the level goes on at its first word with ADDR and
index stepped, or closes, ADDR put back, and the next level out is treated. Model's choices it rests on: log 18. -/
def Obligations.StreamControlWords : Prop :=
  (∀ (s : State) (x : Fin 1104) (y : Fin 560) (t k : Nat) (b : Brick) (j : Nat),
  let c := getCtx b j
  let w := stProg b c.pc
  let out := fun (ins : Instr) (c' : Ctx) (cb' : SMap Cb) (P : Brick → Prop) => Acts ins s k (fun b' =>
    (∀ i, getCtx b' i = if i = j then c' else getCtx b i) ∧ b'.stPtr = (j + 1) % 4 ∧ b'.cb = cb' ∧ P b')
  let same := fun (b' : Brick) => { b' with ctx := b.ctx, stPtr := b.stPtr, used := b.used, cb := b.cb } = b
  let fin := fun (ins : Instr) (c' : Ctx) => out ins (loopEnd t 5 false b c').2 (loopEnd t 5 false b c').1.cb same
  (StreamTurn .sbase s x y t k b j → fin (.sbase x y t) { c with addr := fld w 0 16 })
  ∧ (StreamTurn .sstride s x y t k b j →
      fin (.sstride x y t) { c with strides := sset 0 c.strides (fld w 26 2) (BitVec.ofInt 32 (4 * sx 16 (fld w 0 16))) })
  ∧ (StreamTurn .sbank s x y t k b j →
      fin (.sbank x y t) { c with bankEn := bitAt w 27, bankRot := bitAt w 26, bankL := fld w 24 2, bankB := fld w 0 2 })
  ∧ (StreamTurn .sloop s x y t k b j → out (.sloop x y t) { c with
      loops := ⟨c.pc + 1, c.pc + fld w 23 5, fld w 0 16, 0, bitAt w 22, fld w 19 3⟩ :: c.loops, pc := (c.pc + 1) % 32 } b.cb same)
  ∧ (StreamTurn .sstop s x y t k b j → out (.sstop x y t) { c with phase := .done } b.cb same)
  ∧ (StreamTurn .sgate s x y t k b j →
      out (.sgate x y t) (loopEnd t 5 false b c).2 (loopEnd t 5 false b c).1.cb (fun b' =>
        (∀ n, portQ b' n = if n = fld w 25 3 then (portQ b n).drop 1 else portQ b n)
        ∧ (∀ n < 8, b'.nf.getLsbD n = if n = fld w 25 3 then ((portQ b n).headD {}).null else b.nf.getLsbD n)
        ∧ same { b' with ports := b.ports, credFly := b.credFly, cnt := b.cnt, nf := b.nf })))
  ∧ (∀ (t n : Nat) (b : Brick) (c : Ctx),
  (∀ acted, c.loops = [] ∨ (∃ l r, c.loops = l :: r ∧ l.last ≠ c.pc) →
    loopEnd t (n + 1) acted b c = (b, { c with pc := (c.pc + 1) % 32, ending := false }))
  ∧ (∀ l r, c.loops = l :: r → l.last = c.pc → l.fill = true → cbDoneAt b l.cb t = true →
    loopEnd t (n + 1) false b c = (b, { c with ending := true }))
  ∧ (∀ l r, c.loops = l :: r → l.last = c.pc → (l.fill = true → cbDoneAt b l.cb t = false) →
    let st := (sget 0 c.strides r.length).toInt
    ∃ b1, (∀ i, sget {} b1.cb i
        = if l.fill = true ∧ i = l.cb then { sget {} b.cb i with done := true, chg := t + 1 } else sget {} b.cb i)
      ∧ { b1 with cb := b.cb } = b
      ∧ (l.n = 0 ∨ l.idx + 1 < l.n → loopEnd t (n + 1) false b c = (b1, { c with
          addr := (((c.addr : Int) + st) % 65536).toNat
          loops := { l with idx := if l.n = 0 then (l.idx + 1) % 65536 else l.idx + 1 } :: r, pc := l.first, ending := false }))
      ∧ (l.n ≠ 0 ∧ l.n ≤ l.idx + 1 → loopEnd t (n + 1) false b c
          = loopEnd t n false b1 { c with addr := (((c.addr : Int) - ((l.n : Int) - 1) * st) % 65536).toNat, loops := r })))

/-- Stream moves, gathers and far requests move their words. R227-R230, R238, R650, R181: a move, gather or far request whose address breaks no limit and whose words are readable. EMIT sends the
words at EA, lower address first, against as many credits, EOM by R229; LAND writes the entries it pops at EA, a null one as 0 or not
at all, and no other byte; a pop sets NF of its port to the last entry's null marker; SGATHER sends the words its index selects, or null flits; SFAR sends its first word and keeps the other
seven. R238, R235, R247: SFAR_FLIT sends the next word of a request against a credit, the eighth with EOM, after which the context goes
on; FILL_ACTION, once DONE is clear, sets it and the loop end goes on. Model's choices it rests on: log 17, 18, 30. -/
def Obligations.StreamDataMoves : Prop :=
  (∀ (s : State) (x : Fin 1104) (y : Fin 560) (t k : Nat) (b : Brick) (j : Nat),
  let c := getCtx b j
  let w := stProg b c.pc
  let le := fun (cb : SMap Cb) => loopEnd t 5 false { b with cb := cb } c
  let keeps := fun (b' : Brick) => { b' with ctx := b.ctx, stPtr := b.stPtr, used := b.used, cb := b.cb, cnt := b.cnt } = b
  let ctx := fun (b' : Brick) (c' : Ctx) => (∀ i, getCtx b' i = if i = j then c' else getCtx b i) ∧ b'.stPtr = (j + 1) % 4
  let sent := fun (b' : Brick) (sl : Nat) (fs : List Flit) =>
    (∀ i, sget [] b'.fifos i = if i = 128 + sl then sget [] b.fifos i ++ fs else sget [] b.fifos i)
    ∧ (∀ i, sget 0 b'.sndCred i = if i = sl then sget 0 b.sndCred i - fs.length else sget 0 b.sndCred i)
  let words := fun (ea n : Nat) (eom : Bool) =>
    (List.range n).map (fun i => (⟨sramWord b (ea + 4 * i), false, eom && i + 1 == n, t + 1 + i⟩ : Flit))
  let popped := fun (b' : Brick) (p n : Nat) => (∀ q, portQ b' q = if q = p then (portQ b q).drop n else portQ b q)
    ∧ ∀ q < 8, b'.nf.getLsbD q = if q = p then ((portQ b q).getD (n - 1) {}).null else b.nf.getLsbD q
  (∀ ea, StreamTurn .emit s x y t k b j → sAddr b c .emit w = .at_ ea → (sramHealth b ea (4 * 2 ^ fld w 25 2)).2 = none →
    Acts (.emit x y t) s k (fun b' => ctx b' (le b.cb).2 ∧ b'.cb = (le b.cb).1.cb
      ∧ sent b' (fld w 12 5) (words ea (2 ^ fld w 25 2) (emitEom c w))
      ∧ keeps { b' with fifos := b.fifos, sndCred := b.sndCred }))
  ∧ (∀ ea, StreamTurn .land s x y t k b j → sAddr b c .land w = .at_ ea → fld w 25 2 < 3 →
      (sramHealth b ea (4 * 2 ^ fld w 25 2)).2 = none →
    let n := 2 ^ fld w 25 2
    let fs := (portQ b (fld w 12 3)).take n
    let skip := fun (f : Flit) => bitAt w 17 && f.null
    let cb' := if bitAt w 24 = true ∧ ¬ fs.all skip = true
      then smod {} b.cb (fld w 21 3) (fun v => { v with filling := true }) else b.cb
    Acts (.land x y t) s k (fun b' => ctx b' (le cb').2 ∧ b'.cb = (le cb').1.cb ∧ popped b' (fld w 12 3) n
      ∧ (∀ a, sget 0 b'.sram a =
          (match fs[(a - ea) / 4]? with
          | some f => if a < ea then sget 0 b.sram a else if skip f then sget 0 b.sram a
              else BitVec.ofNat 8 ((flitVal f).toNat / 256 ^ ((a - ea) % 4))
          | none => sget 0 b.sram a))
      ∧ keeps { b' with ports := b.ports, credFly := b.credFly, nf := b.nf, sram := b.sram, sramEcc := b.sramEcc }))
  ∧ (StreamTurn .sgather s x y t k b j →
    let n := if bitAt w 19 then 2 else 1
    let sl := fld w 20 5
    let rest := fun (b' : Brick) (fs : List Flit) => ctx b' (le b.cb).2 ∧ b'.cb = (le b.cb).1.cb ∧ popped b' (fld w 25 3) 1
      ∧ sent b' sl fs ∧ keeps { b' with ports := b.ports, credFly := b.credFly, nf := b.nf, fifos := b.fifos, sndCred := b.sndCred }
    (∀ ea, sAddr b c .sgather w = .at_ ea → (sramHealth b ea (4 * n)).2 = none →
      Acts (.sgather x y t) s k (fun b' => rest b' (words ea n false)))
    ∧ (sAddr b c .sgather w = .none →
      Acts (.sgather x y t) s k (fun b' => rest b' ((List.range n).map (fun i => ⟨0, true, false, t + 1 + i⟩)))))
  ∧ (∀ ea, StreamTurn .sfar s x y t k b j → sAddr b c .sfar w = .at_ ea → (sramHealth b ea 32).2 = none →
    let sl := fld w 16 5
    Acts (.sfar x y t) s k (fun b' => ctx b' { c with farSlot := sl, farLeft := (List.range 7).map (fun i => sramWord b (ea + 4 + 4 * i)) }
      ∧ b'.cb = b.cb ∧ sent b' sl [⟨sramWord b ea, false, false, t + 1⟩]
      ∧ keeps { b' with fifos := b.fifos, sndCred := b.sndCred })))
  ∧ (∀ (s : State) (x : Fin 1104) (y : Fin 560) (t k : Nat) (b : Brick) (j : Fin 4), CanAct s x y t k b → marked b (70 + j.val) = false →
  let c := getCtx b j
  let one := fun (b' : Brick) (c' : Ctx) => ∀ i, getCtx b' i = if i = j.val then c' else getCtx b i
  let keeps := fun (b' : Brick) => { b' with ctx := b.ctx, used := b.used, cb := b.cb, cnt := b.cnt } = b
  (∀ v r, c.farLeft = v :: r → sget 0 b.sndCred c.farSlot ≠ 0 → b.st = .running ∨ b.st = .draining ∨ b.st = .halted ∨ b.st = .faulted →
    Acts (.sfarFlit x y t j) s k (fun b' =>
      one b' (if r = [] ∧ c.phase = .active then (loopEnd t 5 false b { c with farLeft := [] }).2 else { c with farLeft := r })
      ∧ b'.cb = (if r = [] ∧ c.phase = .active then (loopEnd t 5 false b { c with farLeft := [] }).1.cb else b.cb)
      ∧ (∀ i, sget [] b'.fifos i = if i = 128 + c.farSlot then sget [] b.fifos i ++ [⟨v, false, r.isEmpty, t + 1⟩] else sget [] b.fifos i)
      ∧ (∀ i, sget 0 b'.sndCred i = if i = c.farSlot then sget 0 b.sndCred i - 1 else sget 0 b.sndCred i)
      ∧ keeps { b' with fifos := b.fifos, sndCred := b.sndCred }))
  ∧ (∀ l r, c.loops = l :: r → c.ending = true → c.phase = .active → streamRuns b = true → cbDoneAt b l.cb t = false →
    let b1 := { b with cb := smod {} b.cb l.cb (fun v => { v with done := true, chg := t + 1 }) }
    Acts (.fillAction x y t j) s k (fun b' => one b' (loopEnd t 5 true b1 { c with ending := false }).2
      ∧ b'.cb = (loopEnd t 5 true b1 { c with ending := false }).1.cb ∧ keeps b')))

/-- Routers forward flits and return credits. R59, R181, R185-R189: FLIT_FORWARD on clean wires takes the head of the slot that the procedure of R189 grants next, spends one credit
of each branch and puts the flit where each branch leads: a port, the router input of the neighbour, the tie, the edge bridge; its
buffer's credit starts back, and the output's pointer goes past the slot; a tie is taken for the 2 tcyc of its transfer (R197), an
edge bridge numbers the flit and keeps it until it is acknowledged (R204). No other brick, slot, port or bridge changes. R185, R186,
R59: CREDIT_RETURN brings the oldest credit that has travelled to its holder, on clean wires: the branch that feeds a port, the sender
of a local slot, the neighbour's branch, the tie's or the edge bridge's count of buffers taken. Nothing else moves. -/
def Obligations.FlitsAndCreditsMove : Prop :=
  (∀ (s : State) (x : Fin 1104) (y : Fin 560) (t k : Nat) (b : Brick) (out ix : Nat) (f : Flit), CanAct s x y t k b →
    disabledSlot s x y b t = none → nextGrant s x y b t = some (out, ix) → headAt b ix t = some f →
    let bs := slotBranches b ix
    let edge := edgeKey x (y != 0)
    let sentTo := fun (d n : Nat) (v : Flit) => (bs.filter (fun br => br.dir == d && br.next == n)).map (fun _ => v)
    ∃ u, exec (.flitForward x y t 0 0) s = .next u ∧ u.resp = .done
      ∧ { u with resp := s.resp, bricks := s.bricks, ties := s.ties, edges := s.edges, boards := s.boards, fields := s.fields } = s
      ∧ (∀ n, BoardButMoved (getBd u n) (getBd s n)) ∧ (∀ g, FieldButAct (getField u g) (getField s g))
      ∧ (∀ i, fifoOf (getB u k) i = if i = ix then (fifoOf b i).drop 1 else fifoOf b i)
      ∧ (∀ n, portQ (getB u k) n = portQ b n ++ sentTo 4 n { f with due := t + 1 })
      ∧ (getB u k).credFly = b.credFly ++ [⟨t + 1, ix⟩]
      ∧ (∀ i < 160, ∀ br < 2, sget 0 (getB u k).cred (credKey i br)
          = if i = ix ∧ br < bs.length then sget 0 b.cred (credKey i br) - 1 else sget 0 b.cred (credKey i br))
      ∧ (∀ o, sget 0 (getB u k).rr o = if o = out then (ix + 1) % 160 else sget 0 b.rr o)
      ∧ { getB u k with fifos := b.fifos, ports := b.ports, credFly := b.credFly, cred := b.cred, rr := b.rr, fseq := b.fseq,
                        used := b.used } = b
      ∧ (∀ d < 4, ∀ x' y', neighbour x y d = some (x', y') → fieldOf x y = fieldOf x' y' → ∀ k', keyOf s x' y' = some k' →
          (∀ n < 32, fifoOf (getB u k') (32 * facing d + n) = fifoOf (getB s k') (32 * facing d + n) ++ sentTo d n { f with due := t + 1 })
          ∧ (∀ i, i / 32 ≠ facing d → fifoOf (getB u k') i = fifoOf (getB s k') i)
          ∧ { getB u k' with fifos := (getB s k').fifos } = getB s k')
      ∧ (∀ d < 4, ∀ x' y', neighbour x y d = some (x', y') → fieldOf x y ≠ fieldOf x' y' →
          getTie u (tieKey x' y' (facing d)) = { getTie s (tieKey x' y' (facing d)) with
            out := (getTie s (tieKey x' y' (facing d))).out ++ (bs.filter (fun br => br.dir == d)).map (fun br => ⟨0, br.next, f⟩)
            busyT := if bs.any (fun br => br.dir == d) then t + tieGap s (fieldOf x y) (fieldOf x' y')
              else (getTie s (tieKey x' y' (facing d))).busyT })
      ∧ (∀ q, (∀ d < 4, ∀ x' y', neighbour x y d = some (x', y') → q ≠ tieKey x' y' (facing d)) → getTie u q = getTie s q)
      ∧ (∀ q, getEdge u q = if q = edge then { getEdge s edge with
          out := (bs.filter (fun br => br.dir == 5 || br.dir == 6)).foldl (fun c br => crossSend c (br.dir - 5) br.next f) (getEdge s edge).out }
        else getEdge s q)
      ∧ (∀ j, j ≠ k → (∀ d < 4, ∀ x' y', neighbour x y d = some (x', y') → keyOf s x' y' ≠ some j) → getB u j = getB s j))
  ∧ (∀ (s : State) (x : Fin 1104) (y : Fin 560) (t k : Nat) (b : Brick) (pre post : List CredFly) (c : CredFly), CanAct s x y t k b →
    b.credFly = pre ++ c :: post → (∀ p ∈ pre, t < p.due) → c.due ≤ t → c.loc < 464 →
    let i := c.loc / 32
    let sl := c.loc % 32
    let plus := fun (b b' : Brick) (d n : Nat) => ∀ q, sget 0 b'.cred q = if holderOf b d n = some q then sget 0 b.cred q + 1 else sget 0 b.cred q
    let own := fun (b' : Brick) => { b' with credFly := b.credFly, used := b.used } = b
    ∃ u, exec (.creditReturn x y t 0) s = .next u ∧ u.resp = .done
      ∧ { u with resp := s.resp, bricks := s.bricks, ties := s.ties, edges := s.edges, boards := s.boards, fields := s.fields } = s
      ∧ (∀ n, BoardButMoved (getBd u n) (getBd s n)) ∧ (∀ g, FieldButAct (getField u g) (getField s g))
      ∧ (getB u k).credFly = pre ++ post
      ∧ (∀ q, q ≠ tieKey x y i → getTie u q = getTie s q) ∧ (∀ q, q ≠ edgeKey x (y != 0) → getEdge u q = getEdge s q)
      ∧ (∀ j, j ≠ k → (∀ x' y', neighbour x y i = some (x', y') → keyOf s x' y' ≠ some j) → getB u j = getB s j)
      ∧ (400 ≤ c.loc → own (getB u k) ∧ ∀ q, sget 0 (getEdge u (edgeKey x (y != 0))).medSpent q
          = if q = c.loc - 400 then sget 0 (getEdge s (edgeKey x (y != 0))).medSpent q - 1 else sget 0 (getEdge s (edgeKey x (y != 0))).medSpent q)
      ∧ (300 ≤ c.loc ∧ c.loc < 400 → plus b (getB u k) (5 + (c.loc - 300) / 32) ((c.loc - 300) % 32) ∧ own { getB u k with cred := b.cred })
      ∧ (160 ≤ c.loc ∧ c.loc < 300 → plus b (getB u k) 4 (c.loc - 160) ∧ own { getB u k with cred := b.cred })
      ∧ (c.loc < 160 → i = 4 → (∀ q, sget 0 (getB u k).sndCred q = if q = sl then sget 0 b.sndCred q + 1 else sget 0 b.sndCred q)
          ∧ own { getB u k with sndCred := b.sndCred })
      ∧ (i < 4 → edgeInput y i = true → own (getB u k) ∧ ∀ q, sget 0 (getEdge u (edgeKey x (y != 0))).spent q
          = if q = sl then sget 0 (getEdge s (edgeKey x (y != 0))).spent q - 1 else sget 0 (getEdge s (edgeKey x (y != 0))).spent q)
      ∧ (∀ x' y', i < 4 → edgeInput y i = false → neighbour x y i = some (x', y') → fieldOf x y = fieldOf x' y' → ∀ k', keyOf s x' y' = some k' →
          plus (getB s k') (getB u k') (facing i) sl ∧ { getB u k' with cred := (getB s k').cred } = getB s k' ∧ own (getB u k))
      ∧ (∀ x' y', i < 4 → edgeInput y i = false → neighbour x y i = some (x', y') → fieldOf x y ≠ fieldOf x' y' →
          own (getB u k) ∧ ∀ q, sget 0 (getTie u (tieKey x y i)).spent q
            = if q = sl then sget 0 (getTie s (tieKey x y i)).spent q - 1 else sget 0 (getTie s (tieKey x y i)).spent q))

/-- Stream limits, bad routes, damaged flits and expert framing fault. R226, R247, R257, R72: a move, gather or far request whose address breaks a limit faults with FAULT_STREAM, one that reads an
uncorrectable word with FAULT_DED; the context is FAULTED, the unit stops, the brick is FAULTED, the first cause since load is
recorded, data SRAM keeps every byte and no flit is sent. R193, R191, R615: a flit at a disabled entry, as every entry of a brick
in no loaded board is, is discarded, whatever the brick's state, and its brick faults with FAULT_ROUTE, the slot and input in its
detail; one that an in-field link damages beyond correction is lost, and the brick
that receives it faults with FAULT_LINK. R327, R346, R350: an entry whose EOM does not stand where LEN says stops its queue with
FAULT_EXPERT, cause FRAMING; a scatter header whose DEST is not below TSIZE stops the engine with cause DEST. The brick is FAULTED,
data SRAM keeps every byte, no flit is sent, and the first cause since load is recorded. Model's choices it rests on: log 16, 17, 21. -/
def Obligations.UnitFaults : Prop :=
  (∀ p ∈ [(SOp.emit, 0), (.land, 1), (.sgather, 2), (.sfar, 3)],
  ∀ (s : State) (x : Fin 1104) (y : Fin 560) (t k : Nat) (b : Brick) (j cause v code d : Nat), StreamTurn p.1 s x y t k b j →
    let ins := if p.2 = 0 then Instr.emit x y t else if p.2 = 1 then .land x y t else if p.2 = 2 then .sgather x y t else .sfar x y t
    let c := getCtx b j
    let w := stProg b c.pc
    let rec0 := packW [(0, 16, v), (17, 5, c.pc), (22, 2, j), (24, 4, cause), (31, 1, 1)]
    (sAddr b c p.1 w = .breach cause v ∧ code = 0x06 ∧ d = rec0.toNat
      ∨ p.1 ≠ .land ∧ (∃ ea, sAddr b c p.1 w = .at_ ea ∧ (sramHealth b ea (4 * sWords p.1 w)).2 = some d ∧ v = ea % 65536)
        ∧ cause = 6 ∧ code = 0x10) →
    Acts ins s k (fun b' => b'.st = .faulted ∧ b'.stStop = true ∧ (getCtx b' j).phase = .faulted
      ∧ (∀ i, i ≠ j → getCtx b' i = getCtx b i)
      ∧ obsW b' 0x8AC = (if bitAt (obsW b 0x8AC) 31 then obsW b 0x8AC else rec0)
      ∧ b'.sram = b.sram ∧ b'.fifos = b.fifos ∧ b'.sndCred = b.sndCred ∧ b'.g = b.g ∧ b'.v = b.v ∧ b'.pc = b.pc)
    ∧ ∀ u, exec ins s = .next u → ∃ r, u.raised = s.raised ++ [r] ∧ r.code = code ∧ r.brick = some (x.val, y.val) ∧ r.detail = BitVec.ofNat 32 d)
  ∧ ((∀ (s : State) (x : Fin 1104) (y : Fin 560) (t k : Nat) (b : Brick) (ix : Nat) (e0 e1 : Fin 3), keyOf s x y = some k →
    clkRuns s (fieldOf x y) = true → brickAt (getB s k) t = some b → ix < 160 → disabledSlot s x y b t = some ix →
    ∃ u, exec (.flitForward x y t e0 e1) s = .next u ∧ u.resp = .done ∧ IssueFrame s u k
      ∧ (getB u k).st = (if b.st = .quarantined then .quarantined else .faulted)
      ∧ (∀ i, fifoOf (getB u k) i = if i = ix then (fifoOf b i).drop 1 else fifoOf b i)
      ∧ (getB u k).credFly = (if b.st = .stopped ∨ b.st = .quarantined then b.credFly else b.credFly ++ [⟨t + 1, ix⟩])
      ∧ ∃ r, u.raised = s.raised ++ [r] ∧ r.code = 0x08 ∧ r.brick = some (x.val, y.val)
        ∧ fld r.detail 0 5 = ix % 32 ∧ fld r.detail 5 3 = ix / 32)
  ∧ (∀ (s : State) (x : Fin 1104) (y : Fin 560) (t k : Nat) (b : Brick) (out ix : Nat) (f : Flit) (br : Branch) (x' y' k' : Nat),
    CanAct s x y t k b → disabledSlot s x y b t = none → nextGrant s x y b t = some (out, ix) → headAt b ix t = some f →
    slotBranches b ix = [br] → br.dir < 4 → neighbour x y br.dir = some (x', y') →
    fieldOf x y = fieldOf x' y' → keyOf s x' y' = some k' → (getB s k').st ≠ .quarantined →
    ∃ u, exec (.flitForward x y t 2 0) s = .next u ∧ u.resp = .done ∧ (getB u k').st = .faulted
      ∧ (getB u k').linkDed.getLsbD (facing br.dir) = true ∧ (getB u k').fifos = (getB s k').fifos
      ∧ ∃ r, u.raised = s.raised ++ [r] ∧ r.code = 0x11 ∧ r.brick = some (x', y') ∧ r.detail = BitVec.ofNat 32 (facing br.dir)))
  ∧ (∀ (s : State) (x : Fin 1104) (y : Fin 560) (t k : Nat) (b : Brick) (q : Nat) (c : Instr), CanAct s x y t k b → q < 4 →
    let e := getEq b q
    let out := fun (w : Word) (stops : Brick → Prop) => ∃ u, exec c s = .next u ∧ u.resp = .done ∧ IssueFrame s u k
      ∧ (getB u k).st = .faulted ∧ (getB u k).sram = b.sram ∧ (getB u k).fifos = b.fifos ∧ stops (getB u k)
      ∧ obsW (getB u k) 0x8FC = (if bitAt (obsW b 0x8FC) 31 then obsW b 0x8FC else w)
      ∧ ∃ r, u.raised = s.raised ++ [r] ∧ r.code = 0x07 ∧ r.brick = some (x.val, y.val) ∧ r.detail = w
    (∀ p f rest ix, c = .eqTake x y t → takePort b t = some p → eqOfPort b p = some q → portQ b p = f :: rest →
      ix = (match sfind e.opens p with | some o => o.taken | none => 0) → f.eom ≠ decide (ix + 1 = eqLen b q) →
      out (packW [(23, 3, p), (26, 2, q), (28, 3, 1), (31, 1, 1)]) (fun b' => (getEq b' q).stopped = true ∧ portQ b' p = rest))
    ∧ (∀ v r, let a := slotAddr b q v.slot 0
      let dest := fld (sramWord b a) 20 12
      c = .scatterBegin x y t → expertRuns b = true → b.scStop = false → marked b 10 = false → scEn b = true → b.sc = none → scPick b = some q →
      e.order = v :: r → v.whole = true → ((v.marks[0]?).getD (false, false)).1 = false → scBusy s x y b (bankOf a) t = false →
      (sramHealth b a 4).2 = none → scTsize b ≤ dest →
      out (packW [(0, 12, dest), (26, 2, q), (28, 3, 2), (31, 1, 1)]) (fun b' => b'.scStop = true ∧ getEq b' q = e)))

/-- Ties deliver in order, resend and return credits. R195-R199: over a tie that is alive: a new transfer takes the next sequence number and stays in the replay store until acknowledged, a
resent one goes first, each as two beats of its 50-bit word; a word whose CRC is correct and whose number is the expected one lands in
its slot and is acknowledged; any other is discarded and asked for once; a return word, one a tcyc of the receiving field, carries the
oldest freed slot and the oldest acknowledgement: the credit reaches its branch, the acknowledgement drops what it covers; a landed flit
enters the router input against a buffer of its slot, whose landing buffer is credited back. Each changes its tie and what is named, and
nothing else. The word of a transfer, received as it was sent, is correct and gives the transfer back. Model's choices it rests on: log
7, 27, 124. -/
def Obligations.TieTransfers : Prop :=
  (∀ (s : State) (x : Fin 1104) (y : Fin 560) (d : Fin 4) (p : Nat × Nat), tieSender x y d = some p →
    let v := getTie s (tieKey x y d)
    v.dead = false →
    let out := fun (c : Instr) (v' : Tie) (P : State → Prop) => ∃ u, exec c s = .next u ∧ u.resp = .done
      ∧ (∀ q, getTie u q = if q = tieKey x y d then v' else getTie s q) ∧ P u
    let only := fun (u : State) => { u with resp := s.resp, ties := s.ties } = s
    let onlyB := fun (u : State) => { u with resp := s.resp, ties := s.ties, boards := s.boards, fields := s.fields, bricks := s.bricks } = s
      ∧ (∀ n, BoardButMoved (getBd u n) (getBd s n)) ∧ (∀ g, FieldButAct (getField u g) (getField s g))
    (∀ t, clkRuns s (fieldOf p.1 p.2) = true → v.lastSend ≤ t →
      (∀ a r, v.again = a :: r →
        out (.tieTransferSend x y d t) { v with again := r, wire := v.wire ++ [beatsOf (xferWord a)], lastSend := t + 2 }
          (fun u => onlyB u ∧ u.bricks = s.bricks))
      ∧ (∀ o r, v.again = [] → v.out = o :: r → v.replay.length < 16 →
        out (.tieTransferSend x y d t) { v with
          out := r, nextSeq := (v.nextSeq + 1) % 32, replay := v.replay ++ [⟨v.nextSeq, o.slot, o.flit⟩]
          wire := v.wire ++ [beatsOf (xferWord ⟨v.nextSeq, o.slot, o.flit⟩)], lastSend := t + 2 } (fun u => onlyB u ∧ u.bricks = s.bricks)))
    ∧ (∀ w r err, v.wire = w :: r →
      let got := ofBeats w ^^^ err
      let a := xferOf got
      let good := xferOk got = true ∧ a.seq = v.expect
      let other := v.nakOut = true ∧ (xferOf (ofBeats w)).seq ≠ v.expect
      (good → ∃ l', (∀ i, sget [] l' i = if i = a.slot then sget [] v.landing i ++ [a.flit] else sget [] v.landing i) ∧
        out (.tieTransferReceive x y d err) { v with
          wire := r, expect := (v.expect + 1) % 32, nakOut := false, fails := 0, landing := l'
          retAck := v.retAck ++ [.ack a.seq] } (fun u => onlyB u ∧ u.bricks = s.bricks))
      ∧ (¬good → other → out (.tieTransferReceive x y d err) { v with wire := r } only)
      ∧ (¬good → ¬other → v.fails < 7 → out (.tieTransferReceive x y d err) { v with
          wire := r, nakOut := true, fails := v.fails + 1, retries := v.retries + 1
          retAck := v.retAck ++ [.nak v.expect] } (fun u => onlyB u ∧ ∀ j, { getB u j with cnt := (getB s j).cnt } = getB s j)))
    ∧ (∀ t, v.retT ≠ t + 1 → v.retCred ≠ [] ∨ v.retAck ≠ [] → (∀ sl, v.retCred.head? = some sl → sl < 32) →
      let ak := v.retAck.headD .none
      (∀ n, ak = .ack n ∨ ak = .nak n → n < 32) →
      let v1 := { v with retCred := v.retCred.drop 1, retAck := v.retAck.drop 1, retT := t + 1 }
      let v2 := match ak with
        | .none => v1
        | .ack n => { v1 with replay := afterAck n v.replay
                              again := v.again.filter (fun a => (afterAck n v.replay).any (fun c => c.seq == a.seq)) }
        | .nak n => { v1 with again := v.replay.dropWhile (fun a => a.seq != n) }
      out (.tieReturnWord x y d false t 0) v2 (fun u =>
        { u with resp := s.resp, ties := s.ties, bricks := s.bricks } = s
        ∧ (v.retCred = [] ∨ keyOf s p.1 p.2 = none → u.bricks = s.bricks)
        ∧ ∀ sl k', v.retCred.head? = some sl → keyOf s p.1 p.2 = some k' → (∀ j, j ≠ k' → getB u j = getB s j)
          ∧ (∀ q, sget 0 (getB u k').cred q = if holderOf (getB s k') (facing d) sl = some q then sget 0 (getB s k').cred q + 1
              else sget 0 (getB s k').cred q) ∧ { getB u k' with cred := (getB s k').cred } = getB s k'))
    ∧ (∀ t e, v.retT = t + 1 → Waits (.tieReturnWord x y d false t e) s)
    ∧ (∀ (sl : Fin 32) t f r k, sget [] v.landing sl = f :: r → keyOf s x y = some k → sget 0 v.spent sl < slotCap sl → v.moveT ≠ t + 1 →
      clkRuns s (fieldOf x y) = true → ∃ l' p',
        (∀ i, sget [] l' i = if i = sl.val then r else sget [] v.landing i)
        ∧ (∀ i, sget 0 p' i = if i = sl.val then sget 0 v.spent i + 1 else sget 0 v.spent i)
        ∧ out (.tieLandingMove x y d sl t) { v with landing := l', spent := p', moveT := t + 1, retCred := v.retCred ++ [sl.val] }
          (fun u => onlyB u ∧ (∀ j, j ≠ k → getB u j = getB s j)
            ∧ (∀ i, fifoOf (getB u k) i = if i = 32 * d.val + sl.val then fifoOf (getB s k) i ++ [{ f with due := t }] else fifoOf (getB s k) i)
            ∧ { getB u k with fifos := (getB s k).fifos } = getB s k)))
  ∧ (∀ a : Xfer, a.seq < 32 → a.slot < 32 → a.flit.due = 0 →
      ofBeats (beatsOf (xferWord a)) = xferWord a ∧ xferOk (xferWord a) = true ∧ xferOf (xferWord a) = a)

/-- A tie or edge bridge dies after eight failures. R200: the eighth failure in a row of one transfer, or a return word damaged beyond correction, makes the tie dead in both directions,
and the bricks of both ends raise FAULT_TIE; after that no step of the tie changes anything. R204: the eighth failure in a row of a
transfer of either crossing of an edge bridge, or a return word of either damaged beyond correction, makes it dead, and the brick that
faces it raises FAULT_EDGE; after that none of its steps changes anything. Model's choices it rests on: log 24, 27, 124. -/
def Obligations.BridgesDie : Prop :=
  ((∀ (s : State) (x : Fin 1104) (y : Fin 560) (d : Fin 4) (p : Nat × Nat) (c : Instr), tieSender x y d = some p →
    let v := getTie s (tieKey x y d)
    v.dead = false →
    (∃ w r err, c = .tieTransferReceive x y d err ∧ v.wire = w :: r
        ∧ (xferOk (ofBeats w ^^^ err) = false ∨ (xferOf (ofBeats w ^^^ err)).seq ≠ v.expect)
        ∧ (v.nakOut = false ∨ (xferOf (ofBeats w)).seq = v.expect) ∧ 7 ≤ v.fails)
      ∨ (∃ t, c = .tieReturnWord x y d false t 2 ∧ v.retT ≠ t + 1 ∧ (v.retCred ≠ [] ∨ v.retAck ≠ [])) →
    ∃ u, exec c s = .next u ∧ u.resp = .done ∧ (getTie u (tieKey x y d)).dead = true ∧ (getTie u (tieKey p.1 p.2 (facing d))).dead = true
      ∧ (∀ q, q ≠ tieKey x y d → q ≠ tieKey p.1 p.2 (facing d) → getTie u q = getTie s q)
      ∧ (∀ k k', keyOf s x y = some k → keyOf s p.1 p.2 = some k' → ∃ r r', u.raised = s.raised ++ [r, r']
          ∧ r.code = 0x13 ∧ r.brick = some (x.val, y.val) ∧ r'.code = 0x13 ∧ r'.brick = some p
          ∧ (getB u k).bridgeDead.getLsbD d = true))
  ∧ (∀ (s : State) (x : Fin 1104) (y : Fin 560) (d : Fin 4) (t : Nat) (err : BitVec 50) (med : Bool) (e : Fin 3) (sl : Fin 32),
    edgeInput y d = false → (getTie s (tieKey x y d)).dead = true →
    ∀ c ∈ [Instr.tieTransferSend x y d t, .tieTransferReceive x y d err, .tieReturnWord x y d med t e, .tieLandingMove x y d sl t],
      Waits c s))
  ∧ (∀ (s : State) (x : Fin 1104) (south : Bool) (k : Nat) (c : Instr),
    let ek := edgeKey x south
    let v := getEdge s ek
    let y : Fin 560 := if south then 559 else 0
    let i : Fin 4 := if south then 2 else 0
    let fails := fun (q : Crossing) (w err : BitVec 50) => (xferOk (w ^^^ err) = false ∨ (xferOf (w ^^^ err)).seq ≠ q.expect)
      ∧ (q.nakOut = false ∨ (xferOf w).seq = q.expect) ∧ 7 ≤ q.fails
    (keyOf s x y = some k → v.dead = false → (getB s k).st ≠ .quarantined →
      (∃ (lane : Fin 2) (err : BitVec 50) (now : Nat) (w : BitVec 50) (r : List (Nat × BitVec 50)), c = .edgeFlitAccept x south lane err now
          ∧ v.out.wire = (lane.val, w) :: r ∧ fails v.out w err ∧ edgeRuns s = true ∧ (portBoard s (medOf x south) (colOf x)).isSome = true)
        ∨ (∃ (l : Nat) (err w : BitVec 50) (r : List (Nat × BitVec 50)), c = .tieTransferReceive x y i err ∧ v.inn.wire = (l, w) :: r
          ∧ fails v.inn w err)
        ∨ (∃ (med : Bool) (t : Nat), c = .tieReturnWord x y i med t 2 ∧ (if med then v.out.ret else v.inn.ret) ≠ []) →
      ∃ u, exec c s = .next u ∧ u.resp = .done ∧ { u with resp := s.resp, edges := s.edges, bricks := s.bricks, raised := s.raised } = s
        ∧ (∀ q, q ≠ ek → getEdge u q = getEdge s q) ∧ (∀ q, q ≠ k → getB u q = getB s q) ∧ (getB u k).st = .faulted
        ∧ { getEdge u ek with out := v.out, inn := v.inn } = { v with dead := true }
        ∧ (getB u k).bridgeDead.getLsbD i = true ∧ (getB u k).fifos = (getB s k).fifos
        ∧ ∃ r, u.raised = s.raised ++ [r] ∧ r.code = 0x14 ∧ r.brick = some (x.val, y.val))
    ∧ (v.dead = true → ∀ (lane : Fin 2) (err : BitVec 50) (now t : Nat) (med : Bool) (e : Fin 3) (sl : Fin 32),
      ∀ c ∈ [Instr.edgeFlitAccept x south lane err now, .edgeInjectRelease x south lane t, .edgeLandingMove x south sl t,
        .tieTransferReceive x y i err, .tieReturnWord x y i med t e], Waits c s))

/-- Flits cross edge bridges in both directions. R202, R204, R264: EDGE_FLIT_ACCEPT judges the next outward transfer as a tie does: one that is correct and expected is acknowledged and its
flit taken: into its receive slot, or, where that slot discards, away with its buffer's credit started back; at a REQUEST slot with
nothing waiting it joins the record, or, as a good eighth flit, makes the record received; any other is discarded and asked for once.
R203, R204, R276: EDGE_INJECT_RELEASE sends the next flit of the lane's next slot, in turn, that holds one and a landing buffer, as a
transfer kept until acknowledged; an element's last flit counts it as delivered. TIE_TRANSFER_RECEIVE at the edge-facing input lands it.
EDGE_LANDING_MOVE moves a landed flit into the facing router input against a buffer of its slot, and the landing buffer's credit starts
back. Model's choices it rests on: log 27, 31, 124, 125. -/
def Obligations.EdgeCrossings : Prop :=
  (∀ (s : State) (x : Fin 1104) (south : Bool) (lane : Fin 2) (err w : BitVec 50) (now : Nat) (r : List (Nat × BitVec 50)),
    let ek := edgeKey x south
    let e := getEdge s ek
    let m := medOf x south
    let col := colOf x
    let d := getMed s m
    e.out.wire = (lane.val, w) :: r → e.dead = false → edgeRuns s = true → (portBoard s m col).isSome = true →
    let t := xferOf (w ^^^ err)
    let slot := t.slot
    let f : Flit := { t.flit with due := now }
    let key := slotKey col lane slot
    let a := sget [] d.asm key
    let good := xferOk (w ^^^ err) = true ∧ t.seq = e.out.expect
    let other := e.out.nakOut = true ∧ (xferOf w).seq ≠ e.out.expect
    let edge := fun (c : Crossing) (P : State → Prop) => ∃ u, exec (.edgeFlitAccept x south lane err now) s = .next u ∧ u.resp = .done
      ∧ (∀ q, getEdge u q = if q = ek then { e with out := c } else getEdge s q) ∧ P u
    let out := fun (freed : Bool) (P : Med → Prop) =>
      edge { e.out with wire := r, expect := (e.out.expect + 1) % 32, nakOut := false, fails := 0, ret := e.out.ret ++ [.ack t.seq] } (fun u =>
        { u with resp := s.resp, bricks := s.bricks, edges := s.edges, meds := s.meds, boards := s.boards } = s
        ∧ (∀ n, BoardButMoved (getBd u n) (getBd s n))
        ∧ (∀ q, q ≠ m → getMed u q = getMed s q) ∧ P (getMed u m)
        ∧ (∀ k, getB u k = if freed = true ∧ keyOf s (medX m col) (medY m) = some k
            then { getB s k with credFly := (getB s k).credFly ++ [⟨(getB s k).useT + 1, 300 + 32 * lane + slot⟩] } else getB s k))
    (good → key ∈ d.discard → out true (fun d' => d' = d))
    ∧ (good → key ∉ d.discard → sget 0 d.discardN key ≠ 0 → out true (fun d' =>
        (∀ i, sget 0 d'.discardN i = if i = key then sget 0 d.discardN i - 1 else sget 0 d.discardN i) ∧ { d' with discardN := d.discardN } = d))
    ∧ (good → key ∉ d.discard → sget 0 d.discardN key = 0 → sget 0 d.role key ≠ 1 → out false (fun d' =>
        (∀ i, sget [] d'.rx i = if i = key then sget [] d.rx i ++ [f] else sget [] d.rx i) ∧ { d' with rx := d.rx } = d))
    ∧ (good → key ∉ d.discard → sget 0 d.discardN key = 0 → sget 0 d.role key = 1 → sget [] d.rx key = [] → a.length < 7 → out true (fun d' =>
        (∀ i, sget [] d'.asm i = if i = key then a ++ [f] else sget [] d.asm i) ∧ (∀ i, sget [] d'.rx i = sget [] d.rx i)
        ∧ { d' with rx := d.rx, asm := d.asm } = d))
    ∧ (good → key ∉ d.discard → sget 0 d.discardN key = 0 → sget 0 d.role key = 1 → sget [] d.rx key = [] → a.length = 7 →
      (∀ g ∈ a, g.eom = false ∧ g.null = false) → f.eom = true → f.null = false → recordBad d col lane ((a ++ [f]).map (·.data)) false = false →
      out true (fun d' => d'.recs = insertRec ⟨now, key, (a ++ [f]).map (·.data)⟩ d.recs
        ∧ (∀ i, sget [] d'.asm i = if i = key then a ++ [f] else sget [] d.asm i)
        ∧ (∀ i, sget [] d'.rx i = sget [] d.rx i) ∧ { d' with rx := d.rx, asm := d.asm, recs := d.recs } = d))
    ∧ (¬good → other → edge { e.out with wire := r } (fun u => { u with resp := s.resp, edges := s.edges } = s))
    ∧ (¬good → ¬other → e.out.fails < 7 →
      edge { e.out with wire := r, nakOut := true, fails := e.out.fails + 1, ret := e.out.ret ++ [.nak e.out.expect] }
        (fun u => { u with resp := s.resp, edges := s.edges } = s)))
  ∧ (∀ (s : State) (x : Fin 1104) (south : Bool) (t : Nat),
    let ek := edgeKey x south
    let e := getEdge s ek
    let m := medOf x south
    let col := colOf x
    let d := getMed s m
    let y : Fin 560 := if south then 559 else 0
    let i : Fin 4 := if south then 2 else 0
    (∀ (lane : Fin 2) (sl : Nat) (f : InjEntry) (r : List InjEntry),
      let key := slotKey col lane sl
      e.dead = false → edgeRuns s = true → sget 0 e.relT lane ≠ t + 1 → e.inn.replay.length < 16 →
      (slotTurn (sget 31 e.lastSlot lane)).find? (fun q =>
        !(sget [] d.inj (slotKey col lane q)).isEmpty && decide (sget 0 e.medSpent q < edgeCap q)) = some sl → sget [] d.inj key = f :: r →
      ∃ u, exec (.edgeInjectRelease x south lane t) s = .next u ∧ u.resp = .done
        ∧ { u with resp := s.resp, edges := s.edges, meds := s.meds, boards := s.boards } = s
        ∧ (∀ n, BoardButMoved (getBd u n) (getBd s n)) ∧ (∀ q, q ≠ ek → getEdge u q = getEdge s q) ∧ (∀ q, q ≠ m → getMed u q = getMed s q)
        ∧ (let a : Xfer := ⟨e.inn.nextSeq, sl, f.flit⟩
           (getEdge u ek).inn = { e.inn with
             nextSeq := (e.inn.nextSeq + 1) % 32, replay := e.inn.replay ++ [(lane.val, a)], wire := e.inn.wire ++ [(lane.val, xferWord a)] })
        ∧ (∀ q, sget 0 (getEdge u ek).medSpent q = if q = sl then sget 0 e.medSpent q + 1 else sget 0 e.medSpent q)
        ∧ (∀ q, sget 31 (getEdge u ek).lastSlot q = if q = lane.val then sl else sget 31 e.lastSlot q)
        ∧ { getEdge u ek with inn := e.inn, medSpent := e.medSpent, lastSlot := e.lastSlot, relT := e.relT } = e
        ∧ (∀ q, sget [] (getMed u m).inj q = if q = key then r else sget [] d.inj q)
        ∧ { getMed u m with inj := d.inj, desc := d.desc } = d
        ∧ (∀ h, sget {} (getMed u m).desc h = if f.tag = some (h, true)
            then { sget {} d.desc h with
              delivered := (sget {} d.desc h).delivered + 1
              phase := if (sget {} d.desc h).delivered + 1 = descTotal (sget {} d.desc h) then .closing else (sget {} d.desc h).phase }
            else sget {} d.desc h))
    ∧ (∀ (l : Nat) (err w : BitVec 50) (r : List (Nat × BitVec 50)), e.inn.wire = (l, w) :: r → e.dead = false →
      let a := xferOf (w ^^^ err)
      xferOk (w ^^^ err) = true → a.seq = e.inn.expect →
      ∃ u, exec (.tieTransferReceive x y i err) s = .next u ∧ u.resp = .done ∧ { u with resp := s.resp, edges := s.edges, boards := s.boards } = s
        ∧ (∀ n, BoardButMoved (getBd u n) (getBd s n)) ∧ (∀ q, q ≠ ek → getEdge u q = getEdge s q)
        ∧ (getEdge u ek).inn = { e.inn with
            wire := r, expect := (e.inn.expect + 1) % 32, nakOut := false, fails := 0, ret := e.inn.ret ++ [.ack a.seq] }
        ∧ (∀ q, sget [] (getEdge u ek).landing q = if q = a.slot then sget [] e.landing q ++ [a.flit] else sget [] e.landing q)
        ∧ { getEdge u ek with inn := e.inn, landing := e.landing } = e)
    ∧ (∀ (sl : Fin 32) (f : Flit) (r : List Flit) (k : Nat),
      let moved := if e.moveT = t + 1 then e.moved else []
      sget [] e.landing sl = f :: r → keyOf s x y = some k → e.dead = false → sget 0 e.spent sl < slotCap sl → sl.val ∉ moved → moved.length < 2 →
      clkRuns s (fieldOf x y) = true →
      ∃ u, exec (.edgeLandingMove x south sl t) s = .next u ∧ u.resp = .done
        ∧ { u with resp := s.resp, edges := s.edges, bricks := s.bricks, boards := s.boards } = s
        ∧ (∀ n, BoardButMoved (getBd u n) (getBd s n)) ∧ (∀ q, q ≠ ek → getEdge u q = getEdge s q) ∧ (∀ q, q ≠ k → getB u q = getB s q)
        ∧ (∀ q, sget [] (getEdge u ek).landing q = if q = sl.val then r else sget [] e.landing q)
        ∧ (∀ q, sget 0 (getEdge u ek).spent q = if q = sl.val then sget 0 e.spent q + 1 else sget 0 e.spent q)
        ∧ { getEdge u ek with landing := e.landing, spent := e.spent, moveT := e.moveT, moved := e.moved } = e
        ∧ (∀ q, fifoOf (getB u k) q = if q = 32 * i.val + sl.val then fifoOf (getB s k) q ++ [{ f with due := t }] else fifoOf (getB s k) q)
        ∧ (getB u k).credFly = (getB s k).credFly ++ [⟨t + 1, 400 + sl.val⟩]
        ∧ { getB u k with fifos := (getB s k).fifos, credFly := (getB s k).credFly } = getB s k))

/-- Edge dies carry flits to rings, queues and slots. R267, R268, R289, R309, R364, R592, R603: the head flit of an EGRESS slot becomes a record of its board's queue, or enters the send
ring of its Stesy slot, a closed one discarding it, and its buffer is returned to its brick; records written to an INJECT slot by the
Lexicon unit or the Steward enter its store, all of them or, FULL, none, and a master that may not write there is a violation. Model's
choices it rests on: log 36. -/
def Obligations.FlitsCrossEdgeDies : Prop :=
  (∀ (s : State) (x : Fin 1104) (south : Bool) (lane : Fin 2) (slot : Fin 32) (f : Flit) (r : List Flit) (b : Nat),
    let m := medOf x south
    let d := getMed s m
    let key := slotKey (colOf x) lane slot
    let ch := sget 0 d.chan key
    sget [] d.rx key = f :: r → portBoard s m (colOf x) = some b → edgeRuns s = true → sget 0 d.role key = 3 →
    let takes := fun (i : Instr) (P : State → Prop) => ∃ u, exec i s = .next u ∧ u.resp = .done
      ∧ { u with resp := s.resp, heds := s.heds, meds := s.meds, bricks := s.bricks, boards := s.boards } = s
      ∧ (∀ n, BoardButMoved (getBd u n) (getBd s n)) ∧ (∀ j, { getMed u j with rx := (getMed s j).rx } = getMed s j)
      ∧ (∀ j k, sget [] (getMed u j).rx k = if j = m ∧ k = key then r else sget [] (getMed s j).rx k)
      ∧ (∀ k, { getB u k with credFly := (getB s k).credFly } = getB s k)
      ∧ (∀ k, (getB u k).credFly = if keyOf s (medX m (colOf x)) (medY m) = some k then
            (getB s k).credFly ++ [⟨(getB s k).useT + 1, 300 + 32 * lane.val + slot.val⟩] else (getB s k).credFly) ∧ P u
    let hed := getHed s (b / 4)
    let sl := getSlot s (b / 4) (ch - 1)
    (ch = 0 → egrCount hed b < 256 → takes (.egressForward x south lane slot) (fun u =>
      let p := egrProd hed b
      let hed' := getHed u (b / 4)
      egrProd hed' b = (p + 1) % 2 ^ 32 ∧ readLE hed'.sram (egrBase b + 8 * (p % 256)) 8 = f.data.toNat + 2 ^ 32 * b2n f.null + 2 ^ 33 * b2n f.eom
      ∧ (∀ a, ¬(egrBase b + 8 * (p % 256) ≤ a ∧ a < egrBase b + 8 * (p % 256) + 8) → ¬(egrBase b + 0x800 ≤ a ∧ a < egrBase b + 0x804) →
          sget 0 hed'.sram a = sget 0 hed.sram a)
      ∧ { hed' with sram := hed.sram, sramEcc := hed.sramEcc } = hed ∧ ∀ h, h ≠ b / 4 → getHed u h = getHed s h))
    ∧ (ch = 0 → 256 ≤ egrCount hed b → Waits (.egressForward x south lane slot) s)
    ∧ (ch ≠ 0 → sl.closed = true → takes (.stesyEgressForward x south lane slot) (fun u => u.heds = s.heds))
    ∧ (ch ≠ 0 → sl.closed = false → sl.ring.length < 64 → takes (.stesyEgressForward x south lane slot) (fun u =>
      SlotBecomes s u (b / 4) (ch - 1) { sl with ring := sl.ring ++ [f] }))
    ∧ (ch ≠ 0 → sl.closed = false → 64 ≤ sl.ring.length → Waits (.stesyEgressForward x south lane slot) s))
  ∧ (∀ (s : State) (mst : RimMaster) (m : Fin 8) (ofs : Nat) (recs : List (BitVec 64)),
    let col := ofs / 0x1000
    let key := slotKey col (ofs / 0x800 % 2) (ofs / 0x40 % 32)
    let q := sget [] (getMed s m).inj key
    let b := (portBoard s m col).getD 0
    let ok := col < 276 ∧ sget 0 (getMed s m).injRole key = 2 ∧ portBoard s m col ≠ none
      ∧ (mst = .steward ∨ ∃ h b', mst = .lexicon h b' ∧ portBoard s m col = some b'.val)
    let c := Instr.waferWindowWrite mst m ofs recs
    edgeRuns s = true → recs ≠ [] → ofs % 8 = 0 → ofs % 0x40 + 8 * recs.length ≤ 64 → rimCtxOk mst = true →
    (ok → q.length + recs.length ≤ 16 → (getBd s b).smDeclared = false → ∃ u, exec c s = .next u ∧ u.resp = .room (16 - q.length - recs.length) false
      ∧ { u with resp := s.resp, meds := s.meds, boards := s.boards } = s ∧ (∀ n, BoardButMoved (getBd u n) (getBd s n))
      ∧ (∀ j, { getMed u j with inj := (getMed s j).inj } = getMed s j)
      ∧ ∀ j k, sget [] (getMed u j).inj k = if j = m.val ∧ k = key then
          q ++ recs.map (fun v => { flit := { data := v.extractLsb' 0 32, null := bitAt v 32, eom := bitAt v 33 } }) else sget [] (getMed s j).inj k)
    ∧ (ok → 16 < q.length + recs.length ∨ (getBd s b).smDeclared = true → exec c s = .next { s with resp := .room (16 - q.length) true })
    ∧ (¬ok → ∃ u, exec c s = .next u ∧ u.resp = .violation ∧ { u with resp := s.resp, flt := s.flt } = s))

/-- Descriptors open, complete and free their slots. R265, R266, R279, R242: RECORD_ACCEPT of the first received record whose board has a free slot on its engine opens a descriptor there, with
the fields of its record, in the lowest free slot, and assembly of its REQUEST slot may go on; COMPLETION_ISSUE of a closing descriptor sends the completion flit of an ACK request, or writes a submission's record into the
log (64 records; a later one is lost), signals the board's vector where the submission asked for it, and frees the slot. ENGINE_QUIESCENT clears the board's beat of the
engine. Model's choices it rests on: log 25, 28. -/
def Obligations.DescriptorLife : Prop :=
  (∀ (s : State) (m : Fin 8) (r : Rec) (b slot : Nat),
    let d := getMed s m
    let col := r.key / 64
    edgeRuns s = true → medOn s m = true →
    d.recs.find? (fun q => match portBoard s m (q.key / 64) with
      | some b => (getBd s b).st != .resetting && (freeDesc d (colEngine (q.key / 64)) b).isSome
      | none => false) = some r →
    portBoard s m col = some b → freeDesc d (colEngine col) b = some slot →
    ∃ u, exec (.recordAccept m) s = .next u ∧ u.resp = .done
      ∧ (∀ n, BoardButMoved (getBd u n) (getBd s n)) ∧ (∀ q, q ≠ m.val → getMed u q = getMed s q)
      ∧ (getMed u m).accNext = d.accNext + 1 ∧ (getMed u m).inj = d.inj ∧ (getMed u m).dram = d.dram
      ∧ (∀ h, sfind (getMed u m).desc h = if h = descKey (colEngine col) b slot
          then some { descOf r.words with col := col, lane := (r.key / 32) % 2, acc := d.accNext } else sfind d.desc h)
      ∧ (sget [] d.rx r.key = [] → { u with resp := s.resp, meds := s.meds, boards := s.boards } = s
        ∧ (getMed u m).recs = d.recs.filter (fun q => q.key != r.key)
        ∧ (∀ i, sget [] (getMed u m).asm i = if i = r.key then [] else sget [] d.asm i)
        ∧ { getMed u m with recs := d.recs, asm := d.asm, desc := d.desc, accNext := d.accNext } = d))
  ∧ (∀ (s : State) (m : Fin 8) (e : Fin 4) (b slot : Fin 16) (c : Desc),
    let d := getMed s m
    let key := descKey e b slot
    let rk := slotKey c.col c.rlane c.rslot
    let w : Word := BitVec.ofNat 32 (c.status % 4 * 2 ^ 30 + c.tag % 128 * 2 ^ 23 + c.delivered % 2 ^ 23)
    sfind d.desc key = some c → c.phase = .closing → edgeRuns s = true →
    (c.host = false ∧ c.ack = true → (sget [] d.inj rk).length < 16) →
    (∃ u, exec (.completionIssue m e b slot) s = .next u ∧ u.resp = .done
      ∧ (∀ n, BoardButMoved (getBd u n) (getBd s n)) ∧ (∀ q, q ≠ m.val → getMed u q = getMed s q)
      ∧ { u with resp := s.resp, meds := s.meds, boards := s.boards, fns := s.fns, toHost := s.toHost } = s
      ∧ (if c.host = true ∧ c.irq = true then u.fns = (sigBoard s b).fns ∧ u.toHost = (sigBoard s b).toHost
         else u.fns = s.fns ∧ u.toHost = s.toHost)
      ∧ sfind (getMed u m).desc key = none ∧ (∀ h, h ≠ key → sfind (getMed u m).desc h = sfind d.desc h)
      ∧ (∀ i, sget [] (getMed u m).inj i = if i = rk ∧ c.host = false ∧ c.ack = true
          then sget [] d.inj i ++ [{ flit := { data := w, eom := true } }] else sget [] d.inj i)
      ∧ (∀ i, getWin (getMed u m) i = if i = b.val ∧ c.host = true ∧ c.logged = false
          then (if (getWin d i).cpl.length < 64 then { getWin d i with cpl := (getWin d i).cpl ++ [w] } else { getWin d i with lost := true })
          else getWin d i)
      ∧ { getMed u m with desc := d.desc, inj := d.inj, wins := d.wins } = d))
  ∧ (∀ (s : State) (m : Fin 8) (e : Fin 4) (b : Fin 16), edgeRuns s = true → (sget 0 (getMed s m).busy e).testBit b = true →
    ∃ u, exec (.engineQuiescent m e b) s = .next u ∧ u.resp = .done ∧ { u with resp := s.resp, meds := s.meds } = s
      ∧ (∀ q, q ≠ m.val → getMed u q = getMed s q) ∧ { getMed u m with busy := (getMed s m).busy } = getMed s m
      ∧ ∀ i n, (sget 0 (getMed u m).busy i).testBit n = ((sget 0 (getMed s m).busy i).testBit n && !(i == e.val && n == b.val)))

/-- Engines move elements, or stop their descriptor. R272, R276, R277, R240, R259: ENGINE_BEAT moves the next element of the descriptor the engine grants, whose pages translate and whose
words are readable: a READ's bytes become flits of its return slot, a WRITE's flits become bytes of DRAM, KIND 3, 4 and 5 move between
DRAM and HED SRAM or within DRAM; one more element has been granted. Only the MED, that HED's SRAM and counts change. R269-R272, R280,
R284: an element outside 0 to 2^48 - 1, or one whose pages do not translate, stops its descriptor FAULTED with the cause of R272; an
uncorrectable word stops it in ERROR and the board faults with FAULT_MEM_DED. Nothing else of the MED's data, stores and descriptors
changes. R283: one that stops while its board's drain runs its pipelines empty is abandoned at once. Model's choices it rests on: log 26, 29, 31. -/
def Obligations.EngineMoves : Prop :=
  (∀ (s : State) (m : Fin 8) (e : Fin 4) (b slot : Nat) (c : Desc) (ps : List (Nat × Nat)),
    let d := getMed s m
    let key := descKey e b slot
    let q := quotaW s m b
    let a := elemVa c c.issued
    edgeRuns s = true → medOn s m = true → d.selfRefresh = false → engineTurn s d e = some (b, slot) → sfind d.desc key = some c →
    0 ≤ a → a + c.esz ≤ 2 ^ 48 →
    transSpan d q a.toNat c.esz (if c.kind = 1 ∨ c.kind = 2 then some (colClass m c.col) else none) (c.kind = 2 ∨ c.kind = 4) = .ok ps →
    let rk := slotKey c.col c.lane c.dslot
    let ij := slotKey c.col c.rlane c.rslot
    let out := fun (whole : Bool) (P : State → Prop) => ∃ u, exec (.engineBeat m e) s = .next u ∧ u.resp = .done
      ∧ { u with resp := s.resp, meds := s.meds, heds := s.heds, bricks := s.bricks, boards := s.boards, fields := s.fields } = s
      ∧ (∀ n, BoardButMoved (getBd u n) (getBd s n)) ∧ (∀ n, FieldButAct (getField u n) (getField s n))
      ∧ (∀ n, n ≠ m.val → getMed u n = getMed s n)
      ∧ (∀ h, sfind (getMed u m).desc h = if h = key then some { c with
            issued := c.issued + 1
            delivered := c.delivered + (if whole then 1 else 0)
            phase := if c.delivered + (if whole then 1 else 0) = descTotal c then .closing else .running } else sfind d.desc h)
      ∧ { getMed u m with desc := d.desc, busy := d.busy, rrBoard := d.rrBoard, rrSlot := d.rrSlot, dram := d.dram, ecc := d.ecc, ce := d.ce,
                          eccLast := d.eccLast, inj := d.inj, rx := d.rx } = d
      ∧ (sget 0 (getMed u m).busy e).testBit b = true ∧ P u
    let still := fun (u : State) => u.heds = s.heds ∧ u.bricks = s.bricks
    (∀ d1 bs, c.kind = 1 → readSpan d ps = (d1, bs, none) → out false (fun u => still u ∧ (getMed u m).dram = d.dram
      ∧ (getMed u m).rx = d.rx
      ∧ ∀ i, sget [] (getMed u m).inj i
          = if i = ij then sget [] d.inj i ++ elemFlits key bs (c.issued + 1 == descTotal c) else sget [] d.inj i))
    ∧ (∀ d1, c.kind = 2 → writeSpan d ps (((sget [] d.rx rk).take (c.esz / 4)).flatMap
        (fun f => bytesLE 4 (if f.null then 0 else f.data.toNat))) = (d1, none) → out true (fun u => u.heds = s.heds
      ∧ (getMed u m).dram = d1.dram ∧ (getMed u m).inj = d.inj
      ∧ (∀ i, sget [] (getMed u m).rx i = if i = rk then (sget [] d.rx i).drop (c.esz / 4) else sget [] d.rx i)
      ∧ ∀ j, { getB u j with credFly := (getB s j).credFly } = getB s j))
    ∧ (∀ d1 bs, c.kind = 3 → readSpan d ps = (d1, bs, none) → out true (fun u => u.bricks = s.bricks ∧ (getMed u m).dram = d.dram
      ∧ (getMed u m).inj = d.inj ∧ (getMed u m).rx = d.rx ∧ (∀ h, h ≠ b / 4 → getHed u h = getHed s h)
      ∧ { getHed u (b / 4) with sram := (getHed s (b / 4)).sram, sramEcc := (getHed s (b / 4)).sramEcc } = getHed s (b / 4)
      ∧ ∀ i, sget 0 (getHed u (b / 4)).sram i = (if c.other + c.esz * c.issued ≤ i
          then (bs[i - (c.other + c.esz * c.issued)]?).getD (sget 0 (getHed s (b / 4)).sram i) else sget 0 (getHed s (b / 4)).sram i)))
    ∧ (∀ d1, c.kind = 4 → writeSpan d ps (readBytes 0 (getHed s (b / 4)).sram (c.other + c.esz * c.issued) c.esz) = (d1, none) →
      out true (fun u => still u ∧ (getMed u m).dram = d1.dram ∧ (getMed u m).inj = d.inj ∧ (getMed u m).rx = d.rx))
    ∧ (∀ pd d1 bs d2, c.kind = 5 → transSpan d q (c.other + c.esz * c.issued) c.esz none true = .ok pd → readSpan d ps = (d1, bs, none) →
      writeSpan d1 pd bs = (d2, none) →
      out true (fun u => still u ∧ (getMed u m).dram = d2.dram ∧ (getMed u m).inj = d.inj ∧ (getMed u m).rx = d.rx)))
  ∧ (∀ (s : State) (m : Fin 8) (e : Fin 4) (b slot : Nat) (c : Desc),
    let d := getMed s m
    let key := descKey e b slot
    let a := elemVa c c.issued
    let tr := transSpan d (quotaW s m b) a.toNat c.esz (if c.kind = 1 ∨ c.kind = 2 then some (colClass m c.col) else none)
      (c.kind = 2 ∨ c.kind = 4)
    edgeRuns s = true → medOn s m = true → d.selfRefresh = false → engineTurn s d e = some (b, slot) → sfind d.desc key = some c →
    let out := fun (c' : Desc) (P : State → Prop) => pastInputs s b = false → ∃ u, exec (.engineBeat m e) s = .next u ∧ u.resp = .done
      ∧ (∀ n, n ≠ m.val → getMed u n = getMed s n) ∧ (∀ h, sfind (getMed u m).desc h = if h = key then some c' else sfind d.desc h)
      ∧ { getMed u m with desc := d.desc, wins := d.wins, ce := d.ce, eccLast := d.eccLast } = d ∧ u.bricks = s.bricks ∧ u.heds = s.heds ∧ P u
    let faulted := fun (n : Nat) => out { c with phase := .faulted, cause := n } (fun u =>
      (∀ i, getWin (getMed u m) i = if i = b then { getWin d i with faults := (getWin d i).faults ++ [descHandle key] } else getWin d i)
      ∧ u.raised = s.raised)
    (a < 0 ∨ (2 ^ 48 : Int) < a + c.esz → faulted 2)
    ∧ (0 ≤ a → a + c.esz ≤ (2 ^ 48 : Int) → ∀ f, tr = .error f → (∀ p, f ≠ .ded p) →
        faulted (match f with | .format => 1 | .notMapped => 2 | .outOfQuota => 3 | .unreachable => 4 | .readOnly => 5 | .ded _ => 0))
    ∧ (∀ pfn, 0 ≤ a → a + c.esz ≤ (2 ^ 48 : Int) →
        tr = .error (.ded pfn) ∨ (∃ ps d1 bs, tr = .ok ps ∧ (c.kind = 1 ∨ c.kind = 3) ∧ readSpan d ps = (d1, bs, some pfn)) →
        out { c with phase := .error } (fun u => (∀ i, getWin (getMed u m) i = getWin d i)
          ∧ ∃ r, u.raised = s.raised ++ [r] ∧ r.code = 0x15 ∧ r.board = some b ∧ fld r.detail 16 4 = m.val ∧ fld r.detail 0 14 = pfn % 2 ^ 14))
    ∧ (pastInputs s b = true → a < 0 ∨ (2 ^ 48 : Int) < a + c.esz ∨ (∃ f, tr = .error f) →
        ∃ u, exec (.engineBeat m e) s = .next u ∧ u.resp = .done ∧ (∀ n, n ≠ m.val → getMed u n = getMed s n)
          ∧ (getBd u b).abandonedDesc = true ∧ (∀ h, h ≠ key → sfind (getMed u m).desc h = sfind d.desc h)
          ∧ (c.ack = false ∨ c.host = true → sfind (getMed u m).desc key = none)
          ∧ ∀ c', sfind (getMed u m).desc key = some c' → c'.phase = .closing ∧ c'.status = 2 ∧ c'.logged = true ∧ c'.delivered = c.delivered))

/-- DRAM words and the windows of boards. R259, R284, R294: a DRAM read of words that are all correctable answers the bytes, and one that meets an uncorrectable word answers its
frame and no bytes; a write whose partly covered words are correctable writes exactly its bytes, makes every word it touches good, and
keeps the others; else it writes nothing. SCRUB writes a corrected word back and counts it, records an uncorrectable one, and leaves a
good one. R273-R275, R281, R295, R296: MED_DESC_GO opens a host descriptor in the lowest free slot of its engine, or reports FULL or
REJECTED; a RESUME lets a faulted descriptor go on; a write of MED_PT_HI writes the table entry; MED_CPL gives the oldest record and
removes it; MED_FLT_SEL captures a stopped descriptor. The engine's registers are served while its clock is enabled, to the board's own
function and the PF. Model's choices it rests on: log 3, 29, 32, 33, 35. -/
def Obligations.MemoryWindows : Prop :=
  ((∀ (d : Med) (pa n : Nat),
    ((∀ w ∈ wordsTouched pa n, sget 0 d.ecc w.1 < 2) → (dramRead d pa n).2 = (readBytes 0 d.dram pa n, none))
    ∧ (∀ w ∈ wordsTouched pa n, 2 ≤ sget 0 d.ecc w.1 → ∃ p, (dramRead d pa n).2 = ([], some p))
    ∧ { (dramRead d pa n).1 with ce := d.ce, eccLast := d.eccLast } = d)
  ∧ (∀ (d : Med) (pa : Nat) (bs : List Byte),
    let r := dramWrite d pa bs
    ((∀ w ∈ wordsTouched pa bs.length, w.2 = false → sget 0 d.ecc w.1 < 2) → r.2 = none
      ∧ (∀ i, sget 0 r.1.dram i = if pa ≤ i then (bs[i - pa]?).getD (sget 0 d.dram i) else sget 0 d.dram i)
      ∧ (∀ w, sget 0 r.1.ecc w = if w ∈ (wordsTouched pa bs.length).map (·.1) then 0 else sget 0 d.ecc w))
    ∧ (∀ w ∈ wordsTouched pa bs.length, w.2 = false → 2 ≤ sget 0 d.ecc w.1 → (∃ p, r.2 = some p) ∧ r.1.dram = d.dram ∧ r.1.ecc = d.ecc)
    ∧ { r.1 with dram := d.dram, ecc := d.ecc, ce := d.ce, eccLast := d.eccLast } = d)
  ∧ (∀ (s : State) (m : Fin 8) (w : Nat), edgeRuns s = true → (getMed s m).selfRefresh = false → w < 2 ^ 32 →
    ∃ u, exec (.scrub m w) s = .next u ∧ u.resp = .done ∧ { u with resp := s.resp, meds := s.meds } = s
      ∧ (∀ q, q ≠ m.val → getMed u q = getMed s q) ∧ (getMed u m).dram = (getMed s m).dram
      ∧ (∀ i, sget 0 (getMed u m).ecc i = if i = w ∧ sget 0 (getMed s m).ecc w = 1 then 0 else sget 0 (getMed s m).ecc i)
      ∧ (sget 0 (getMed s m).ecc w = 0 → getMed u m = getMed s m)
      ∧ (sget 0 (getMed s m).ecc w ≠ 0 → (getMed u m).eccLast = packW [(0, 14, 8 * w / 2 ^ 21), (31, 1, b2n (2 ≤ sget 0 (getMed s m).ecc w))])))
  ∧ (∀ (s : State) (f : Fn) (m : Fin 8) (b : Fin 16) (v : Word), reaches f b = true →
    let d := getMed s m
    let w := getWin d b
    let one := fun (i : Instr) (P : State → Prop) => ∃ u, exec i s = .next u ∧ u.resp = .done ∧ (∀ j, j ≠ m.val → getMed u j = getMed s j) ∧ P u
    let only := fun (i : Instr) (P : Med → Prop) => one i (fun u => { u with resp := s.resp, meds := s.meds } = s ∧ P (getMed u m))
    let winOnly := fun (d' : Med) => { d' with wins := d.wins } = d ∧ ∀ n, n ≠ b.val → getWin d' n = getWin d n
    (linkOk s f = true → medOn s m = false → f ≠ .steward →
      ∃ u, exec (.descGo f m b v) s = .next u ∧ u.resp = .busError ∧ { u with resp := s.resp, fns := s.fns } = s)
    ∧ (CanAccess s f .other false → medOn s m = true →
      let e := fld v 0 2
      let hd := fld v 0 6
      (submitBad s m b (staged d b) = true → (getBd s b).st ≠ .resetting → only (.descGo f m b v) (fun d' => winOnly d' ∧ getWin d' b = { w with submit := 2 }))
      ∧ (submitBad s m b (staged d b) = false → (getBd s b).st ≠ .resetting → (∀ i < 16, sfind d.desc (descKey e b i) ≠ none) →
          only (.descGo f m b v) (fun d' => winOnly d' ∧ getWin d' b = { w with submit := 1 }))
      ∧ (∀ i < 16, submitBad s m b (staged d b) = false → (getBd s b).st ≠ .resetting → sfind d.desc (descKey e b i) = none →
          (∀ j < i, sfind d.desc (descKey e b j) ≠ none) → one (.descGo f m b v) (fun u =>
            { u with resp := s.resp, meds := s.meds } = s
            ∧ (let d' := getMed u m
               { d' with desc := d.desc, accNext := d.accNext, wins := d.wins } = d ∧ d'.accNext = d.accNext + 1
               ∧ getWin d' b = { w with submit := 0, last := 16 * e + i } ∧ (∀ n, n ≠ b.val → getWin d' n = getWin d n)
               ∧ (∀ k, k ≠ descKey e b i → sfind d'.desc k = sfind d.desc k)
               ∧ ∃ c, sfind d'.desc (descKey e b i) = some c ∧ c.host = true ∧ c.phase = .queued ∧ c.ack = false
                  ∧ c.kind = fld (winW d b 0x20) 28 4 ∧ c.irq = bitAt (winW d b 0x20) 5 ∧ c.acc = d.accNext
                  ∧ c.va = (winW d b 0x24).toNat + 2 ^ 32 * fld (winW d b 0x28) 0 16)))
      ∧ (∀ c, sfind d.desc (descKey (hd / 16) b (hd % 16)) = some c → c.phase = .faulted → only (.resume f m b v) (fun d' =>
          { d' with desc := d.desc, wins := d.wins } = d
          ∧ (∀ k, sfind d'.desc k = if k = descKey (hd / 16) b (hd % 16) then
              some { c with phase := if c.issued = 0 then .queued else .running, cause := 0 } else sfind d.desc k)
          ∧ getWin d' b = { w with faults := w.faults.filter (· != hd) } ∧ ∀ n, n ≠ b.val → getWin d' n = getWin d n))
      ∧ ((∀ c, sfind d.desc (descKey (hd / 16) b (hd % 16)) = some c → c.phase ≠ .faulted) → exec (.resume f m b v) s = .next { s with resp := .ignored })
      ∧ only (.medFltSel f m b v) (fun d' => winOnly d' ∧ { getWin d' b with regs := w.regs } = w ∧ winW d' b 0x80 = BitVec.ofNat 32 hd
          ∧ (∀ o, o ≠ 0x80 → o < 0x84 ∨ 0x98 < o → winW d' b o = winW d b o)
          ∧ (∀ c, sfind d.desc (descKey (hd / 16) b (hd % 16)) = some c → c.phase = .faulted ∨ c.phase = .error →
              bitAt (winW d' b 0x84) 31 = true ∧ bitAt (winW d' b 0x84) 30 = (c.phase == .error) ∧ fld (winW d' b 0x84) 26 4 = c.kind % 16
              ∧ bitAt (winW d' b 0x84) 25 = c.host ∧ winW d' b 0x98 = BitVec.ofNat 32 c.issued
              ∧ (winW d' b 0x88).toNat + 2 ^ 32 * (winW d' b 0x8C).toNat = wrapNat 48 (elemVa c c.issued))
          ∧ ((∀ c, sfind d.desc (descKey (hd / 16) b (hd % 16)) = some c → c.phase ≠ .faulted ∧ c.phase ≠ .error) → bitAt (winW d' b 0x84) 31 = false)))
    ∧ (CanAccess s f .other false → (getBd s b).st = .resetting → medOn s m = true → exec (.descGo f m b v) s = .next { s with resp := .ignored })
    ∧ (CanAccess s f .other true → medOn s m = true → ∃ u, exec (.medCplRead f m b) s = .next u ∧ u.resp = .value (w.cpl.headD 0)
      ∧ { u with resp := s.resp, meds := s.meds } = s ∧ (∀ j, j ≠ m.val → getMed u j = getMed s j) ∧ winOnly (getMed u m)
      ∧ getWin (getMed u m) b = { w with cpl := w.cpl.tail })
    ∧ (CanAccess s f .other false →
      let q := quotaW s m b
      let pa := pfnBase q * 2 ^ 21 + 4096 * fld (winW d b 0x10) 9 9 + 8 * fld (winW d b 0x10) 0 9
      (pfnCount q = 0 → exec (.ptCommit f m b v) s = .next { s with resp := .ignored })
      ∧ (pfnCount q ≠ 0 → only (.ptCommit f m b v) (fun d' =>
          (∀ i < 4, sget 0 d'.dram (pa + i) = (winW d b 0x14).extractLsb' (8 * i) 8 ∧ sget 0 d'.dram (pa + 4 + i) = v.extractLsb' (8 * i) 8)
          ∧ (∀ a, a < pa ∨ pa + 8 ≤ a → sget 0 d'.dram a = sget 0 d.dram a)
          ∧ { d' with dram := d.dram, ecc := d.ecc, ce := d.ce, eccLast := d.eccLast } = d))))

/-- Rim bursts and DRAM windows reach what they may. R289, R271: a DRAM window burst reads or writes the frames its translation gives; one outside a board's quota or in a table frame is a violation
(R621), an uncorrectable word a bus error. R290, R291: RIM_BURST of a master that is next in turn is granted, and the target's turn goes
past it; one that is not waits. R353: it reads or writes the HED SRAM that its context may reach, else it is a violation. R289, R290: to
a MED's DRAM it does as DRAM_WINDOW_ACCESS does; to the register window of another board, to an offset of no window, or as a read of a
wafer window it is a violation. R293: a corrected beat counts for its path, an uncorrectable one is a bus error and FAULT_RIM. R291: a
response is that of the path's oldest command. R297: a write of RIM_PATH_SEL captures the path it names. Model's choices it rests on:
log 34, 35, 126. -/
def Obligations.RimBursts : Prop :=
  (∀ (s : State) (mst : RimMaster) (m : Fin 8) (ofs : Nat) (wr : Option (List Byte)) (len : Nat),
    let n := (wr.map List.length).getD len
    let d := getMed s m
    let c := Instr.dramWindowAccess mst m ofs wr len
    let noted := match rimCtx mst with
      | some b => noteSpan d (quotaW s m b) ofs n none wr.isSome
      | none => d
    let runs := fun (ps : List (Nat × Nat)) =>
      (∀ bs, wr = some bs → ∀ d1, writeSpan noted ps bs = (d1, none) → exec c s = .next { setMed s m d1 with resp := .done })
      ∧ (wr = none → ∀ d1 bs, readSpan noted ps = (d1, bs, none) → exec c s = .next { setMed s m d1 with resp := .bytes bs })
      ∧ ((∃ bs d1 p, wr = some bs ∧ writeSpan noted ps bs = (d1, some p)) ∨ (wr = none ∧ ∃ d1 bs p, readSpan noted ps = (d1, bs, some p)) →
          ∃ u, exec c s = .next u ∧ u.resp = .busError ∧ (getMed u m).dram = (match wr with
            | some bs => (writeSpan noted ps bs).1.dram
            | none => d.dram))
    edgeRuns s = true → d.selfRefresh = false → n ≠ 0 → n % 64 = 0 → ofs % 64 = 0 → ofs % 1024 + n ≤ 1024 → rimCtxOk mst = true →
    (∃ u, exec c s = .next u ∧ u.resp ≠ .held)
    ∧ (2 ^ 35 ≤ ofs → ∃ u, exec c s = .next u ∧ u.resp = .violation ∧ { u with resp := s.resp, flt := s.flt } = s)
    ∧ (ofs < 2 ^ 35 → rimCtx mst = none → inTableFrame s m ofs n = true → ∃ u, exec c s = .next u ∧ u.resp = .violation ∧ { u with resp := s.resp, flt := s.flt } = s)
    ∧ (ofs < 2 ^ 35 → rimCtx mst = none → inTableFrame s m ofs n = false → runs [(ofs, n)]
        ∧ (∀ bs, wr = some bs → ∃ u, exec c s = .next u ∧ u.resp = .done ∧ { u with resp := s.resp, meds := s.meds } = s
          ∧ (∀ j, j ≠ m.val → getMed u j = getMed s j)
          ∧ ∀ a, sget 0 (getMed u m).dram a = if ofs ≤ a ∧ a < ofs + n then (bs[a - ofs]?).getD 0 else sget 0 d.dram a))
    ∧ (∀ b, ofs < 2 ^ 35 → rimCtx mst = some b → ∀ ps, transSpan d (quotaW s m b) ofs n none wr.isSome = .ok ps → runs ps)
    ∧ (∀ b e, ofs < 2 ^ 35 → rimCtx mst = some b → transSpan d (quotaW s m b) ofs n none wr.isSome = .error e → (∀ p, e ≠ .ded p) →
        ∃ u, exec c s = .next u ∧ u.resp = .violation ∧ { u with resp := s.resp, flt := s.flt, meds := s.meds } = s
          ∧ (∀ j, j ≠ m.val → getMed u j = getMed s j) ∧ { getMed u m with ce := d.ce, eccLast := d.eccLast } = d))
  ∧ (∀ (s : State) (mst : Fin 21) (tgt : Fin 18) (ctx : Option (Fin 16)) (ofs beats : Nat) (be : BitVec 8) (wr : Option (List Byte))
      (waiting : List (Fin 21)) (e : Fin 3),
    let c := Instr.rimBurst mst tgt ctx ofs beats be wr waiting e
    let bx := ctx.map (·.val)
    let h := tgt.val - 8
    let next := ((List.range 21).map (fun i => (sget 20 s.rim.last tgt + 1 + i) % 21)).find? (fun x => x == mst.val || (waiting.map (·.val)).contains x)
    let burst := fun (r : Resp) (P : State → Prop) => ∃ u, exec c s = .next u ∧ u.resp = r ∧ (∀ t, sget 20 u.rim.last t = if t = tgt.val then mst.val else sget 20 s.rim.last t) ∧ P u
    edgeRuns s = true → pathExists mst tgt = true → mstCtxOk mst bx = true → 1 ≤ beats → beats ≤ 16 →
    (let whole := ofs % 64 = 0 ∧ ofs % 1024 + 64 * beats ≤ 1024 ∧ (∀ bs, wr = some bs → bs.length = 64 * beats)
     (8 ≤ tgt.val → tgt.val < 12 → whole →
      (next ≠ some mst.val → Waits c s)
      ∧ (next = some mst.val →
        (e ≠ 2 → hedRangeOk s h mst bx ofs (64 * beats) wr.isSome = true → ofs < 0x400000 → burst .done (fun u =>
          { u with resp := s.resp, rim := s.rim, heds := s.heds } = s
          ∧ (∀ k, sget [] u.rim.cmds k = if k = 32 * mst.val + tgt.val then
              sget [] s.rim.cmds k ++ [{ ctx := bx, ofs := ofs, beats := beats, read := wr.isNone
                                         data := if wr.isSome then [] else readBytes 0 (getHed s h).sram ofs (64 * beats) }]
              else sget [] s.rim.cmds k)
          ∧ (∀ k, sget 0 u.rim.ce k = if k = 32 * mst.val + tgt.val ∧ e = 1 then min 0xFFFF (sget 0 s.rim.ce k + 1) else sget 0 s.rim.ce k)
          ∧ (wr = none → u.heds = s.heds)
          ∧ ∀ bs, wr = some bs → ∀ a, sget 0 (getHed u h).sram a = if ofs ≤ a ∧ a < ofs + 64 * beats then (bs[a - ofs]?).getD 0 else sget 0 (getHed s h).sram a))
        ∧ (e ≠ 2 → hedRangeOk s h mst bx ofs (64 * beats) wr.isSome = false → burst .violation (fun u => u.heds = s.heds ∧ u.rim.cmds = s.rim.cmds))
        ∧ (∀ b, e = 2 → mst.val ≠ 12 → bx = some b → burst .busError (fun u =>
            ∃ r l, u.raised = s.raised ++ r :: l ∧ r.code = 0x16 ∧ r.board = some b ∧ fld r.detail 8 5 = mst ∧ fld r.detail 0 5 = tgt
              ∧ (wr.isSome = true ∨ mst.val < 8 ∨ 12 ≤ mst.val → l = [] ∧ u.heds = s.heds)))
        ∧ (e = 2 → mst.val ≠ 12 → bx = none → burst .busError (fun u => u.heds = s.heds ∧ bitAt u.flt.dev 31 = true ∧ Signalled s u (pfIx 0) 5)))))
    ∧ (tgt.val < 8 → next ≠ some mst.val → Waits c s)
    ∧ (tgt.val < 8 → next = some mst.val → e = 0 →
      let granted := { s with rim := { s.rim with last := sset 20 s.rim.last tgt mst } }
      let cmd : RimCmd := { ctx := bx, ofs := ofs, beats := beats, read := wr.isNone }
      (ofs + 64 * beats ≤ 0x800000000 → ofs % 64 = 0 → ofs % 1024 + 64 * beats ≤ 1024 → (∀ bs, wr = some bs → bs.length = 64 * beats) →
        ∀ v, dramWindow (masterOf mst bx) tgt ofs wr (64 * beats) granted = some v → exec c s = .next (toPath mst tgt cmd v))
      ∧ (0x800400000 ≤ ofs → ofs % 64 = 0 → ofs % 1024 + 64 * beats ≤ 1024 → (∀ bs, wr = some bs → bs.length = 64 * beats) →
        wr = none ∨ ofs < 0x900000000 ∨ 0x900114000 < ofs + 64 * beats →
        burst .violation (fun u => { u with resp := s.resp, rim := s.rim, flt := s.flt } = s ∧ u.rim.cmds = s.rim.cmds))
      ∧ (∀ b, bx = some b → 0x800000000 ≤ ofs → ofs < 0x800400000 → ofs % 4 = 0 → (ofs - 0x800000000) / 0x1000 ≠ 0x10 + b → beats = 1 →
        be.toNat < 16 → (∀ bs, wr = some bs → bs.length = 4) →
        burst .violation (fun u => { u with resp := s.resp, rim := s.rim, flt := s.flt } = s ∧ u.rim.cmds = s.rim.cmds)))
    ∧ ∀ a r, sget [] s.rim.cmds (32 * mst.val + tgt.val) = a :: r → e ≠ 2 → ∃ u, exec (.rimResponse tgt mst e) s = .next u
        ∧ u.resp = (match a.room with
          | some q => .room q.1 q.2
          | none => if a.data = [] then .done else .bytes a.data) ∧ { u with resp := s.resp, rim := s.rim } = s
        ∧ ∀ k, sget [] u.rim.cmds k = if k = 32 * mst.val + tgt.val then r else sget [] s.rim.cmds k)
  ∧ (∀ (s : State) (f : Fn) (v : Word), CanAccess s f .other false → isPf f = true →
    let mst := if fld v 8 5 < 21 then fld v 8 5 else fld s.rim.sel 8 5
    let tgt := if fld v 0 5 < 18 then fld v 0 5 else fld s.rim.sel 0 5
    let k := 32 * mst + tgt
    ∃ u, exec (.rimPathSel f v) s = .next u ∧ u.resp = .done ∧ { u with resp := s.resp, rim := s.rim } = s
      ∧ { u.rim with sel := s.rim.sel, stat := s.rim.stat } = s.rim ∧ fld u.rim.sel 8 5 = mst ∧ fld u.rim.sel 0 5 = tgt
      ∧ bitAt u.rim.stat 31 = pathExists mst tgt ∧ bitAt u.rim.stat 30 = decide (sget 0 s.rim.slices k % 2 = 1)
      ∧ fld u.rim.stat 0 16 = sget 0 s.rim.ce k % 2 ^ 16)

/-- Expert queues take packets. R327-R330, R335, R336, R96, R97: EQ_TAKE pops the head entry of the port in turn, whose EOM stands where LEN says. A RING or FORWARD
header takes the oldest free slot; its flits go into the slot, the last makes it ready. An ACCUM or PLACE header gives the row and
half; a payload word is added to or replaces its target word; a null packet changes nothing, a null word adds nothing; the last word
counts the packet, and a count that reaches COUNT is cleared and owes a notice. The pop sets NF of the port (R62). No other byte, queue
or port changes. Model's choices it rests on: log 16, 19. -/
def Obligations.ExpertTakes : Prop :=
  ∀ (s : State) (x : Fin 1104) (y : Fin 560) (t k : Nat) (b : Brick) (p q : Nat) (f : Flit) (rest : List Flit), CanAct s x y t k b →
    takePort b t = some p → eqOfPort b p = some q → portQ b p = f :: rest →
    let e := getEq b q
    let base := eqBase b q
    let len := eqLen b q
    let ns := eqNS b q
    let out := fun (wr : Option (Nat × Word)) (e' : EqState) =>
      (∀ w, wr = some w → bankBusy s x y b (bankOf w.1) t = false ∧ (sramHealth b w.1 4).2 = none) →
      Acts (.eqTake x y t) s k (fun b' =>
        (∀ j, sget 0 b'.sram j = (match wr with
          | some (a, v) => if a ≤ j ∧ j < a + 4 then BitVec.ofNat 8 (v.toNat / 256 ^ (j - a)) else sget 0 b.sram j
          | none => sget 0 b.sram j))
        ∧ (∀ i, getEq b' i = if i = q then e' else getEq b i) ∧ (∀ n, portQ b' n = if n = p then rest else portQ b n)
        ∧ b'.eqPtr = (p + 1) % 8 ∧ b'.credFly = b.credFly ++ [⟨t + 1, 160 + p⟩]
        ∧ (∀ n < 8, b'.nf.getLsbD n = if n = p then f.null else b.nf.getLsbD n)
        ∧ { b' with sram := b.sram, sramEcc := b.sramEcc, eq := b.eq, ports := b.ports, credFly := b.credFly, eqPtr := b.eqPtr, cnt := b.cnt,
                    used := b.used, nf := b.nf } = b)
    (∀ sl r, eqKind b q = 0 ∨ eqKind b q = 3 → sfind e.opens p = none → e.free = sl :: r → f.eom = decide (1 = len) →
      out (some (base + 4 * (sl * len), f.data))
        { e with free := r, order := e.order ++ [⟨sl, false, [(f.null, f.eom)]⟩], opens := sput e.opens p { slot := sl, taken := 1, nullPkt := f.null } })
    ∧ (∀ v, eqKind b q = 0 ∨ eqKind b q = 3 → sfind e.opens p = some v → f.eom = decide (v.taken + 1 = len) →
      out (some (base + 4 * (v.slot * len + v.taken), f.data)) { e with
        opens := if v.taken + 1 = len then sdel e.opens p else sput e.opens p { v with taken := v.taken + 1 }
        order := e.order.map (fun o => if o.slot = v.slot
          then { o with marks := o.marks ++ [(f.null, f.eom)], whole := decide (v.taken + 1 = len) } else o) })
    ∧ (eqKind b q = 1 ∨ eqKind b q = 2 → sfind e.opens p = none → f.eom = decide (1 = len) →
      out none { e with opens := sput e.opens p { tag := fld f.data 8 12, taken := 1, nullPkt := f.null } })
    ∧ (∀ v, eqKind b q = 1 ∨ eqKind b q = 2 → sfind e.opens p = some v → f.eom = decide (v.taken + 1 = len) →
      let half := (v.tag / ns) % 2
      let a := base + 4 * ((half * ns + v.tag % ns) * (len - 1) + v.taken - 1)
      let sum : Word := if eqInt b q then sramWord b a + f.data
        else BitVec.ofNat 32 (vfSpec .vfadd .fp32 false (sramWord b a).toNat f.data.toNat 0)
      let wr := if v.nullPkt then none else if eqKind b q = 2 then some (a, if f.null then 0 else f.data)
        else if f.null then none else some (a, sum)
      let n := (if half = 0 then e.c0 else e.c1) + 1
      let c := if n = eqCount b q then 0 else n
      let w := if n = eqCount b q then e.waiting ++ [half] else e.waiting
      (v.taken + 1 ≠ len → out wr { e with opens := sput e.opens p { v with taken := v.taken + 1 } })
      ∧ (v.taken + 1 = len → v.nullPkt = true → out wr { e with opens := sdel e.opens p })
      ∧ (v.taken + 1 = len → v.nullPkt = false → out wr { e with
          opens := sdel e.opens p, waiting := w, c0 := if half = 0 then c else e.c0, c1 := if half = 0 then e.c1 else c }))

/-- Expert queues replay and notify, the scatter engine sends. R331, R336, R59: RING_REPLAY puts the next flit of the oldest ready slot, with its markers, into the delivery port, and frees the slot
with its last; EQ_NOTICE puts the oldest notice owed there, with its half and number. Nothing else of the brick changes but counts and
marks. R332, R333: SCATTER_BEGIN frees a null packet, or begins one whose table entry is valid and whose slot is the engine's: with the
reads of its header and its table entry in one tcyc where both banks can be had and differ, else in two; SCATTER_FLIT sends its next
flit against a credit and frees the slot with the last. Model's choices it rests on: log 19, 21. -/
def Obligations.ExpertDelivers : Prop :=
  (∀ (s : State) (x : Fin 1104) (y : Fin 560) (t k : Nat) (b : Brick) (q : Fin 4), CanAct s x y t k b → expertRuns b = true →
    let e := getEq b q
    let dp := eqDport b q
    e.stopped = false → portRoom b dp t = true →
    let out := fun (c : Instr) (e' : EqState) (f : Flit) => Acts c s k (fun b' =>
      (∀ i, getEq b' i = if i = q.val then e' else getEq b i) ∧ (∀ n, portQ b' n = if n = dp then portQ b n ++ [f] else portQ b n)
      ∧ { b' with eq := b.eq, ports := b.ports, cnt := b.cnt, used := b.used } = b)
    (∀ v r, let a := slotAddr b q v.slot e.replayed
      e.order = v :: r → v.whole = true → eqKind b q = 0 → marked b (11 + q.val) = false → bankBusy s x y b (bankOf a) t = false →
      eqWantsBank b t ≠ some (bankOf a) → (sramHealth b a 4).2 = none →
      out (.ringReplay x y t q)
        (if e.replayed + 1 = eqLen b q then { e with order := r, free := e.free ++ [v.slot], replayed := 0 }
         else { e with replayed := e.replayed + 1 })
        ⟨sramWord b a, ((v.marks[e.replayed]?).getD (false, false)).1, ((v.marks[e.replayed]?).getD (false, false)).2, t + 1⟩)
    ∧ (∀ h r, e.waiting = h :: r → marked b (15 + q.val) = false →
      let n := (e.notices + 1) % 65536
      out (.eqNotice x y t q)
        { e with waiting := r, notices := n }
        ⟨BitVec.ofNat 32 (n + 65536 * (h % 2)), false, false, t + 1⟩))
  ∧ (∀ (s : State) (x : Fin 1104) (y : Fin 560) (t k : Nat) (b : Brick), CanAct s x y t k b → expertRuns b = true → b.scStop = false →
    marked b 10 = false →
    (∀ q v r, let e := getEq b q
      let a := slotAddr b q v.slot 0
      let dest := fld (sramWord b a) 20 12
      let ta := scTbase b + 4 * dest
      let tw := sramWord b ta
      scEn b = true → b.sc = none → scPick b = some q → e.order = v :: r → v.whole = true →
      (((v.marks[0]?).getD (false, false)).1 = true → Acts (.scatterBegin x y t) s k (fun b' =>
          (∀ i, getEq b' i = if i = q then { e with order := r, free := e.free ++ [v.slot], replayed := 0 } else getEq b i)
          ∧ b'.scPtr = (q + 1) % 4 ∧ b'.scNulls = (b.scNulls + 1) % 32768
          ∧ { b' with eq := b.eq, scPtr := b.scPtr, scNulls := b.scNulls, used := b.used } = b))
      ∧ (((v.marks[0]?).getD (false, false)).1 = false → scBusy s x y b (bankOf a) t = false →
          (sramHealth b a 4).2 = none → a < 0xC000 → dest < scTsize b →
          (scBusy s x y b (bankOf ta) t = false → bankOf ta ≠ bankOf a → (sramHealth b ta 4).2 = none → bitAt tw 31 = true →
            bitAt (rtEntry b 4 (fld tw 0 5)) 31 = true → entrySrc (rtEntry b 4 (fld tw 0 5)) = 3 →
            Acts (.scatterBegin x y t) s k (fun b' => b'.sc = some { q := q, slot := v.slot, dslot := fld tw 0 5 } ∧ b'.scPtr = (q + 1) % 4
              ∧ { b' with sc := b.sc, scPtr := b.scPtr, cnt := b.cnt, used := b.used } = b))
          ∧ (scBusy s x y b (bankOf ta) t = true ∨ bankOf ta = bankOf a →
            Acts (.scatterBegin x y t) s k (fun b' => b'.sc = some { q := q, slot := v.slot, look := some dest } ∧ b'.scPtr = (q + 1) % 4
              ∧ { b' with sc := b.sc, scPtr := b.scPtr, cnt := b.cnt, used := b.used } = b))))
    ∧ (∀ c dest, let ta := scTbase b + 4 * dest
      let tw := sramWord b ta
      scEn b = true → b.sc = some c → c.look = some dest → dest < scTsize b → scBusy s x y b (bankOf ta) t = false →
      (sramHealth b ta 4).2 = none → bitAt tw 31 = true → bitAt (rtEntry b 4 (fld tw 0 5)) 31 = true → entrySrc (rtEntry b 4 (fld tw 0 5)) = 3 →
      Acts (.scatterBegin x y t) s k (fun b' => b'.sc = some { c with look := none, dslot := fld tw 0 5 }
        ∧ { b' with sc := b.sc, cnt := b.cnt, used := b.used } = b))
    ∧ (∀ c v r, let e := getEq b c.q
      let a := slotAddr b c.q c.slot c.sent
      b.sc = some c → c.look = none → e.order = v :: r → v.whole = true → sget 0 b.sndCred c.dslot ≠ 0 → scBusy s x y b (bankOf a) t = false →
      (sramHealth b a 4).2 = none →
      Acts (.scatterFlit x y t) s k (fun b' =>
        (∀ i, sget [] b'.fifos i = if i = 128 + c.dslot then sget [] b.fifos i ++ [⟨sramWord b a,
            ((v.marks[c.sent]?).getD (false, false)).1, ((v.marks[c.sent]?).getD (false, false)).2, t + 1⟩] else sget [] b.fifos i)
        ∧ (∀ i, sget 0 b'.sndCred i = if i = c.dslot then sget 0 b.sndCred i - 1 else sget 0 b.sndCred i)
        ∧ b'.sc = (if c.sent + 1 = eqLen b c.q then none else some { c with sent := c.sent + 1 })
        ∧ (∀ i, getEq b' i = if i = c.q ∧ c.sent + 1 = eqLen b c.q
            then { e with order := r, free := e.free ++ [v.slot], replayed := 0 } else getEq b i)
        ∧ { b' with fifos := b.fifos, sndCred := b.sndCred, sc := b.sc, eq := b.eq, cnt := b.cnt, used := b.used } = b)))

/-- Arrivals complete generations, releases reach the bricks. R301-R305: ARRIVAL_COUNTED takes the first arrival of its barrier from its field that has travelled and counts it; where that fills the
oldest open generation, and the other parity's does not fill the next, the count is cleared, the generation moves on and every
participant is sent a release; a TIMED barrier needs a gate credit too and spends it. R304: an arrival from the root's own field is
counted 13 tcyc after its ARRIVE, and in a barrier within one field the release is there 14 tcyc later. RELEASE_RECEIVED takes 1 from
the brick's OUT. Model's choices it rests on: log 22. -/
def Obligations.BarrierCounts : Prop :=
  (∀ (s : State) (n : Fin 16) (i t : Nat) (a : Arrival),
    let bd := getBd s n
    let root := rootField s n a.bar
    let gen := sget 0 bd.barGen a.bar
    bd.arrivals[i]? = some a → (∀ c ∈ bd.arrivals.take i, ¬(c.bar = a.bar ∧ c.fld = a.fld)) → (a.fld = root → t = a.at_ + 13) →
    clkRuns s root = true → s.clk.waiting = false → a.par < 2 →
    let out := fun (full : Bool) (P : Board → Prop) => ∃ u, exec (.arrivalCounted n i t) s = .next u ∧ u.resp = .done
      ∧ { u with resp := s.resp, boards := s.boards } = s ∧ (∀ j, j ≠ n.val → getBd u j = getBd s j)
      ∧ (getBd u n).arrivals = bd.arrivals.eraseIdx i
      ∧ (∀ j, sget 0 (getBd u n).barC j = if j = 2 * a.bar + a.par then (if full then 0 else sget 0 bd.barC j + 1) else sget 0 bd.barC j)
      ∧ { getBd u n with arrivals := bd.arrivals, barC := bd.barC, barGen := bd.barGen, barGate := bd.barGate, releases := bd.releases, moved := bd.moved } = bd
      ∧ P (getBd u n)
    let C := fun (par : Nat) => sget 0 bd.barC (2 * a.bar + par)
    ((barOn bd a.bar = false ∨ (if a.par = gen % 2 then C a.par + 1 else C (gen % 2)) ≠ barP bd a.bar)
        ∨ (barTimed bd a.bar = true ∧ sget 0 bd.barGate a.bar = 0) →
      out false (fun b' => b'.barGen = bd.barGen ∧ b'.releases = bd.releases ∧ b'.barGate = bd.barGate))
    ∧ (barOn bd a.bar = true → a.par = gen % 2 → C a.par + 1 = barP bd a.bar → gen + 1 < 2 ^ 32 → C (1 - a.par) ≠ barP bd a.bar →
      (barTimed bd a.bar = true → 0 < sget 0 bd.barGate a.bar) →
      out true (fun b' => (∀ j, sget 0 b'.barGen j = if j = a.bar then gen + 1 else sget 0 bd.barGen j)
        ∧ (∀ j, sget 0 b'.barGate j = if j = a.bar ∧ barTimed bd a.bar = true then sget 0 bd.barGate j - 1 else sget 0 bd.barGate j)
        ∧ b'.releases = bd.releases ++ (participants s n a.bar).map
            (fun p => ⟨a.bar, p.1, p.2.1, if oneField s n a.bar then some (t + 14) else none⟩))))
  ∧ (∀ (s : State) (x : Fin 1104) (y : Fin 560) (k : Fin 64) (t key n : Nat) (b : Brick) (pre post : List Release) (r : Release),
    CanAct s x y t key b → boardAt s x y = some n → (getBd s n).releases = pre ++ r :: post →
    (∀ q ∈ pre, ¬(q.bar = k.val ∧ q.x = x.val ∧ q.y = y.val)) → r.bar = k.val → r.x = x.val → r.y = y.val → (∀ d, r.due = some d → d ≤ t) →
    s.clk.waiting = false → marked b 60 = false →
    ∃ u, exec (.releaseReceived x y k t) s = .next u ∧ u.resp = .done
      ∧ { u with resp := s.resp, bricks := s.bricks, boards := s.boards, fields := s.fields } = s
      ∧ (∀ j, j ≠ key → getB u j = getB s j) ∧ (∀ j, j ≠ n → getBd u j = getBd s j) ∧ (∀ f, FieldButAct (getField u f) (getField s f))
      ∧ (getBd u n).releases = pre ++ post
      ∧ { getBd u n with releases := (getBd s n).releases, moved := (getBd s n).moved } = getBd s n
      ∧ (∀ i, sget 0 (getB u key).barOut i = if i = k.val then sget 0 b.barOut i - 1 else sget 0 b.barOut i)
      ∧ { getB u key with barOut := b.barOut } = b)

/-- Stalls are charged and reports are checked. R70, R442: STALL_TCYC charges the tcyc in which the head of a queue has not issued, once: to the elastic count, else to the inherited
one where a held supplier stands behind it, else to its cause; the queue shows the cause. Nothing else changes. R450-R452, R455: CHECK
begins a check, which reads the registers once; one that runs makes another ignored. Its end publishes NOT_COMPARABLE, BAD_REPORT or
WRONG_IMAGE, or compares every matchable counter that is not exempt, elastic or overflowed with what the report expects of W words and
S samples: MATCH, or DEPARTURE and its fault; vector 0 is signalled. Model's choices it rests on: log 23, 61, 110. -/
def Obligations.ContractCounts : Prop :=
  (∀ (s : State) (x : Fin 1104) (y : Fin 560) (t k : Nat) (b : Brick) (q : Que) (h : QEntry) (rest : List QEntry) (qi : Fin 3), qi.val = queIx q →
    CanAct s x y t k b → b.st = .running ∨ b.st = .draining → marked b (60 + qi.val) = false → marked b qi.val = false → queGet b q = h :: rest →
    h.due ≤ t → headCause s x y b q h t ≠ 0 →
    let c := headCause s x y b q h t
    let src := headSource s x y t b h c
    let ix := 0x30 + 0x10 * qi.val + (if src.1 then 8 else if anyHeld s t 400000 src.2 [] then 9 else c)
    Acts (.stallTcyc x y t qi) s k (fun b' =>
      (∀ i, sget 0 b'.cnt i = if i = ix ∧ counting s x y = true then evAdd (sget 0 b.cnt i) 1 else sget 0 b.cnt i)
      ∧ (match q with | .s => b'.causeS | .v => b'.causeV | .t => b'.causeT) = c
      ∧ { b' with cnt := b.cnt, used := b.used, causeS := if q = .s then b.causeS else b'.causeS,
                  causeV := if q = .v then b.causeV else b'.causeV, causeT := if q = .t then b.causeT else b'.causeT } = b))
  ∧ (∀ (s : State) (b : Fin 16),
    let bd := getBd s b
    (∀ f, CanAccess s f .other false → reaches f b = true →
      (bd.st = .undefined → exec (.check f b) s = .next { s with resp := .ignored })
      ∧ (bd.st ≠ .undefined → bd.checking = true → exec (.check f b) s = .next { setBd s b { bd with checkIgnored := true } with resp := .ignored })
      ∧ (bd.st ≠ .undefined → bd.checking = false → ∃ u, exec (.check f b) s = .next u ∧ u.resp = .done ∧ { u with resp := s.resp, boards := s.boards } = s
        ∧ (∀ n, n ≠ b.val → getBd u n = getBd s n) ∧ { getBd u b with checkArgs := [] } = { bd with checking := true, checkDone := false, checkFn := fnIx f, checkArgs := [] }
        ∧ (let ok := bd.st = .halted ∧ bd.lastDrain = 1 ∧ bd.faultDrain = false ∧ bd.abandonedWords = false ∧ bd.abandonedDesc = false
           (ok → (getBd u b).checkArgs[3]? = some 1) ∧ (¬ok → (getBd u b).checkArgs[3]? = some 0))))
    ∧ (∀ rpt, bd.checking = true → linkKept s = false →
      let len := 8 * ((bd.checkArgs[2]?).getD 0).toNat
      let comparable := (bd.checkArgs[3]?).getD 0 = 1
      let wrong := imNum rpt 0x18 8 ≠ bd.imageId ∨ imNum rpt 0x20 2 ≠ bd.piece
      let ends := fun (code : Nat) (P : State → Prop) => ∃ u, exec (.checkEnd b rpt) s = .next u ∧ u.resp = .done
        ∧ { u with resp := s.resp, bricks := s.bricks, boards := s.boards, fns := s.fns, toHost := s.toHost, raised := s.raised } = s
        ∧ (∀ n, n ≠ b.val → getBd u n = getBd s n) ∧ (∀ k, { getB u k with obs := (getB s k).obs } = getB s k)
        ∧ (getBd u b).checking = false ∧ (getBd u b).checkDone = true ∧ (getBd u b).checkOutcome = code ∧ (getBd u b).st = bd.st
        ∧ Signalled s u (vfIx b) 0 ∧ (code ≠ 1 → u.raised = s.raised) ∧ P u
      (¬comparable → ends 2 (fun _ => True))
      ∧ (comparable → fnMaster s bd.checkFn = false → Waits (.checkEnd b rpt) s)
      ∧ (comparable → fnMaster s bd.checkFn = true → rptOk rpt len bd = none → ends 3 (fun _ => True))
      ∧ (∀ ks, comparable → fnMaster s bd.checkFn = true → rptOk rpt len bd = some ks → wrong → ends 4 (fun _ => True))
      ∧ (∀ ks, comparable → fnMaster s bd.checkFn = true → rptOk rpt len bd = some ks → ¬wrong →
        let brick := fun x y => ((keyOf s x y).map (getB s)).getD Brick.reset
        let ents := fun (x y : Nat) => ((ks.find? (fun k => bd.x0 + k.bx == x && bd.y0 + k.by_ == y)).map (·.ents)).getD []
        let expected := fun x y i => match (ents x y).find? (fun n => n.index == i) with
          | some n => n.fixed + n.perWord * (bd.words % 2 ^ 48) + n.perSample * (bd.samples % 2 ^ 48)
          | none => 0
        let departs := fun x y i => i ∈ matchable ∧ (∀ n ∈ ents x y, n.index = i → n.exempt = false) ∧ elasticCnt (brick x y) i = false
          ∧ sget 0 (brick x y).cnt i < 2 ^ 48 ∧ sget 0 (brick x y).cnt i ≠ expected x y i
        let some_ := ∃ x y i, bd.x0 ≤ x ∧ x ≤ bd.x1 ∧ bd.y0 ≤ y ∧ y ≤ bd.y1 ∧ departs x y i
        (¬some_ → ends 0 (fun u => sget 0 (getBd u b).regs 0xC14 = 0 ∧ sget 0 (getBd u b).regs 0xC1C = 0 ∧ (getBd u b).depBricks = 0))
        ∧ (some_ → ends 1 (fun u => bitAt (sget 0 (getBd u b).regs 0xC1C) 31 = true ∧ 0 < (getBd u b).depBricks
            ∧ ∃ r, u.raised = s.raised ++ [r] ∧ r.code = 0x2A ∧ r.board = some b.val ∧ r.detail = sget 0 (getBd u b).regs 0xC1C)))))

/-- Board commands act or are ignored, by state. R416, R418, R421, R430, R422: what LOAD, START and the two DRAINs do in each state of the board; a command that is ignored sets
CMD_IGNORED and nothing else, as every one does after a power stop. Model's choices it rests on: log 43. -/
def Obligations.BoardCommands : Prop :=
  (∀ (s : State) (f : Fn) (b : Fin 16), CanAccess s f .other false → reaches f b = true → s.pwr.stopped = true →
    ∀ c ∈ [Instr.load f b, .start f b, .drain f b, .drainHard f b, .reset f b],
      exec c s = .next { setBd s b { getBd s b with cmdIgnored := true } with resp := .ignored })
  ∧ ∀ (s : State) (f : Fn) (b : Fin 16), CanCommand s f b →
    let bd := getBd s b
    let becomes := fun (c : Instr) (r : Resp) (v : Board) => exec c s = .next { setBd s b v with resp := r }
    let ignored := fun (c : Instr) => becomes c .ignored { bd with cmdIgnored := true }
    (bd.st = .undefined → ignored (.load f b))
    ∧ (bd.st = .empty → ∃ u, exec (.load f b) s = .next u ∧ u.resp = .done ∧ { u with resp := s.resp, boards := s.boards, segs := s.segs } = s
      ∧ getBd u b = { bd with st := .loading, loadPass := 1, loadFn := fnIx f, progBytes := 0, progPass := false
                              loadArgs := [0x20, 0x24, 0x28, 0x2C, 0x30].map (fun o => sget 0 bd.regs o) }
      ∧ (∀ n, n ≠ b.val → getBd u n = getBd s n))
    ∧ (bd.st ≠ .undefined → bd.st ≠ .empty → ∃ v, becomes (.load f b) .done v ∧ { v with regs := bd.regs } = bd
      ∧ ∀ o, sget 0 v.regs o = if o = 0x400 then 0x8000FF01 else if o = 0x404 ∨ o = 0x408 ∨ o = 0x40C then 0 else sget 0 bd.regs o)
    ∧ (bd.st = .loaded → bd.assembled = true → bd.home = true → ∃ u, exec (.start f b) s = .next u ∧ u.resp = .done
      ∧ getBd u b = { bd with startTs := (s.now + 8) % 2 ^ 64, startPending := true, streamsToo := false, fields := [] }
      ∧ (bd.pieces ≤ 1 → { u with resp := s.resp, boards := s.boards } = s ∧ ∀ n, n ≠ b.val → getBd u n = getBd s n))
    ∧ (¬(bd.st = .loaded ∧ bd.assembled = true ∧ bd.home = true) → ignored (.start f b))
    ∧ (bd.home = true → bd.st = .running → bd.drain = none → ∃ u, exec (.drain f b) s = .next u ∧ u.resp = .done
      ∧ getBd u b = { bd with drain := some ⟨false, false, 1⟩, drainPending := true }
      ∧ (bd.pieces ≤ 1 → { u with resp := s.resp, boards := s.boards } = s ∧ ∀ n, n ≠ b.val → getBd u n = getBd s n))
    ∧ (bd.home = true → bd.st = .running → bd.drain = none → ∃ u, exec (.drainHard f b) s = .next u ∧ u.resp = .done
      ∧ (getBd u b).drain = some ⟨true, false, 1⟩ ∧ (getBd u b).drainPending = false ∧ (getBd u b).st = .running)
    ∧ (∀ d, bd.home = true → bd.st = .running ∨ bd.st = .draining → bd.drain = some d → d.hard = false →
      ∃ u, exec (.drainHard f b) s = .next u ∧ u.resp = .done ∧ (getBd u b).drain = some { d with hard := true } ∧ (getBd u b).st = bd.st)
    ∧ (bd.home = false ∨ (bd.st ≠ .running) ∨ bd.drain ≠ none → ignored (.drain f b))
    ∧ (bd.home = false ∨ (bd.st ≠ .running ∧ bd.st ≠ .draining) ∨ (∃ d, bd.drain = some d ∧ d.hard = true) → ignored (.drainHard f b))

/-- Fields start, boards drain to HALTED or to their limit. R421, R222: FIELD_START makes every LOADED brick of the board in one field RUNNING, begins its contexts with START = 0 and holds the
others, once the timestamp is at the start tick; the board is RUNNING. R422-R424, R311, R283: once no request is open, DRAIN_INPUTS_END
makes the board and its RUNNING bricks DRAINING and cancels its ARMED BOARD_START and STREAM_START entries; QUIESCENCE of a draining
board that is quiescent makes it HALTED, records how many bricks wait, ends the discarding of its slots (R264) and signals vector 0;
DRAIN_LIMIT of one that is not ends the drain in STALEMATE with cause DRAIN_LIMIT and signals vector 0. R430: a drain held with the start
begins once the last field has started. Model's choices it rests on: log 8, 43, 44, 45, 77. -/
def Obligations.StartAndDrain : Prop :=
  (∀ (s : State) (b : Fin 16) (f : Fin 84) (t : Nat),
    let bd := getBd s b
    bd.startPending = true → f.val ∈ boardFields bd → f.val ∉ bd.fields → bd.startTs ≤ s.now → clkRuns s f = true →
    s.clk.waiting = false →
    let more := (boardFields bd).any (fun g => !(f.val :: bd.fields).contains g)
    (∀ hd ab, bd.heldDrain = some (hd, ab) → bd.drain = none → more = false →
      ∃ u, exec (.fieldStart b f t) s = .next u ∧ u.resp = .done ∧ (getBd u b).st = .running ∧ (getBd u b).drain = some ⟨hd, ab, 1⟩
        ∧ (getBd u b).heldDrain = none ∧ (getBd u b).startPending = false)
    ∧ (bd.heldDrain = none ∨ more = true →
    ∃ u, exec (.fieldStart b f t) s = .next u ∧ u.resp = .done ∧ { u with resp := s.resp, boards := s.boards, bricks := s.bricks } = s
      ∧ getBd u b = { bd with st := .running, fields := f.val :: bd.fields, startPending := more }
      ∧ (∀ n, n ≠ b.val → getBd u n = getBd s n)
      ∧ (∀ k, (∀ x y, (x, y, k) ∈ boardBricks s b → fieldOf x y ≠ f) ∨ (getB s k).st ≠ .loaded → getB u k = getB s k)
      ∧ (∀ x y k, (x, y, k) ∈ boardBricks s b → fieldOf x y = f → (getB s k).st = .loaded →
        let v := getB s k
        let v' := getB u k
        v'.st = .running ∧ { v' with st := v.st, ctx := v.ctx, useT := v.useT, used := v.used } = v
        ∧ (∀ j, j < 4 → getCtx v' j = (let w := cfgW v (0x600 + 4 * j)
            if bitAt w 31 = false then getCtx v j
            else if fld w 29 2 = 0 ∨ bd.streamsToo = true then { phase := .active, pc := fld w 0 5 }
            else { phase := .held })))))
  ∧ (∀ (s : State) (b : Fin 16),
    let bd := getBd s b
    bd.pieces ≤ 1 → s.clk.waiting = false →
    (∀ d, bd.drain = some d → d.step = 1 → bd.st = .running → bd.startPending = false → curChans s b = [] →
      ∃ u, exec (.drainInputsEnd b) s = .next u ∧ u.resp = .done ∧ (getBd u b).st = .draining
        ∧ (getBd u b).drain = some { d with step := 2 } ∧ (getBd u b).drainPending = false ∧ (getBd u b).still = bd.still
        ∧ (∀ n, n ≠ b.val → getBd u n = getBd s n)
        ∧ (∀ k, (getB u k).st = if (getB s k).st = .running ∧ (boardBricks s b).any (fun p => p.2.2 == k) then .draining else (getB s k).st)
        ∧ u.time.brd = s.time.brd.map (fun p => if p.1 / 8 = b.val ∧ p.2.st = 1 ∧ (fld p.2.act 24 4 = 1 ∨ fld p.2.act 24 4 = 2)
            then (p.1, { p.2 with st := 3 }) else p))
    ∧ (bd.st = .draining → quiescent s b = true →
      ∃ u, exec (.quiescence b) s = .next u ∧ u.resp = .done
        ∧ { u with resp := s.resp, boards := s.boards, fns := s.fns, toHost := s.toHost, meds := s.meds } = s ∧ Signalled s u (vfIx b) 0
        ∧ (∀ m, { getMed u m with discard := (getMed s m).discard } = getMed s m)
        ∧ (∀ m < 8, ∀ key, key ∈ (getMed u m).discard ↔ key ∈ (getMed s m).discard ∧ portBoard s m (key / 64) ≠ some b.val)
        ∧ getBd u b = { bd with st := .halted, lastDrain := 1, waiting := ((boardBricks s b).filter (fun p => brickWaits (getB s p.2.2))).length }
        ∧ ∀ n, n ≠ b.val → getBd u n = getBd s n)
    ∧ (bd.st = .draining → quiescent s b = true → Waits (.drainLimit b) s)
    ∧ (bd.st = .draining → quiescent s b = false →
      ∃ u, exec (.drainLimit b) s = .next u ∧ u.resp = .done ∧ (getBd u b).st = .stalemate ∧ (getBd u b).lastDrain = 2
        ∧ (getBd u b).smDeclared = true ∧ (getBd u b).smCause = 2 ∧ u.bricks = s.bricks ∧ Signalled s u (vfIx b) 0
        ∧ (∀ m, { getMed u m with discard := (getMed s m).discard } = getMed s m)
        ∧ ∃ r, u.raised = s.raised ++ [r] ∧ r.code = 0x28 ∧ r.board = some b.val ∧ r.detail = 2))

/-- Stalemates are counted, declared and listed. R307-R310: STILL_TCYC counts a still tcyc, up to 4,096, and clears the count when something moved or a hold of R308 stands; at 4,096
with work waiting a RUNNING board that nothing holds is declared in STALEMATE with cause STILL, its tick, the number of its blocked
bricks and the first 16 of them recorded, and no brick changes; STALEMATE_LIST_READY sets READY. Model's choices it rests on: log 46. -/
def Obligations.Stalemates : Prop :=
  ∀ (s : State) (b : Fin 16),
    let bd := getBd s b
    let h := stillHolds s b
    exec (.stillTcyc b) s = .next { setBd s b { bd with
        still := if (h.1 || h.2.1 || h.2.2.1 || h.2.2.2 || bd.moved) = true then 0 else min 4096 (bd.still + 1), moved := false } with resp := .done }
    ∧ ((h.1 || h.2.1 || h.2.2.1 || h.2.2.2) = true → Waits (.stalemateDeclare b) s)
    ∧ (s.clk.waiting = false → bd.st = .running → bd.smDeclared = false → 4096 ≤ bd.still → (h.1 || h.2.1 || h.2.2.1 || h.2.2.2) = false →
      (∃ q ∈ boardBricks s b, brickWaits (getB s q.2.2) = true) →
      let blocked := (bricksInOrder s b).filter (fun q => brickBlocked s 1 q.1 q.2.1 q.2.2)
      ∃ u, exec (.stalemateDeclare b) s = .next u ∧ u.resp = .done ∧ u.bricks = s.bricks ∧ u.meds = s.meds
        ∧ (∀ n, n ≠ b.val → getBd u n = getBd s n)
        ∧ (getBd u b).st = .stalemate ∧ (getBd u b).smDeclared = true ∧ (getBd u b).smReady = false ∧ (getBd u b).smCause = 1
        ∧ (getBd u b).lastDrain = bd.lastDrain
        ∧ sget 0 (getBd u b).regs 0x804 = BitVec.ofNat 32 s.now ∧ sget 0 (getBd u b).regs 0x808 = BitVec.ofNat 32 (s.now / 2 ^ 32)
        ∧ sget 0 (getBd u b).regs 0x80C = BitVec.ofNat 32 blocked.length
        ∧ (∀ i p, i < 16 → blocked[i]? = some p → let w := sget 0 (getBd u b).regs (0x840 + 8 * i)
           bitAt w 31 = true ∧ fld w 20 11 = p.1 % 2 ^ 11 ∧ fld w 10 10 = p.2.1 % 2 ^ 10)
        ∧ ∃ r, u.raised = s.raised ++ [r] ∧ r.code = 0x28 ∧ r.board = some b.val ∧ r.detail = 1)
    ∧ (s.clk.waiting = false → bd.smDeclared = true → bd.smReady = false →
      exec (.stalemateListReady b) s = .next { setBd s b { bd with smReady := true } with resp := .done })

/-- A board reset clears its board and nothing else. R416, R425, R299, R193: RESET is ignored by an UNDEFINED or RESETTING board; else the board is RESETTING, its drain, start, barriers
and stalemate are gone, its bricks are STOPPED with empty ports and slots and every entry disabled, no MED holds a descriptor of it,
and other bricks keep everything. RESET_COMPLETE, once no engine has a beat of it, makes it EMPTY and signals vector 0;
FAULT_BOARD_RESET raises that fault once. Model's choices it rests on: log 33, 48. -/
def Obligations.BoardReset : Prop :=
  ∀ (s : State) (b : Fin 16),
    let bd := getBd s b
    (∀ f, CanCommand s f b → bd.st = .undefined ∨ bd.st = .resetting →
      exec (.reset f b) s = .next { setBd s b { bd with cmdIgnored := true } with resp := .ignored })
    ∧ (∀ f, CanCommand s f b → bd.st ≠ .undefined → bd.st ≠ .resetting → bd.pieces ≤ 1 →
      ∃ u, exec (.reset f b) s = .next u ∧ u.resp = .done
        ∧ (let v := getBd u b
           v.st = .resetting ∧ v.drain = none ∧ v.startPending = false ∧ v.home = false ∧ v.assembled = false ∧ v.smDeclared = false
             ∧ v.barDecl = [] ∧ v.barC = [] ∧ v.barGen = [] ∧ v.arrivals = [] ∧ v.releases = [] ∧ v.checking = false
             ∧ v.x0 = bd.x0 ∧ v.x1 = bd.x1 ∧ v.y0 = bd.y0 ∧ v.y1 = bd.y1 ∧ v.cmdIgnored = bd.cmdIgnored
             ∧ ∀ o, 0x400 ≤ o → o ≤ 0x40C → sget 0 v.regs o = sget 0 bd.regs o)
        ∧ (∀ x y k, (x, y, k) ∈ boardBricks s b →
          (getB u k).st = (if (getB s k).st = .quarantined then .quarantined else .stopped) ∧ (getB u k).ports = [] ∧ (getB u k).fifos = []
            ∧ (getB u k).pmem = (getB s k).pmem ∧ (getB u k).sram = (getB s k).sram ∧ (getB u k).g = (getB s k).g)
        ∧ (∀ k, (boardBricks s b).any (fun p => p.2.2 == k) = false → getB u k = getB s k)
        ∧ (∀ m < 8, ∀ p ∈ (getMed u m).desc, descBoard p.1 ≠ b.val))
    ∧ (s.clk.waiting = false → bd.st = .resetting → (∀ m < 8, ∀ e < 4, (sget 0 (getMed s m).busy e).testBit b = false) →
      ∃ u, exec (.resetComplete b) s = .next u ∧ u.resp = .done ∧ getBd u b = { bd with st := .empty, resetLate := false }
        ∧ (∀ n, n ≠ b.val → getBd u n = getBd s n)
        ∧ { u with resp := s.resp, boards := s.boards, heds := s.heds, fns := s.fns, toHost := s.toHost } = s ∧ Signalled s u (vfIx b) 0)
    ∧ (s.clk.waiting = false → bd.st = .resetting → bd.resetLate = false →
      ∃ u, exec (.faultBoardReset b) s = .next u ∧ u.resp = .done ∧ { u with resp := s.resp, boards := s.boards, raised := s.raised } = s
        ∧ getBd u b = { bd with resetLate := true } ∧ (∀ n, n ≠ b.val → getBd u n = getBd s n)
        ∧ ∃ r, u.raised = s.raised ++ [r] ∧ r.code = 0x30 ∧ r.board = some b.val)

/-- Doorbells and ring enables. R567, R571, R572: the doorbells of a channel's VF move the producer and consumer index within one ring of the device's own, else they
are ignored and set DB_ERR; setting EN of a disabled ring restarts its indices and PHASE; EN is cleared only while the channel is IDLE
or UNBOUND. No other channel changes. Model's choices it rests on: log 41. -/
def Obligations.RingRegisters : Prop :=
  ∀ (s : State) (f : Fn) (h : Fin 4) (c : Fin 8) (v : Word), CanAccess s f .other false → chanOk s f h c = true →
    let ch := getCh s h c
    let p := fld v 0 16
    let out := fun (i : Instr) (r : Resp) (P : Chan → Prop) => ∃ u ch', exec i s = .next u ∧ u.resp = r ∧ ChanBecomes s u h c ch' ∧ P ch'
      ∧ { u with resp := s.resp, heds := s.heds } = s
    let db := fun (i : Instr) (ok : Prop) (P : Chan → Prop) =>
      (ringEn ch = true ∧ ok → out i .done P) ∧ (ringEn ch = false ∨ ¬ok → out i .ignored (fun ch' => ch' = { ch with dbErr := true }))
    (isPf f = false → db (.txtDb f h c v) ((p + 65536 - ch.txtHead) % 65536 ≤ 2 ^ fld (sget 0 ch.ring 0x0C) 0 4)
      (fun ch' => ch' = { ch with txtProd := p }))
    ∧ (let ok := ringEn ch = true ∧ (ch.cplTail + 65536 - p) % 65536 ≤ 2 ^ fld (sget 0 ch.ring 0x18) 0 4
       isPf f = false →
        (ok → ∃ u, exec (.cplDb f h c v) s = .next u ∧ u.resp = .done ∧ (getCh u h c).cplCons = p)
        ∧ (ok → ch.cur = none → out (.cplDb f h c v) .done (fun ch' => ch' = { ch with cplCons := p }))
        ∧ (¬ok → out (.cplDb f h c v) .ignored (fun ch' => ch' = { ch with dbErr := true })))
    ∧ out (.ringEnable f h c v) .done (fun ch' =>
        (∀ o, sget 0 ch'.ring o = if o = 0 then BitVec.ofNat 32 (2 ^ 31 + fld v 0 10) else sget 0 ch.ring o)
        ∧ { ch' with ring := ch.ring } = if ringEn ch then ch
            else { ch with txtHead := 0, txtProd := 0, cplTail := 0, cplCons := 0, phase := true })
    ∧ (ringEn ch = false ∨ chanState ch = 0 ∨ chanState ch = 4 → out (.ringDisable f h c v) .done (fun ch' =>
        (∀ o, sget 0 ch'.ring o = if o = 0 then BitVec.ofNat 32 (fld v 0 10) else sget 0 ch.ring o) ∧ { ch' with ring := ch.ring } = ch))
    ∧ (ringEn ch = true → chanState ch ≠ 0 → chanState ch ≠ 4 → exec (.ringDisable f h c v) s = .next { s with resp := .ignored })
    ∧ (lexOn s h = true → out (.gwSsel f h c v) .done (fun ch' =>
        fld ch'.ssel 0 32 = fld v 0 6 ∧ { ch' with ssel := ch.ssel, sdata := ch.sdata } = ch
        ∧ (∀ d, ch.gStack.reverse[fld v 0 6]? = some d → ch'.sdata = BitVec.ofNat 32 (2 ^ 31 + d % 4096))
        ∧ (ch.gStack.length ≤ fld v 0 6 → ch'.sdata = 0)))

/-- Ring entries become tokens of a request. R566-R568, R358, R359, R361-R363, R372: RING_ENTRY_FETCHED takes the next entry of a channel that is fetched; a good TOKENS entry adds
its tokens, in order, to the open request, behind its text; where that leaves the admitted request whole without a token, the request
ends with CANCEL and EMPTY_PROMPT. ENCODE_PRETOKEN turns the first closed pre-token of the channel in turn
into tokens behind those made. ADMIT_REQUEST admits the board's oldest fetched request: nothing issued, the channel's limit, the
grammar at its start state. Model's choices it rests on: log 40, 42, 110. -/
def Obligations.PromptSteps : Prop :=
  ∀ (s : State) (h : Fin 4) (c : Fin 8),
    let ch := getCh s h c
    (∀ entry data, fetching s h c = true → entry.length = 16 → data.length = ofBytesLE ((entry.drop 8).take 4) % 65536 →
      let flags := ofBytesLE ((entry.drop 12).take 4)
      let nums := wordsLE data
      let r := (openReq ch).getD { tag := flags / 65536 % 65536, order := (getHed s h).fetchNo }
      (∃ u, exec (.ringEntryFetched h c entry data) s = .next u ∧ u.resp = .done ∧ (getCh u h c).txtHead = (ch.txtHead + 1) % 65536
        ∧ u.bricks = s.bricks)
      ∧ (ofBytesLE ((entry.drop 8).take 4) < 65536 → flags / 4 % 2 ^ 14 = 0 → flags.testBit 1 = true → data.length % 4 = 0 →
          (∀ n ∈ nums, n < ch.vsize ∧ n < 2 ^ 22) → r.bad = 0 →
        let reqs := (if (openReq ch).isSome then ch.reqs.dropLast else ch.reqs) ++ [{ r with
          closed := (if r.open_.isEmpty then r.closed else r.closed ++ [.text r.open_]) ++ nums.map PreTok.tok
          open_ := [], eop := flags.testBit 0 }]
        (((∀ w, ch.cur = some w → w.cause ≠ 0 ∨ w.issued ≠ 0) ∨ (∀ q l, reqs = q :: l → emptyReq q = false)) →
          ∃ u, exec (.ringEntryFetched h c entry data) s = .next u ∧ u.resp = .done
            ∧ { u with resp := s.resp, heds := s.heds } = s
            ∧ { getCh u h c with reqs := ch.reqs, txtHead := ch.txtHead } = ch ∧ (getCh u h c).reqs = reqs)
        ∧ (∀ w q l, ch.cur = some w → w.cause = 0 → w.issued = 0 → reqs = q :: l → emptyReq q = true →
          ∃ u, exec (.ringEntryFetched h c entry data) s = .next u ∧ u.resp = .done ∧ u.bricks = s.bricks ∧ u.meds = s.meds
            ∧ { getCh u h c with cur := ch.cur, emptyPrompt := ch.emptyPrompt, reqs := ch.reqs, txtHead := ch.txtHead } = ch
            ∧ (getCh u h c).reqs = reqs ∧ (getCh u h c).emptyPrompt = true
            ∧ (getCh u h c).cur = some { w with cause := 4, feedback := none })))
    ∧ (∀ i r p l, lexOn s h = true → edgeRuns s = true → returnWaits s h = false → encNext s h = some c.val → encReq ch = some i →
      ch.reqs[i]? = some r → r.closed = p :: l →
      ∀ ts, (match p with
        | .tok n => ts = [n]
        | .text bs => ∃ a, encodeText s (vocab h ch) ch.alg bs = (a, ts) ∧ a.ded = false) →
      ∃ u, exec (.encodePretoken h c) s = .next u ∧ u.resp = .done ∧ u.bricks = s.bricks
        ∧ (getCh u h c).reqs = ch.reqs.set i { r with closed := l, toks := r.toks ++ ts, made := r.made + ts.length }
        ∧ (getCh u h c).tok = evAdd ch.tok ts.length ∧ (getHed u h).encPtr = (c.val + 1) % 8
        ∧ (ts ≠ [] → (∀ r0 l0, ch.reqs = r0 :: l0 → emptyReq r0 = false ∨ i = 0) →
            u.boards = s.boards ∧ { getCh u h c with reqs := ch.reqs, tok := ch.tok } = ch))
    ∧ (∀ r, waitingReq ch = some r → lexOn s h = true → edgeRuns s = true → ch.en = true → ch.bound = true →
      let bd := getBd s ch.board
      bd.st = .running → bd.drainPending = false → bd.drain = none → bd.smDeclared = false →
      (∀ k < 8, (getCh s h k).en = true → (getCh s h k).bound = true → (getCh s h k).board = ch.board →
        (getCh s h k).cur = none ∧ ∀ q, waitingReq (getCh s h k) = some q → r.order ≤ q.order) →
      let g := ch.gBound && ch.gEnable
      (∃ u, exec (.admitRequest h c) s = .next u ∧ u.resp = .done ∧ (getCh u h c).cur.isSome = true) ∧
      (emptyReq r = false → bitAt ch.cfg 29 = false → ∃ u, exec (.admitRequest h c) s = .next u ∧ u.resp = .done ∧ { u with resp := s.resp, heds := s.heds } = s
        ∧ ChanBecomes s u h c { ch with
            cur := some { limit := ch.limit, grammar := g, cause := r.bad }
            gState := if g then ch.gStart else ch.gState, gStack := if g then [] else ch.gStack, gPhase := 0 }))

/-- Words and mask flits leave for the board. R21, R22, R27, R364: ISSUE_WORD puts the next word, in the layout of R21, into the INJECT store of the ingress channel; the word is in
flight, SEQ goes on, the first SAMPLE word ends the prompt, and the board's counts take it. The token leaves the prompt's, or the
feedback. R385-R387: MASK_FLITS_WRITE writes the next flits of the board's oldest mask, up to 8 and to the room of its INJECT store, in
the order header, mask words, PERMITTED with EOM; a mask written whole is counted and gone. Model's choices it rests on: log 36, 39. -/
def Obligations.WordIssues : Prop :=
  (∀ (s : State) (h : Fin 4) (c : Fin 8) (tok : Nat) (sample fed : Bool) (u0 : Cur),
    let ch := getCh s h c
    let bd := getBd s ch.board
    let key := slotKey ch.inCol ch.inLane ch.inSlot
    let d := getMed s ch.inMed
    nextWord ch = some (tok, sample, fed) → ch.cur = some u0 → ch.en = true → bd.st = .running → bd.smDeclared = false → lexOn s h = true →
    edgeRuns s = true → u0.fly.length < 128 → (sget [] d.inj key).length < 16 →
    let w : Word := BitVec.ofNat 32 (u0.nextSeq % 256 * 2 ^ 24 + b2n sample * 2 ^ 23 + b2n (u0.issued == 0) * 2 ^ 22 + tok % 2 ^ 22)
    ∃ u, exec (.issueWord h c) s = .next u ∧ u.resp = .done ∧ u.bricks = s.bricks
      ∧ (∀ q, sget [] (getMed u ch.inMed).inj q = if q = key then sget [] d.inj q ++ [{ flit := { data := w } }] else sget [] d.inj q)
      ∧ (getBd u ch.board).words = evAdd bd.words 1 ∧ (getBd u ch.board).samples = (if sample then evAdd bd.samples 1 else bd.samples)
      ∧ (∀ n, n ≠ ch.board → (getBd u n).words = (getBd s n).words)
      ∧ (u0.issued ≠ 0 ∨ bd.maskOn = false ∨ u0.grammar = false → (getCh u h c).cur = some { u0 with
          issued := u0.issued + 1, fly := u0.fly ++ [(u0.nextSeq, sample)], nextSeq := (u0.nextSeq + 1) % 256
          promptDone := u0.promptDone || sample, feedback := none, fed := if fed then u0.fed + 1 else u0.fed })
      ∧ (fed = true → (getCh u h c).reqs = ch.reqs)
      ∧ (fed = false → ∀ r l, ch.reqs = r :: l → (getCh u h c).reqs = { r with toks := r.toks.drop 1 } :: l))
  ∧ (∀ (s : State) (h : Fin 4) (c : Fin 8) (k : MaskRun) (r : List MaskRun) (q : Nat),
    let ch := getCh s h c
    let bd := getBd s ch.board
    let key := slotKey bd.maskCol bd.maskLane bd.maskSlot
    let d := getMed s bd.maskMed
    let room := 16 - (sget [] d.inj key).length
    let left := bd.maskW + 2 - k.sent
    let n := min 8 (min room left)
    bd.maskQ = k :: r → k.seq = some q ∨ (k.seq = none ∧ firstSeq ch = some q) → ch.en = true → k.chan = c.val → n ≠ 0 →
    bd.smDeclared = false → lexOn s h = true → edgeRuns s = true → k.bits.length = bd.maskW →
    let flit := fun (i : Nat) => ({ flit := if i = 0 then { data := BitVec.ofNat 32 (q % 256 * 2 ^ 24) }
      else if i ≤ bd.maskW then { data := (k.bits[i - 1]?).getD 0 }
      else { data := BitVec.ofNat 32 (k.permitted % 2 ^ 23), eom := true } } : InjEntry)
    ∃ u, exec (.maskFlitsWrite h c) s = .next u ∧ u.resp = .done ∧ u.bricks = s.bricks
      ∧ (∀ i, sget [] (getMed u bd.maskMed).inj i
          = if i = key then sget [] d.inj i ++ (List.range n).map (fun j => flit (k.sent + j)) else sget [] d.inj i)
      ∧ (getBd u ch.board).maskQ = (if n = left then r else { k with seq := some q, sent := k.sent + n } :: r)
      ∧ (getCh u h c).masks = (if n = left then evAdd ch.masks 1 else ch.masks)
      ∧ (getCh u h c).cur = ch.cur ∧ (getCh u h c).reqs = ch.reqs)

/-- Returns are taken and requests end. R24, R28, R30, R31, R365, R366: RETURN_TAKE takes the oldest record of the board's egress queue. It answers the oldest word in flight:
a null return a word without SAMPLE; a chosen token with the word's SEQ, below the vocabulary's size, a SAMPLE word, which, without a
grammar, ends the request with STOP or LIMIT or is fed back; any other return ends the request with ABORT and raises
FAULT_TOKEN_RETURN. A request that has ended only counts it, while a word of it is in flight. A return is not taken before the feedback
word of the one before it is issued. R29, R31, R371, R569, R574: FINAL_COMPLETION, once every word of an ended
request has come back or is abandoned, with no text left to write and a free slot, writes its FINAL record and the channel is idle; a
channel whose ring is off or whose endpoint is down ends without one. CANCEL ends the current request with cause CANCEL unless it has
ended. HOLDOFF_EXPIRY ends the hold, signalling what waited. Model's choices it rests on: log 38, 40, 129 (which word of a mismatching
return counts as returned, and a return after the request's end with no word in flight). -/
def Obligations.Returns : Prop :=
  (∀ (s : State) (b : Fin 16) (c : Nat) (cs : List Nat) (u0 : Cur),
    let h := b.val / 4
    let e := getHed s h
    let cons := egrCons e b
    let f := recFlit (readLE e.sram (egrBase b + 8 * (cons % 256)) 8)
    let ch := getCh s h c
    let t := fld f.data 0 22
    lexOn s h = true → edgeRuns s = true → egrCount e b ≠ 0 → curChans s b = c :: cs → ch.cur = some u0 →
    let out := fun (P : State → Cur → Prop) => ∃ u v, exec (.returnTake b) s = .next u ∧ u.resp = .done ∧ u.bricks = s.bricks
      ∧ egrCons (getHed u h) b = (cons + 1) % 2 ^ 32 ∧ egrProd (getHed u h) b = egrProd e b ∧ (getCh u h c).cur = some v ∧ P u v
    let s1 := setHed s h (hedPut e (egrBase b + 0x840) (bytesLE 4 (cons + 1)))
    let took := { u0 with fly := u0.fly.drop 1, returned := u0.returned + 1 }
    let fault := fun (u : State) => ∃ r, u.raised = s.raised ++ [r] ∧ r.code = 0x20 ∧ r.board = some b.val ∧ r.detail = f.data
    let wrong := fun (w : Cur) => out (fun u v => v = { w with cause := 5, feedback := none } ∧ fault u)
    (feedbackWaits s b = true → Waits (.returnTake b) s) ∧ (feedbackWaits s b = false →
    (u0.cause ≠ 0 → u0.fly ≠ [] → out (fun u v => v = took ∧ u.raised = s.raised))
    ∧ (u0.cause ≠ 0 → u0.fly = [] → (getBd s b).abandonedWords = true ∨ (getBd s b).smDeclared = true →
        out (fun u v => v = u0 ∧ u.raised = s.raised))
    ∧ (u0.cause ≠ 0 → u0.fly = [] → (getBd s b).abandonedWords = false → (getBd s b).smDeclared = false → out (fun u v => v = u0 ∧ fault u))
    ∧ (u0.cause = 0 → u0.fly = [] → wrong u0)
    ∧ (∀ q fl, u0.cause = 0 → u0.fly = (q, false) :: fl → f.null = true → out (fun u v => v = took ∧ u.raised = s.raised))
    ∧ (∀ q fl, u0.cause = 0 → u0.fly = (q, true) :: fl → f.null = true → wrong took)
    ∧ (∀ q sm fl, u0.cause = 0 → u0.fly = (q, sm) :: fl → f.null = false → sm = false ∨ fld f.data 24 8 ≠ q ∨ ch.vsize ≤ t → wrong u0)
    ∧ (∀ q fl a str, u0.cause = 0 → u0.fly = (q, true) :: fl → f.null = false → fld f.data 24 8 = q → t < ch.vsize → u0.grammar = false →
      tokString s1 (vocab h ch) (trStart s1 (vocab h ch)) t = (a, str) → a.ded = false →
      out (fun u v => u.raised = s.raised ∧ v.fly = fl ∧ v.returned = u0.returned + 1 ∧ v.issued = u0.issued
        ∧ v.cause = (if t ∈ ch.stops then 1 else if u0.limit ≤ u0.fed then 2 else 0)
        ∧ v.feedback = (if v.cause = 0 then some t else none) ∧ (v.cause = 0 → v.nextSeq = (q + 1) % 256)))))
  ∧ (∀ (s : State) (h : Fin 4) (c : Fin 8),
    let ch := getCh s h c
    (∀ u0, ch.cur = some u0 → u0.cause ≠ 0 → u0.fly = [] → lexOn s h = true → edgeRuns s = true →
      let done := fun (u : State) => (getCh u h c).cur = none ∧ (getCh u h c).lastEnd = u0.cause
      (ringEn ch = false ∨ (sget {} s.ends (ch.board / 4)).up = false →
        ∃ u, exec (.finalCompletion h c) s = .next u ∧ u.resp = .done ∧ done u ∧ u.toHost = s.toHost
          ∧ { u with resp := s.resp, heds := s.heds } = s)
      ∧ (ringEn ch = true → (sget {} s.ends (ch.board / 4)).up = true → u0.out = [] → cplFree ch = true → vfMaster s ch.board = true →
        let size := 2 ^ fld (sget 0 ch.ring 0x18) 0 4
        let tag := (ch.reqs.head?.map (·.tag)).getD 0
        let data := broken (bitAt ch.cfg 31) u0.held
        ∃ u, exec (.finalCompletion h c) s = .next u ∧ u.resp = .done ∧ done u ∧ u.bricks = s.bricks ∧ u.boards = s.boards
          ∧ (getCh u h c).cplTail = (ch.cplTail + 1) % 65536
          ∧ (getCh u h c).phase = (if ch.cplTail % size + 1 = size then !ch.phase else ch.phase)
          ∧ ∃ rest, u.toHost = s.toHost ++ .cpl h c (ch.cplTail % size)
              (bytesLE 4 (b2n ch.phase * 2 ^ 31 + 2 * 2 ^ 28 + u0.cause % 16 * 2 ^ 24 + tag % 65536)
                ++ bytesLE 4 (ch.txtHead % 65536 * 65536 + data.length % 64) ++ bytesLE 4 u0.issued ++ bytesLE 4 u0.returned ++ data
                ++ List.replicate (48 - data.length) 0) :: rest ∧ (rest = [] ∨ rest = [.irq (vfIx ch.board) 1])))
    ∧ (∀ f v, CanAccess s f .other false → chanOk s f h c = true → lexOn s h = true →
      ∃ u, exec (.cancel f h c v) s = .next u ∧ u.resp = .done ∧ u.bricks = s.bricks ∧ u.toHost = s.toHost
        ∧ ChanBecomes s u h c { ch with
            limit := fld v 0 24
            cur := ch.cur.map (fun w => if w.cause = 0 then { w with cause := 4, feedback := none } else w) }
        ∧ ∀ n, { getBd u n with maskQ := (getBd s n).maskQ } = getBd s n)
    ∧ (s.clk.waiting = false → ch.hold = true → ch.holdPend = false → ∃ u, exec (.holdoffExpiry h c) s = .next u ∧ u.resp = .done
      ∧ { u with resp := s.resp, heds := s.heds } = s ∧ ChanBecomes s u h c { ch with hold := false })
    ∧ (s.clk.waiting = false → ch.hold = true → ch.holdPend = true → ∃ u, exec (.holdoffExpiry h c) s = .next u ∧ u.resp = .done
      ∧ { u with resp := s.resp, heds := s.heds, fns := s.fns, toHost := s.toHost } = s ∧ ChanBecomes s u h c { ch with holdPend := false }
      ∧ Signalled s u (vfIx ch.board) 1))

/-- Mailbox commands are refused or begun. R474-R476, R471, R466: the six mailbox commands of the PF: ignored with BUSY while one runs; refused in the order CARD, STATE, RANGE,
an ERASE or PROGRAM with no byte done (R483);
else begun: OPEN writes its life record or finds the life at its end, ERASE erases its first sector, PROGRAM programs its first page of the data
read by the PF of HED0, CLOSE tests the inactive copy and closes its record or refuses it, ABORT voids it, JOURNAL queues a commit. A command that ends
signals vector 1. Model's choices it rests on: log 3, 80, 81, 83, 84. -/
def Obligations.MailboxCommands : Prop :=
  ∀ (s : State) (f : Fn) (v : Word) (data : Option (List Byte)), ∀ n ∈ [1, 2, 3, 4, 5, 6],
    let sl := s.slate
    let c := if n = 1 then Instr.slateOpen f v else if n = 2 then .slateErase f v else if n = 3 then .slateProgram f v data
      else if n = 4 then .slateClose f v else if n = 5 then .slateAbort f v else .slateJournal f v
    let ofs := sl.argOfs.toNat
    let len := sl.argLen.toNat
    let bytes := (data.getD []).take len
    let base := if (if sl.bootFail = 5 then sl.prefA else !sl.runB) then 0x10000000 else 0x01000000
    let void := lifeAt (sl.openSeq.getD 1 - 1) + 0x3C
    fld v 28 4 = n → slateReady s = true → CanAccess s f .slate false → hostPf f = true → slateOn s = true →
    let ends := fun (s1 : SlateSt) (code : Nat) => ∃ u, exec c s = .next u ∧ u.resp = .done
      ∧ { u with resp := s.resp, slate := s.slate, fns := s.fns, toHost := s.toHost } = s
      ∧ u.slate = { s1 with result := code, busy := false, job := none, bytes := if n = 2 ∨ n = 3 then 0 else s1.bytes, count := 0 }
      ∧ Signalled s u (pfIx 0) 1
    let begins := fun (P : State → Prop) => ∃ u, exec c s = .next u ∧ u.resp = .done
      ∧ { u with resp := s.resp, slate := s.slate, vigil := s.vigil, freeCtr := s.freeCtr } = s
      ∧ { u.vigil with page := s.vigil.page } = s.vigil ∧ u.slate.card = sl.card ∧ u.slate.busy = true ∧ P u
    (sl.busy = true → exec c s = .next { s with slate := { sl with result := 1 }, resp := .ignored })
    ∧ (sl.busy = false →
      ((sl.present = false ∨ (1 ≤ sl.bootFail ∧ sl.bootFail ≤ 4)) → ends sl 9)
      ∧ (sl.present = true → sl.bootFail = 0 ∨ 4 < sl.bootFail →
        ((n = 1 ∧ sl.openSeq.isSome = true) ∨ (n ∈ [2, 3, 4, 5] ∧ sl.openSeq = none) → ends sl 2)
        ∧ (n ∈ [2, 3] → sl.openSeq.isSome = true →
            (let g := if n = 2 then 0x10000 else 256
             ofs % g ≠ 0 ∨ len % g ≠ 0 ∨ len = 0 ∨ 0x0F000000 < ofs + len) → ends sl 3)
        ∧ (slateFree s = true →
          (n = 1 → sl.openSeq = none → 19500 ≤ sl.life → ends sl 4)
          ∧ (n = 1 → sl.openSeq = none → sl.life < 19500 → begins (fun u => u.slate.life = sl.life + 1 ∧ u.slate.openSeq = some (sl.life + 1)
              ∧ u.slate.job = some .open_ ∧ ∃ r, u.vigil.page = some (0x100000 + 64 * sl.life, r) ∧ r.length = 28
              ∧ ofBytesLE (r.take 4) = sl.life + 1 ∧ ofBytesLE ((r.drop 4).take 4) = 1 + (if base = 0x10000000 then 16 else 0)
              ∧ ofBytesLE ((r.drop 8).take 8) = s.now % 2 ^ 64 ∧ ofBytesLE (r.drop 24) = crc32 (r.take 24) % 2 ^ 32))
          ∧ (n = 2 → sl.openSeq.isSome = true → ofs % 0x10000 = 0 → len % 0x10000 = 0 → 0 < len → ofs + len ≤ 0x0F000000 → sl.sector = none →
            begins (fun u => u.slate.sector = some (base + ofs) ∧ u.slate.job = some (.erase ofs len) ∧ u.slate.count = 0 ∧ u.slate.bytes = sl.bytes
              ∧ u.vigil.page = s.vigil.page))
          ∧ (n = 3 → sl.openSeq.isSome = true → ofs % 256 = 0 → len % 256 = 0 → 0 < len → ofs + len ≤ 0x0F000000 →
            begins (fun u => u.slate.job = some (.program ofs len bytes) ∧ u.slate.count = 0 ∧ u.slate.bytes = sl.bytes
              ∧ u.vigil.page = if 256 ≤ bytes.length ∧ fnMaster s (pfIx 0) = true then some (base + ofs, bytes.take 256) else s.vigil.page))
          ∧ (n = 4 → sl.openSeq.isSome = true → copyValid sl.card (base = 0x10000000) = false → ends sl 7)
          ∧ (n = 4 → sl.openSeq.isSome = true → copyValid sl.card (base = 0x10000000) = true →
            begins (fun u => u.slate.job = some .close ∧ u.vigil.page = some (void, [0, 0, 0, 0])))
          ∧ (n = 5 → sl.openSeq.isSome = true → begins (fun u => u.slate.job = some .abort ∧ u.vigil.page = some (void, [0xFF, 0xFF, 0, 0]))))
        ∧ (n = 6 → begins (fun u => u.slate.job = some .journal ∧ u.slate.queue.length = sl.queue.length + 1 ∧ u.vigil.page = s.vigil.page))))

/-- Pages, sectors and defect commits of the card. R475, R476, R479, R480, R483: PAGE_PROGRAM_DONE clears on the card the bits that its page clears, and no other byte changes; the OPEN, CLOSE or
ABORT it belongs to ends with OK, the last two closing the commit, or with CARD; a PROGRAM counts its page and goes on or ends with OK, or,
read back other than its data, ends with VERIFY. SECTOR_ERASE_DONE makes the sector 0xFF and counts it; a card that does not answer ends
the ERASE with CARD. SLATE_DONE takes the count of an ERASE or PROGRAM at its end.
R477, R478, R483, R481: DEFECT_COMMIT takes the oldest queued commit: with life and slots left it writes its life record and suspends a
running erase; its record and its close follow as the pages end, after which the defect is journaled; else JOURNAL_LOST. CARD_REMOVAL
empties the socket, ends what runs with CARD and loses a commit in progress; CARD_INSERTION makes the card present; SLATE_WINDOW_READ
reads a word. Model's choices it rests on: log 3, 80, 84, 85, 116. -/
def Obligations.CardAndCommits : Prop :=
  ((∀ (s : State) (ok : Bool) (a : Nat) (bs : List Byte), s.vigil.page = some (a, bs) → s.vigil.vstby = true → s.slate.commit = none →
    let sl := s.slate
    ∃ u, exec (.pageProgramDone ok) s = .next u ∧ u.resp = .done
      ∧ { u with resp := s.resp, slate := s.slate, vigil := s.vigil, freeCtr := s.freeCtr, fns := s.fns, toHost := s.toHost } = s
      ∧ (∀ i, i < a ∨ a + bs.length ≤ i → sget 0xFF u.slate.card i = sget 0xFF sl.card i)
      ∧ (∀ i < bs.length, ok = true → sget 0xFF u.slate.card (a + i) = sget 0xFF sl.card (a + i) &&& (bs[i]?).getD 0xFF)
      ∧ (∀ i k, (sget 0xFF u.slate.card i).getLsbD k = true → (sget 0xFF sl.card i).getLsbD k = true)
      ∧ (let ends := fun (code bytes : Nat) => u.slate.result = code ∧ u.slate.bytes = bytes ∧ u.slate.busy = false ∧ u.slate.job = none
            ∧ Signalled s u (pfIx 0) 1
        let same := ∀ i < bs.length, sget 0xFF sl.card (a + i) &&& (bs[i]?).getD 0xFF = (bs[i]?).getD 0xFF
        (sl.job = some .open_ → ends (if ok then 0 else 9) sl.bytes ∧ u.slate.openSeq = if ok then sl.openSeq else none)
        ∧ (sl.job = some .close ∨ sl.job = some .abort → ends (if ok then 0 else 9) sl.bytes
            ∧ u.slate.openSeq = if ok then none else sl.openSeq)
        ∧ (∀ ofs left d, sl.job = some (.program ofs left d) →
            (ok = false ∨ ¬same → ends 5 sl.count)
            ∧ (ok = true → same → left ≤ 256 → ends 0 (sl.count + 256))
            ∧ (ok = true → same → 256 < left → u.slate.count = sl.count + 256 ∧ u.slate.bytes = sl.bytes
                ∧ u.slate.job = some (.program (ofs + 256) (left - 256) (d.drop 256)) ∧ u.slate.busy = sl.busy))))
  ∧ (∀ (s : State) (ok : Bool) (a ofs left : Nat), s.slate.sector = some a → s.slate.job = some (.erase ofs left) → s.slate.suspended = false →
    let sl := s.slate
    ∃ u, exec (.sectorEraseDone ok) s = .next u ∧ u.resp = .done ∧ u.vigil = s.vigil
      ∧ { u with resp := s.resp, slate := s.slate, freeCtr := s.freeCtr, fns := s.fns, toHost := s.toHost } = s
      ∧ (∀ i, i < a ∨ a + 0x10000 ≤ i → sget 0xFF u.slate.card i = sget 0xFF sl.card i)
      ∧ (ok = true → ∀ i, a ≤ i → i < a + 0x10000 → sget 0xFF u.slate.card i = 0xFF)
      ∧ (let ends := fun (code bytes : Nat) => u.slate.result = code ∧ u.slate.bytes = bytes ∧ u.slate.busy = false ∧ u.slate.job = none
            ∧ Signalled s u (pfIx 0) 1
        (ok = true → left ≤ 0x10000 → ends 0 (sl.count + 0x10000))
        ∧ (ok = true → 0x10000 < left → u.slate.count = sl.count + 0x10000 ∧ u.slate.bytes = sl.bytes ∧ u.slate.busy = sl.busy
            ∧ u.slate.job = some (.erase (ofs + 0x10000) (left - 0x10000)))
        ∧ (ok = false → ends 9 sl.count))))
  ∧ ((∀ (s : State) (j : DefectJob) (r : List DefectJob),
    let sl := s.slate
    sl.queue = j :: r → sl.commit = none → s.vigil.page = none → slateOn s = true → slateReady s = true →
    (sl.present = true → sl.bootFail = 0 ∨ 4 < sl.bootFail → sl.life < 20000 → sl.defUsed < 65536 →
      ∃ u, exec .defectCommit s = .next u ∧ u.resp = .done ∧ { u with resp := s.resp, slate := s.slate, vigil := s.vigil } = s
        ∧ u.slate = { sl with queue := r, suspended := sl.sector.isSome, life := sl.life + 1, commit := some (j, 1, sl.life, sl.defUsed) }
        ∧ ∃ p, u.vigil.page = some (0x100000 + 64 * sl.life, p) ∧ p.length = 28 ∧ ofBytesLE (p.take 4) = sl.life + 1
          ∧ ofBytesLE ((p.drop 4).take 4) = 2 ∧ ofBytesLE ((p.drop 16).take 4) = sl.defUsed)
    ∧ (sl.present = false ∨ (1 ≤ sl.bootFail ∧ sl.bootFail ≤ 4) ∨ 20000 ≤ sl.life ∨ 65536 ≤ sl.defUsed → j.imported = false → sl.job = none →
      ∃ u, exec .defectCommit s = .next u ∧ u.resp = .done ∧ u.slate = { sl with queue := r, journalLost := true } ∧ u.vigil = s.vigil
        ∧ { u with resp := s.resp, slate := s.slate, boards := s.boards } = s))
  ∧ (∀ (s : State) (j : DefectJob) (st life dfx a : Nat) (bs : List Byte),
    s.slate.commit = some (j, st, life, dfx) → s.vigil.page = some (a, bs) → s.vigil.vstby = true → j.imported = false → s.slate.job = none →
      1 ≤ st ∧ st ≤ 3 → dfx < 65536 →
      ∃ u, exec (.pageProgramDone true) s = .next u ∧ u.resp = .done
        ∧ (st = 1 → u.slate.commit = some (j, 2, life, dfx) ∧ u.slate.defUsed = s.slate.defUsed + 1
            ∧ ∃ p, u.vigil.page = some (0x300000 + 64 * dfx, p) ∧ p.length = 64 ∧ ofBytesLE (p.take 4) = (life + 1) % 2 ^ 32
              ∧ ofBytesLE (p.drop 60) = 0)
        ∧ (st = 2 → u.slate.commit = some (j, 3, life, dfx) ∧ u.slate.defValid = s.slate.defValid + 1
            ∧ u.vigil.page = some (0x100000 + 64 * life + 0x3C, [0, 0, 0, 0]))
        ∧ (st = 3 → u.slate.commit = none ∧ u.vigil.page = none ∧ ∀ q ∈ u.flt.quar,
            fld q.a 31 1 = 0 → fld q.a 16 11 = j.X → fld q.a 0 10 = j.Y → bitAt q.a 28 = true))
  ∧ (∀ (s : State), s.slate.present = true → ∃ u, exec .cardRemoval s = .next u ∧ u.resp = .done
      ∧ u.slate.present = false ∧ u.slate.card = [] ∧ u.slate.sector = none ∧ u.slate.commit = none ∧ u.vigil.page = none
      ∧ (s.slate.commit.isSome = true → u.slate.journalLost = true)
      ∧ (∀ j, s.slate.job = some j → j ≠ .journal → u.slate.result = 9 ∧ u.slate.busy = false ∧ u.slate.job = none ∧ Signalled s u (pfIx 0) 1)
      ∧ u.bricks = s.bricks ∧ u.meds = s.meds ∧ u.heds = s.heds)
  ∧ (∀ (s : State) (card : List (Nat × Byte)) (sfdp : Option Sfdp), s.slate.present = false →
      ∃ u, exec (.cardInsertion card sfdp) s = .next u ∧ u.resp = .done
      ∧ { u with resp := s.resp, slate := s.slate } = s ∧ u.slate.present = true ∧ u.slate.sfdp = sfdp
      ∧ { u.slate with present := s.slate.present, card := s.slate.card, sfdp := s.slate.sfdp } = s.slate
      ∧ (card = [] → u.slate.card = []) ∧ ∀ p pre, card = pre ++ [p] → sget 0xFF u.slate.card (p.1 % 0x20000000) = p.2)
  ∧ (∀ (s : State) (f : Fn) (ofs : Fin 0x80000),
      let a := 0x80000 * fld s.slate.win 0 10 + ofs.val
      CanAccess s f .ident true → isPf f = true → ofs.val % 4 = 0 → slateOn s = true → (∀ p, s.vigil.page = some p → p.1 / 256 ≠ a / 256) →
      s.slate.sector ≠ some (a / 0x10000 * 0x10000) →
      (s.slate.present = true → exec (.slateWindowRead f ofs) s = .next { s with resp := .value (BitVec.ofNat 32 (ofBytesLE (readBytes 0xFF s.slate.card a 4))) })
      ∧ (s.slate.present = false → ∃ w, exec (.slateWindowRead f ofs) s = .next { s with resp := .value w, freeCtr := s.freeCtr + 1 })))

/-- Restarts leave what their rule says; boot goes through its steps. R490-R492, R486, R494, R495, R499-R501: what each of the wafer restarts, a loss of VSTBY or of the vigil domain's supply, VSTBY's
return and a check of the cell leave. IDENT_RESTART acts with its key alone, through a PF; a RESTART keeps the links and the PF
configuration. R487, R495, R511: BOOT begins step 1 of a device at rest, with a GOOD reference selected, REFCLK_A first; BOOT_STEP_END
ends the running step, whose work it does, and the next one runs: 3 fails with the cause of its check or takes the factory map, 4
replays the journals, 5 takes the running copy or fails, 6 applies it, 7 zeroes DRAM and HED SRAM, 8 waits for FLOW_OK and for every
mesh, then maps are made; step 9 sets DONE, makes defined boards EMPTY and signals the boot vector. Model's choices it rests on: log 5,
62, 86, 87, 88. -/
def Obligations.RestartsAndBoot : Prop :=
  ((∀ (s : State), awake s = false → s.boot.kind < 2 → ∃ u, exec .coldStart s = .next u ∧ u.resp = .done ∧ AtRest s u 1
    ∧ u.vigil = { s.vigil with vstby := true } ∧ u.fns = []
    ∧ ∀ h < 4, sget {} u.ends h = { perst := (sget {} s.ends h).perst })
  ∧ (∀ (s : State), ∃ u, exec .moduleReset s = .next u ∧ u.resp = .done ∧ AtRest s u 2 ∧ u.vigil = stopNoted s.vigil s.now 2 ∧ u.fns = []
    ∧ ∀ h < 4, sget {} u.ends h = { perst := (sget {} s.ends h).perst })
  ∧ (∀ (s : State), outOfReset s = true → ∃ u, exec .powerLoss s = .next u ∧ u.resp = .done ∧ AtRest s u 2 ∧ u.vigil = stopNoted s.vigil s.now 1
    ∧ u.fns = [] ∧ ∀ h < 4, sget {} u.ends h = { perst := (sget {} s.ends h).perst })
  ∧ (∀ (s : State) (f : Fn) (v : Word), CanAccess s f .ident false → isPf f = true →
    (fld v 16 16 = 0xB007 → bitAt v 0 = true → ∃ u, exec (.restart f v) s = .next u ∧ u.resp = .done ∧ AtRest s u 3
      ∧ u.vigil = stopNoted s.vigil s.now 3 ∧ u.ends = s.ends
      ∧ ∀ i, getFn u i = if i ∈ [0, 5, 10, 15] then { bme := (getFn s i).bme, aer := (getFn s i).aer } else {})
    ∧ (fld v 16 16 ≠ 0xB007 ∨ bitAt v 0 = false → exec (.restart f v) s = .next { s with resp := .ignored }))
  ∧ (∀ (s : State), s.vigil.vstby = true →
    (outOfReset s = false → exec .vstbyLoss s = .next { s with vigil := { s.vigil with vstby := false }, boot := { s.boot with kind := 1 }, resp := .done })
    ∧ (outOfReset s = true → ∃ u, exec .vstbyLoss s = .next u ∧ u.resp = .done ∧ AtRest s u 1
      ∧ u.vigil = { stopNoted s.vigil s.now 1 with vstby := false }))
  ∧ (∀ (s : State), s.vigil.vstby = false →
    exec .vstbyReturn s = .next { s with vigil := { s.vigil with vstby := true }, resp := .done }
    ∧ ∃ u, exec .vigilLoss s = .next u ∧ u.resp = .done ∧ u.vigil = { s.vigil with fell := true, page := none }
      ∧ { u with resp := s.resp, vigil := s.vigil, slate := s.slate, freeCtr := s.freeCtr } = s
      ∧ { u.slate with card := s.slate.card } = s.slate
      ∧ ∀ i, (∀ a bs, s.vigil.page = some (a, bs) → i < a ∨ a + bs.length ≤ i) → sget 0xFF u.slate.card i = sget 0xFF s.slate.card i)
  ∧ (∀ (s : State) (mv : Nat),
    exec (.cellCheck mv) s = .next { s with vigil := { s.vigil with cellLow := decide (mv < 2400) }, resp := .done }))
  ∧ ((∀ (s : State), awake s = false → s.vigil.vstby = true → ∃ u, exec .boot s = .next u ∧ u.resp = .done
    ∧ u.boot.running = true ∧ u.boot.done = false ∧ u.boot.failed = false ∧ u.boot.step = 1
    ∧ u.boot.kind = (if s.boot.kind = 0 then 1 else s.boot.kind)
    ∧ (let k := { s.clk with en := [(0, 0x40000000), (1, 0x40000000), (2, 0x40000000), (3, 0x40000000)] }
      u.clk = if s.clk.aGood = true then { k with selected := true, sel := false }
        else if s.clk.bGood = true then { k with selected := true, sel := true } else k)
    ∧ (let good := s.clk.aGood || s.clk.bGood
      (s.vigil.fell = false → u.vigil = { s.vigil with zeroT := s.vigil.zeroT && !good } ∧ u.time.continuity = s.time.continuity)
      ∧ (s.vigil.fell = true → u.time.continuity = false ∧ u.vigil = { s.vigil with
          last := 0, seen := 0, stopTime := 0, lost := true, programDone := false, fell := false, zeroT := !good })
      ∧ u.now = (if good = true ∧ (s.vigil.fell = true ∨ s.vigil.zeroT = true) then 0 else s.now) ∧ u.boot.startT = u.now % 2 ^ 64)
    ∧ (∀ h < 4, sget {} u.ends h = (let e := sget {} s.ends h; if e.perst = true ∨ e.up = true then e else { e with training := true }))
    ∧ { u with resp := s.resp, boot := s.boot, clk := s.clk, vigil := s.vigil, time := s.time, ends := s.ends, now := s.now } = s)
  ∧ (∀ (s : State) (ok : Bool), s.boot.running = true → s.boot.failed = false → linkKept s = false →
    let c := s.slate.card
    let goes := fun (P : State → Prop) => ∃ u, exec (.bootStepEnd ok) s = .next u ∧ u.resp = .done
      ∧ u.boot = { s.boot with step := s.boot.step + 1 } ∧ P u
    let fails := fun (cause : Nat) => ∃ u, exec (.bootStepEnd ok) s = .next u ∧ u.resp = .done ∧ u.boot.failed = true
      ∧ u.boot.running = false ∧ u.boot.done = s.boot.done ∧ u.boot.step = s.boot.step ∧ u.slate.bootFail = cause ∧ Signalled s u (pfIx 0) 0
      ∧ u.fields = s.fields ∧ u.boards = s.boards ∧ u.meds = s.meds ∧ u.heds = s.heds ∧ u.segs = s.segs ∧ u.mapsReady = s.mapsReady
    (s.boot.step = 1 → s.clk.selected = true → goes (fun u =>
      { u with resp := s.resp, boot := s.boot, clk := s.clk } = s ∧ { u.clk with en := s.clk.en } = s.clk
        ∧ ∀ n, sget 0 u.clk.en n = if n = 0 then sget 0 s.clk.en 0 ||| 0x80000000 else sget 0 s.clk.en n))
    ∧ (s.boot.step = 2 → s.vigil.page = none → goes (fun u => { u with resp := s.resp, boot := s.boot } = s))
    ∧ (s.boot.step = 3 → s.slate.present = false → fails 1)
    ∧ (s.boot.step = 3 → s.slate.present = true → ok = false ∨ sfdpGood s.slate.sfdp = false → fails 2)
    ∧ (s.boot.step = 3 → s.slate.present = true → ok = true → sfdpGood s.slate.sfdp = true → identityFail c ≠ 0 → fails (identityFail c))
    ∧ (s.boot.step = 3 → s.slate.present = true → ok = true → sfdpGood s.slate.sfdp = true → identityFail c = 0 → goes (fun u =>
      { u with resp := s.resp, boot := s.boot, segs := s.segs, slate := s.slate } = s
        ∧ (∀ fc < 12, ∀ y < 560, (sget {} u.segs (segKey fc y)).factory = factoryEntry c fc y)))
    ∧ (s.boot.step = 4 → goes (fun u => { u with resp := s.resp, boot := s.boot, segs := s.segs, slate := s.slate } = s
        ∧ u.slate.life = lifeUsed c ∧ u.slate.defUsed = defectsUsed c
        ∧ u.slate.defValid = ((List.range (defectsUsed c)).filter (defectValid c)).length
        ∧ ∀ j < defectsUsed c, defectValid c j = true →
          let w := cdW c (defAt j + 8)
          fld w 16 11 < 1152 → fld w 0 10 < 560 →
            (sget {} u.segs (segKey (fld w 16 11 / 96) (fld w 0 10))).journal.getLsbD (fld w 16 11 % 96) = true))
    ∧ (let pref := ((lastImage c s.slate.life).map (·.2)).getD false
       let can := fun b => ok = true ∧ s.slate.present = true ∧ copyValid c b = true
       s.boot.step = 5 →
        (can pref → goes (fun u => u.slate.runB = pref ∧ u.slate.fallback = false ∧ u.slate.held = copyPart c pref
            ∧ u.pwr.store = copyFirmware c (copyBase pref)))
        ∧ (¬can pref → can (!pref) → goes (fun u => u.slate.runB = !pref ∧ u.slate.fallback = true
            ∧ u.slate.held = copyPart c (!pref) ∧ u.pwr.store = copyFirmware c (copyBase (!pref))))
        ∧ (¬can pref → ¬can (!pref) → fails 5))
    ∧ (let c := s.slate.held
       let o := copyBase s.slate.runB
       s.boot.step = 6 → goes (fun u => u.wafer = fld (stesyW c o 0) 0 15 ∧ u.pwr.capW = fld (powerW c o 0) 0 16
        ∧ (∀ i < 16, sget 0 u.pwr.coef i = energyW c o i) ∧ (∀ f < 84, (getField u f).fcapW = fld (powerW c o (1 + f)) 0 16)
        ∧ (∀ b < 16, getBd u b = { copyBoard c o b with st := .undefined })
        ∧ (∀ h < 4, ∀ k < 8, getCh u h k = copyChan c o h k) ∧ u.slate.booted = true ∧ u.bricks = s.bricks ∧ u.segs = s.segs ∧ u.meds = s.meds))
    ∧ (s.boot.step = 7 → goes (fun u => (∀ m < 8, (getMed u m).dram = [] ∧ (getMed u m).ecc = []) ∧ (∀ h < 4, (getHed u h).sram = [])
        ∧ (s.flowOk = false → u.fields = s.fields)
        ∧ (s.flowOk = true → ∀ f < 84, (getField u f).mesh = .locking ∧ (getField u f).m = 16 ∧ (getField u f).voltCmd = 620)))
    ∧ (s.boot.step = 8 → s.flowOk = true → (getField s 0).mesh = .off → ∃ u, exec (.bootStepEnd ok) s = .next u ∧ u.resp = .done
        ∧ { u with resp := s.resp, fields := s.fields } = s
        ∧ FieldsBecome s u (fun f v => { v with mesh := .locking, m := 16, voltCmd := 620, volt := 620, target := 0, granted := 0, current := 0, phase := 0, v0 := 620, t0 := fieldTsum s f }))
    ∧ (s.boot.step = 8 → (∀ f < 84, clkRuns s f = true) → ∃ u, exec (.bootStepEnd ok) s = .next u ∧ u.resp = .done
        ∧ u.boot.done = true ∧ u.boot.running = false ∧ u.boot.failed = false ∧ u.boot.step = 9 ∧ u.mapsReady = true ∧ u.pwr.steward = true
        ∧ u.segs = s.segs.map (fun p => (p.1, { p.2 with mapDef := p.2.factory ||| p.2.journal ||| p.2.quar, pending := false }))
        ∧ (∀ b, (getBd u b).st = if (getBd s b).x1 = 0 then (getBd s b).st else .empty) ∧ Signalled s u (pfIx 0) 0
        ∧ u.bricks = s.bricks ∧ u.meds = s.meds ∧ u.heds = s.heds))
  ∧ (∀ (s : State), s.flowOk = false → ∃ u, exec .flowOkRise s = .next u ∧ u.resp = .done ∧ u.flowOk = true
      ∧ { u with resp := s.resp, flowOk := false, fields := s.fields } = s
      ∧ (¬(s.boot.running = true ∧ s.boot.step = 8 ∧ s.clk.waiting = false ∧ (getField s 0).mesh = .off) → u.fields = s.fields)
      ∧ (s.boot.running = true → s.boot.step = 8 → s.clk.waiting = false → (getField s 0).mesh = .off →
        FieldsBecome s u (fun f v => { v with mesh := .locking, m := 16, voltCmd := 620, volt := 620, target := 0, granted := 0, current := 0, phase := 0, v0 := 620, t0 := fieldTsum s f }))))

/-- References, switches, meshes and the timestamp. R510-R520, R529: a reference becomes GOOD or LOST: it is selected in boot step 1, ends a wait, begins a switch, or begins a wait in
which every mesh and every stalemate detector stops and every MED refreshes itself; a request of the PF begins a switch or is refused; a switch ends cleanly, or by
force with the ticks the edges add, and every LOCKED mesh aligns. A mesh that locks or has aligned is LOCKED; the last mesh to relock ends
the resumption, with the length of the wait and the signal (R520). CLK_FIELD_SEL captures a
mesh. R312, R313, R315, R316, R318: a tick advances the timestamp by one, a pending TIME_SET replaces it and makes it continuous, an
oscillator period in holdover adds 390,625/128 ticks with the fraction carried; each waits until the last tick's entries have executed
and the fields have acted on its starts,
and begins its tick's examination, whose first entry is the first in the order of R318 that can execute. TIME_CTL.SET makes a set
pending. Model's choices it rests on: log 66, 67, 68, 69, 76, 77, 86. -/
def Obligations.ClocksAndTime : Prop :=
  (∀ (s : State),
    let c := s.clk
    let only := fun (i : Instr) (k : ClkSt) => exec i s = .next { s with clk := k, resp := .done }
    let frame := fun (u : State) => { u with resp := s.resp, clk := s.clk, time := s.time, fields := s.fields, meds := s.meds, fns := s.fns, toHost := s.toHost, now := s.now } = s
    let refresh := fun (u : State) (on : Bool) => ∀ m, getMed u m = if m < 8 then { getMed s m with selfRefresh := on } else getMed s m
    let switched := fun (u : State) => FieldsBecome s u (fun _ v => { v with mesh := if v.mesh = .locked then .rephase else v.mesh, swM := false })
      ∧ u.meds = s.meds
    let noRx := ∀ h k, (getPort s h k).rx = []
    let resumed := fun (k : ClkSt) => { k with
      resuming := false, sticky := k.sticky ||| 0x1000000, waitLen := (s.now + 2 ^ 64 - c.waitStart) % 2 ^ 64 }
    (∀ r : Fin 2, refOk c r = false →
      let c1 := if r = 0 then { c with aGood := true } else { c with bGood := true }
      (c.waiting = false → ¬(s.boot.running = true ∧ s.boot.step = 1 ∧ c.selected = false) → only (.refGood r) c1)
      ∧ (c.waiting = false → s.boot.running = true → s.boot.step = 1 → c.selected = false → ∃ u, exec (.refGood r) s = .next u ∧ u.resp = .done
        ∧ u.clk = { c1 with selected := true, sel := decide (r = 1) } ∧ u.time.holdover = false
        ∧ u.now = (if s.vigil.zeroT = true then 0 else s.now) ∧ u.vigil = { s.vigil with zeroT := false }
        ∧ { u with resp := s.resp, clk := s.clk, time := s.time, now := s.now, boot := s.boot, vigil := s.vigil } = s)
      ∧ (c.waiting = true → ∃ u, exec (.refGood r) s = .next u ∧ u.resp = .done
        ∧ (let k := { c1 with sel := decide (r = 1), waiting := false, resuming := true }
          let relocks := ∃ f < 84, (getField s f).mesh = .stopped ∨ (getField s f).mesh = .relock
          (relocks → u.clk = k ∧ u.fns = s.fns ∧ u.toHost = s.toHost ∧ u.heds = s.heds)
          ∧ (¬relocks → u.clk = resumed k ∧ (noRx → Signalled s u (pfIx 0) 2)))
        ∧ u.time = { s.time with holdover := false } ∧ u.now = s.now ∧ refresh u false
        ∧ FieldsBecome s u (fun _ v => if v.mesh = .stopped then { v with mesh := .relock } else v)
        ∧ u.bricks = s.bricks ∧ u.boards = s.boards ∧ u.ties = s.ties ∧ u.edges = s.edges ∧ u.segs = s.segs))
    ∧ (∀ r : Fin 2, refOk c r = true →
      let c1 := if r = 0 then { c with aGood := false, sticky := c.sticky ||| 0x4000000 } else { c with bGood := false, sticky := c.sticky ||| 0x2000000 }
      let waits := ∃ u, exec (.refLost r) s = .next u ∧ u.resp = .done ∧ frame { u with boards := s.boards } ∧ u.now = s.now
        ∧ (∀ b, getBd u b = if b < 16 then { getBd s b with still := 0 } else getBd s b)
        ∧ u.clk = { c1 with waiting := true, resuming := false, switching := false, waitStart := if c.resuming then c.waitStart else s.now } ∧ u.time = { s.time with holdover := true, holdSeen := true }
        ∧ FieldsBecome s u (fun _ v => if v.mesh = .off then v else { v with mesh := .stopped, swM := false }) ∧ refresh u true ∧ Signalled s u (pfIx 0) 2
      (c.selected = false ∨ c.waiting = true → only (.refLost r) c1)
      ∧ (c.selected = true → c.waiting = false → r.val = selRef c → refOk c (othRef c) = true → only (.refLost r) { c1 with switching := true })
      ∧ (c.selected = true → c.waiting = false → r.val = selRef c → refOk c (othRef c) = false → waits)
      ∧ (c.selected = true → c.waiting = false → r.val ≠ selRef c → c.switching = true → waits)
      ∧ (c.selected = true → c.waiting = false → r.val ≠ selRef c → c.switching = false → only (.refLost r) c1))
    ∧ (∀ (f : Fn) (v : Word), CanAccess s f .clk false → isPf f = true →
      let go := fld v 16 16 = 0x5E1C ∧ bitAt v 1 = true
      let takes := refOk c (fld v 0 1) = true ∧ c.selected = true ∧ c.switching = false ∧ fld v 0 1 ≠ selRef c
      (¬go → exec (.refSwitchRequest f v) s = .next { s with resp := .ignored })
      ∧ (go → takes → only (.refSwitchRequest f v) { c with switching := true })
      ∧ (go → ¬takes → only (.refSwitchRequest f v) { c with sticky := c.sticky ||| 0x800000 }))
    ∧ (c.switching = true → refOk c (othRef c) = true →
      (∃ u, exec .switchClean s = .next u ∧ u.resp = .done ∧ frame u ∧ switched u ∧ u.time = s.time ∧ u.now = s.now ∧ u.fns = s.fns ∧ u.toHost = s.toHost
        ∧ u.clk = { c with sel := !c.sel, switching := false, lastSwitch := (s.now + 1) % 2 ^ 64 })
      ∧ (∀ n, tickReady s = false → Waits (.switchForce n) s)
      ∧ ∀ n, 64 ≤ n → tickReady s = true → ∃ u, exec (.switchForce n) s = .next u ∧ u.resp = .done ∧ frame u ∧ switched u ∧ u.now = (s.now + n) % 2 ^ 64
        ∧ { u.time with due := [] } = { s.time with due := [] } ∧ u.time.due.head? = examOrder.find? (fun k => entDue u k)
        ∧ Signalled s u (pfIx 0) 2
        ∧ u.clk = { c with sel := !c.sel, switching := false, lastSwitch := (s.now + n + 1) % 2 ^ 64, sticky := c.sticky ||| 0x8000000 })
    ∧ (∀ g : Fin 84,
      let locks := fun (i : Instr) => ∃ u, exec i s = .next u ∧ u.resp = .done ∧ { u with resp := s.resp, fields := s.fields } = s
        ∧ FieldsBecome s u (fun f v => if f = g.val then { v with mesh := .locked } else v)
      let last := c.resuming = true ∧ ∀ f < 84, f ≠ g.val → (getField s f).mesh ≠ .relock
      ((getField s g).mesh = .locking ∨ (getField s g).mesh = .relock → c.waiting = false → c.selected = true →
        (¬last → locks (.meshLocked g))
        ∧ (last → ∃ u, exec (.meshLocked g) s = .next u ∧ u.resp = .done ∧ u.clk = resumed c ∧ u.bricks = s.bricks ∧ u.boards = s.boards
          ∧ FieldsBecome s u (fun f v => if f = g.val then { v with mesh := .locked } else v) ∧ (noRx → Signalled s u (pfIx 0) 2)))
      ∧ ((getField s g).mesh = .rephase → c.switching = false → locks (.rephaseEnd g)))
    ∧ (∀ (f : Fn) (v : Word), CanAccess s f .clk false → isPf f = true → fld v 11 4 < 12 → fld v 8 3 < 7 →
      ∃ u, exec (.clkFieldSel f v) s = .next u ∧ u.resp = .done ∧ { u with resp := s.resp, clk := s.clk } = s
        ∧ { u.clk with fieldSel := c.fieldSel, fieldStat := c.fieldStat } = c
        ∧ fld u.clk.fieldSel 11 4 = fld v 11 4 ∧ fld u.clk.fieldSel 8 3 = fld v 8 3
        ∧ (let g := getField s (12 * fld v 8 3 + fld v 11 4)
           fld u.clk.fieldStat 29 3 = g.mesh.code ∧ (g.m < 64 → fld u.clk.fieldStat 23 6 = if g.mesh = .off then 0 else g.m)
             ∧ bitAt u.clk.fieldStat 22 = decide (g.stretch ≠ 0))))
  ∧ (∀ (s : State),
    let t := s.time
    let reached := fun (i : Instr) (n : Nat) (t1 : TimeSt) => ∃ u, exec i s = .next u ∧ u.resp = .done ∧ u.now = n % 2 ^ 64
      ∧ { u with resp := s.resp, now := s.now, time := s.time } = s ∧ { u.time with due := [] } = { t1 with due := [] }
      ∧ u.time.due.head? = examOrder.find? (fun k => entDue u k)
    (refRuns s = true → s.clk.switching = false → t.setPend = false → tickReady s = true → reached .timestampTick (s.now + 1) { t with holdover := false })
    ∧ (let n := t.setLo.toNat + 2 ^ 32 * t.setHi.toNat
      s.clk.switching = false → t.setPend = true → tickReady s = true → ∃ u, exec .timeSetApply s = .next u ∧ u.resp = .done ∧ u.now = n % 2 ^ 64
        ∧ { u with resp := s.resp, now := s.now, time := s.time, boot := s.boot } = s ∧ { u.boot with startT := s.boot.startT } = s.boot
        ∧ (u.boot.startT : Int) % 2 ^ 64 = ((s.boot.startT : Int) + n - (s.now + 1)) % 2 ^ 64
        ∧ { u.time with due := [] } = { t with
            setPend := false, continuity := true, holdover := t.holdover && !refRuns s, holdSeen := false, frac := 0, due := [] }
        ∧ u.time.due.head? = examOrder.find? (fun k => entDue u k))
    ∧ (refRuns s = false → s.clk.switching = false → t.setPend = false → tickReady s = true →
      reached .vigilOscillatorPeriod (s.now + (t.frac + 390625) / 128) { t with frac := (t.frac + 390625) % 128, holdover := true, holdSeen := true })
    ∧ (refRuns s = false ∨ s.clk.switching = true ∨ t.setPend = true ∨ tickReady s = false → Waits .timestampTick s)
    ∧ (refRuns s = true ∨ s.clk.switching = true ∨ t.setPend = true ∨ tickReady s = false → Waits .vigilOscillatorPeriod s)
    ∧ (s.clk.switching = true ∨ t.setPend = false ∨ tickReady s = false → Waits .timeSetApply s)
    ∧ (tickReady s = true ↔ dueNow s = [] ∧ ∀ p ∈ s.boards, p.2.startPending = true → p.2.startTs < s.now →
        ∀ f ∈ boardFields p.2, clkRuns s f = true → f ∈ p.2.fields)
    ∧ (∀ (f : Fn) (v : Word), linkOk s f = true →
      (isPf f = false → ∃ u, exec (.timeCtlSet f v) s = .next u ∧ u.resp = .violation ∧ { u with resp := s.resp, flt := s.flt } = s
        ∧ ∀ i, sget 0 u.flt.viol i = if i = (fnCtx f).getD 16 then evAdd (sget 0 s.flt.viol i) 1 else sget 0 s.flt.viol i)
      ∧ (isPf f = true → blkServed s f .time false = true →
        exec (.timeCtlSet f v) s = .next (if bitAt v 0 then { s with time := { t with setPend := true }, resp := .done } else { s with resp := .ignored }))))

/-- Schedule entries arm, cancel and execute. R317-R319, R323, R535, R222: a write of ACT with ARM = 1 is ignored whole on an ARMED entry, else takes its fields and arms the entry
if it may name the action; one with ARM = 0 cancels an ARMED entry, and waits for an execution of the same tick. An entry that the tick
reaches executes: its effect, EXECUTED, LATE and LATENESS, its signal. BRD_BAR_SEL captures a barrier. Model's choices it rests on: log
75, 76, 77. -/
def Obligations.Schedules : Prop :=
  ∀ (s : State),
    let others := fun (u : State) (k : Nat) => ∀ j, j ≠ k → entOf u j = entOf s j
    (∀ (f : Fn) (ent : SchedEntry) (v : Word), CanAccess s f .time false → entOk f ent = true →
      let k := entKey ent
      let e := entOf s k
      let code := if fld v 24 4 < 5 then fld v 24 4 else fld e.act 24 4
      let mayArm := match ent with
        | .dev _ => code = 4 ∧ rectOk (v &&& 0xFFFFFF) = true
        | .board b _ => code = 2 ∨ code = 3 ∨ (code = 1 ∧ ((getBd s b).pieces = 0 ∨ (getBd s b).home = true))
      let writes := fun (i : Instr) (st : Nat) => ∃ u, exec i s = .next u ∧ u.resp = .done ∧ { u with resp := s.resp, time := s.time } = s ∧ others u k
        ∧ { u.time with dev := s.time.dev, brd := s.time.brd } = s.time ∧ (entOf u k).tLo = e.tLo ∧ (entOf u k).tHi = e.tHi ∧ (entOf u k).st = st
        ∧ fld (entOf u k).act 24 4 = code ∧ fld (entOf u k).act 0 24 = fld v 0 24 ∧ bitAt (entOf u k).act 30 = bitAt v 30
      (e.st = 1 → exec (.scheduleArm f ent v) s = .next { s with resp := .ignored })
      ∧ (e.st ≠ 1 → mayArm → writes (.scheduleArm f ent v) 1)
      ∧ (e.st ≠ 1 → ¬mayArm → writes (.scheduleArm f ent v) e.st)
      ∧ (k ∈ dueNow s → Waits (.scheduleCancel f ent v) s)
      ∧ (k ∉ dueNow s → writes (.scheduleCancel f ent v) (if e.st = 1 then 3 else e.st)))
    ∧ (∀ (k : Nat), (dueNow s).head? = some k →
      let e := entOf s k
      let runs := fun (i : Instr) (P : State → Prop) => ∃ u, exec i s = .next u ∧ u.resp = .done
        ∧ entOf u k = { e with st := 2, late := decide (entT e < s.now), lateness := min 0x0FFFFFFF (s.now - entT e) }
        ∧ others u k ∧ k ∉ u.time.due ∧ u.now = s.now ∧ P u
      let sig := fun (u : State) (fn vec : Nat) => if bitAt e.act 30 = true then Signalled s u fn vec else u.toHost = s.toHost ∧ u.fns = s.fns
      (∀ d : Fin 16, k = d.val → entAct e = 4 → runs (.opChange d) (fun u => sig u (pfIx 0) 4
        ∧ { u with resp := s.resp, time := s.time, fields := s.fields, pwr := s.pwr, fns := s.fns, toHost := s.toHost } = s
        ∧ { u.pwr with event := s.pwr.event } = s.pwr
        ∧ FieldsBecome s u (fun g v => if g ∈ rectFields (entArg e) then { v with target := fld (entArg e) 0 3 } else v)))
      ∧ (∀ (b : Fin 16) (n : Fin 8), k = 16 + 8 * b.val + n.val →
        let bd := getBd s b
        (entAct e = 1 → runs (.boardStart b n) (fun u =>
          getBd u b = { bd with startTs := s.now % 2 ^ 64, startPending := true, streamsToo := false, fields := [] }
          ∧ (bd.pieces ≤ 1 → sig u (vfIx b) 3 ∧ { u with resp := s.resp, time := s.time, boards := s.boards, fns := s.fns, toHost := s.toHost } = s
            ∧ ∀ j, j ≠ b.val → getBd u j = getBd s j)))
        ∧ (entAct e = 2 → runs (.streamStart b n) (fun u => sig u (vfIx b) 3
          ∧ { u with resp := s.resp, time := s.time, boards := s.boards, bricks := s.bricks, fns := s.fns, toHost := s.toHost } = s
          ∧ (∀ j, getBd u j = if j = b.val ∧ bd.startPending = true then { bd with streamsToo := true } else getBd s j)
          ∧ (∀ q, (boardBricks s b).any (fun p => p.2.2 == q) = false → getB u q = getB s q)
          ∧ (∀ p ∈ boardBricks s b, { getB u p.2.2 with ctx := (getB s p.2.2).ctx } = getB s p.2.2
            ∧ ∀ c, getCtx (getB u p.2.2) c = (let w := cfgW (getB s p.2.2) (0x600 + 4 * c)
                if c < 4 ∧ (getCtx (getB s p.2.2) c).phase = .held ∧ bitAt w 31 = true then { phase := .active, pc := fld w 0 5 }
                else getCtx (getB s p.2.2) c))))
        ∧ (entAct e = 3 →
          let q := fld (entArg e) 0 6
          let gen := sget 0 bd.barGen q
          let C := fun par => sget 0 bd.barC (2 * q + par)
          let goes := fun (full : Bool) => runs (.barrierGate b n) (fun u => sig u (vfIx b) 3
            ∧ { u with resp := s.resp, time := s.time, boards := s.boards, fns := s.fns, toHost := s.toHost } = s
            ∧ (∀ j, j ≠ b.val → getBd u j = getBd s j)
            ∧ (∀ j, sget 0 (getBd u b).barGate j = if j = q then (if full then sget 0 bd.barGate q else sget 0 bd.barGate q + 1) else sget 0 bd.barGate j)
            ∧ (∀ j, sget 0 (getBd u b).barGen j = if j = q ∧ full = true then gen + 1 else sget 0 bd.barGen j)
            ∧ (∀ j, sget 0 (getBd u b).barC j = if j = 2 * q + gen % 2 ∧ full = true then 0 else sget 0 bd.barC j)
            ∧ (getBd u b).releases = bd.releases ++ (if full then (participants s b q).map (fun p => ⟨q, p.1, p.2.1, none⟩) else []))
          (C (gen % 2) ≠ barP bd q → goes false)
          ∧ (C (gen % 2) = barP bd q → C (1 - gen % 2) ≠ barP bd q → gen + 1 < 2 ^ 32 → goes true))))
    ∧ (∀ (f : Fn) (b : Fin 16) (v : Word), CanAccess s f .other false → reaches f b = true →
      let bd := getBd s b
      let q := fld v 0 6
      ∃ u, exec (.brdBarSel f b v) s = .next u ∧ u.resp = .done ∧ { u with resp := s.resp, boards := s.boards } = s
        ∧ (∀ j, j ≠ b.val → getBd u j = getBd s j) ∧ { getBd u b with regs := bd.regs } = bd
        ∧ (∀ o, o ≠ 0xA00 → o ≠ 0xA04 → o ≠ 0xA08 → o ≠ 0xA0C → sget 0 (getBd u b).regs o = sget 0 bd.regs o)
        ∧ sget 0 (getBd u b).regs 0xA00 = BitVec.ofNat 32 q ∧ sget 0 (getBd u b).regs 0xA04 = BitVec.ofNat 32 (sget 0 bd.barGen q)
        ∧ fld (sget 0 (getBd u b).regs 0xA08) 20 2 = sget 0 bd.barGate q % 4 ∧ fld (sget 0 (getBd u b).regs 0xA08) 0 20 = sget 0 bd.barC (2 * q) % 2 ^ 20
        ∧ fld (sget 0 (getBd u b).regs 0xA0C) 0 20 = sget 0 bd.barC (2 * q + 1) % 2 ^ 20)

/-- The governor and the sequencer move points and voltages. R534, R538, R536, R552: a loop of the governor moves each field's thermal and field ceilings by its temperature and power (mW), the
wafer ceilings by the power of the wafer, grants the least of target and ceilings, and begins transitions; TARGET_WRITE sets the
targets of a legal rectangle, or RECT_REJECTED; PWR_FIELD_SEL captures a field. R507, R517, R536, R537, R540, R546, R547: a step of M of a
transition, whose last one makes the destination the current point and goes on with a down transition's voltage or, going up, ends it;
the floor governor's steps; a reading that confirms a voltage, or not; a confirmation that times out commands the confirmed voltage and
the current point's target; a droop stretches the periods fully, and a step withdraws an eighth. Model's choices it rests on: log 70,
71, 72, 74. -/
def Obligations.Governor : Prop :=
  ((∀ (s : State) (p : Nat) (pf : List Nat), stewardActs s = true → s.pwr.floor = false → s.boot.done = true →
    let cap := 1000 * s.pwr.capW
    ∃ u, exec (.governorLoop p pf) s = .next u ∧ u.resp = .done
      ∧ { u with resp := s.resp, fields := s.fields, pwr := s.pwr } = s
      ∧ { u.pwr with event := s.pwr.event, waferW := s.pwr.waferW } = s.pwr ∧ u.pwr.waferW = p / 1000
      ∧ ∀ f < 84, let v := getField s f
        let w := getField u f
        let t := fieldTmax s f
        let q := (pf[f]?).getD 0
        w.therm = (if 760 ≤ t then v.therm - 1 else if t < 720 then min (v.therm + 1) 7 else v.therm)
        ∧ w.fcap = (if v.fcapW = 0 then v.fcap else if 1000 * v.fcapW < q then v.fcap - 1
            else if 10 * q < 9000 * v.fcapW then min (v.fcap + 1) 7 else v.fcap)
        ∧ (cap < p → (∀ g < 84, (getField s g).granted ≤ v.granted) → 0 < v.granted → w.wcap = v.granted - 1)
        ∧ (cap < p → (∃ g < 84, v.granted < (getField s g).granted) ∨ v.granted = 0 → w.wcap = v.wcap)
        ∧ (p ≤ cap → 10 * p < 9 * cap → v.wcap < min v.target 7 →
            (∀ g < 84, (getField s g).wcap < min (getField s g).target 7 → v.wcap ≤ (getField s g).wcap) →
            w.wcap = if v.wcap + 1 < 7 ∨ 100 * p < 85 * cap then v.wcap + 1 else v.wcap)
        ∧ (p ≤ cap → 9 * cap ≤ 10 * p ∨ min v.target 7 ≤ v.wcap
            ∨ (∃ g < 84, (getField s g).wcap < min (getField s g).target 7 ∧ (getField s g).wcap < v.wcap) → w.wcap = v.wcap)
        ∧ w.granted = min v.target (min w.therm (min w.fcap w.wcap))
        ∧ w = nextTransition s { v with therm := w.therm, fcap := w.fcap, wcap := w.wcap, granted := w.granted })
  ∧ (∀ (s : State) (f : Fn) (v : Word), CanAccess s f .other false → isPf f = true →
    let ok := v &&& 0xF88008 = 0 ∧ fld v 12 3 ≤ fld v 16 3 ∧ fld v 16 3 ≤ 6 ∧ fld v 4 4 ≤ fld v 8 4 ∧ fld v 8 4 ≤ 11
    (ok → ∃ u, exec (.targetWrite f v) s = .next u ∧ u.resp = .done ∧ { u with resp := s.resp, fields := s.fields, pwr := s.pwr } = s
      ∧ { u.pwr with event := s.pwr.event } = s.pwr
      ∧ FieldsBecome s u (fun g w => if fld v 12 3 ≤ g / 12 ∧ g / 12 ≤ fld v 16 3 ∧ fld v 4 4 ≤ g % 12 ∧ g % 12 ≤ fld v 8 4 then
          { w with target := fld v 0 3 } else w))
    ∧ (¬ok → exec (.targetWrite f v) s = .next { s with pwr := { s.pwr with event := s.pwr.event ||| 0x8000000 }, resp := .ignored })
    ∧ (fld v 11 4 < 12 → fld v 8 3 < 7 →
      let w := getField s (12 * fld v 8 3 + fld v 11 4)
      ∃ u, exec (.pwrFieldSel f v) s = .next u ∧ u.resp = .done ∧ { u with resp := s.resp, pwr := s.pwr } = s
        ∧ { u.pwr with regs := s.pwr.regs } = s.pwr
        ∧ (w.target < 8 → fld (sget 0 u.pwr.regs 0x24) 29 3 = w.target) ∧ (w.granted < 8 → fld (sget 0 u.pwr.regs 0x24) 26 3 = w.granted)
        ∧ (w.current < 8 → fld (sget 0 u.pwr.regs 0x24) 23 3 = w.current)
        ∧ sget 0 u.pwr.regs 0x30 = BitVec.ofNat 32 w.meas ∧ sget 0 u.pwr.regs 0x34 = BitVec.ofNat 32 (w.meas / 2 ^ 32)
        ∧ sget 0 u.pwr.regs 0x38 = BitVec.ofNat 32 w.model ∧ sget 0 u.pwr.regs 0x48 = BitVec.ofNat 32 w.unasg)))
  ∧ (∀ (s : State) (f : Fin 84),
    let v := getField s f
    let goes := fun (i : Instr) (w : FieldSt) => ∃ u, exec i s = .next u ∧ u.resp = .done ∧ FieldIs s u f w
    (v.mesh = .locked → s.clk.switching = true → v.swM = true → Waits (.mStep f) s)
    ∧ (v.mesh = .locked → s.clk.waiting = false → s.pwr.stopped = false → ¬(s.clk.switching = true ∧ v.swM = true) →
      let v := { v with swM := s.clk.switching }
      let m1 := if v.up then v.m + 1 else v.m - 1
      (v.phase = 2 → v.m ≠ opM v.dest → m1 ≠ opM v.dest → goes (.mStep f) { v with m := m1 })
      ∧ (v.phase = 2 → v.m ≠ opM v.dest → m1 = opM v.dest → v.up = true →
          goes (.mStep f) (nextTransition s { v with m := m1, current := v.dest, phase := 0 }))
      ∧ (v.phase = 2 → v.m ≠ opM v.dest → m1 = opM v.dest → v.up = false →
          goes (.mStep f) (if s.pwr.steward = true ∧ s.pwr.floor = false then
            { v with m := m1, current := v.dest, phase := 1, voltCmd := opV v.dest, voltWait := true }
            else { v with m := m1, current := v.dest, phase := 3 }))
      ∧ (v.phase ≠ 2 → s.pwr.floor = true → 16 < v.m →
          goes (.mStep f) { v with m := v.m - 1, phase := 0, current := if v.m = 17 then 0 else v.current })
      ∧ (v.phase ≠ 2 → s.pwr.floor = false → Waits (.mStep f) s))
    ∧ (∀ mv, s.pwr.stopped = false → s.pwr.floor = false → s.clk.waiting = false →
      (v.phase = 1 ∧ s.pwr.steward = true) ∨ (v.phase = 3 ∧ s.pwr.inReset = true) →
      let cmd := if v.phase = 3 ∧ v.up = false then opV v.dest else v.voltCmd
      (¬(mv ≤ cmd + 10 ∧ cmd ≤ mv + 10) → goes (.voltageRead f mv) { v with voltCmd := cmd, voltWait := true })
      ∧ (mv ≤ cmd + 10 → cmd ≤ mv + 10 → goes (.voltageRead f mv)
          (if v.up = true then { v with voltCmd := cmd, volt := cmd, voltWait := false, phase := 2 }
           else nextTransition s { v with voltCmd := cmd, volt := cmd, voltWait := false, phase := 0 })))
    ∧ (∀ mv, s.pwr.stopped = false → floorTurn f s = true →
      (¬(mv ≤ 630 ∧ 620 ≤ mv + 10) → goes (.voltageRead f mv) { v with voltCmd := 620, voltWait := true, phase := 0 })
      ∧ (mv ≤ 630 → 620 ≤ mv + 10 → ∃ u, exec (.voltageRead f mv) s = .next u ∧ u.resp = .done ∧ u.pwr = { s.pwr with floorAt := f + 1 }
        ∧ { u with resp := s.resp, pwr := s.pwr, fields := s.fields } = s
        ∧ ∀ g, getField u g = if g = f.val then { v with voltCmd := 620, volt := 620, voltWait := false, phase := 0 } else getField s g))
    ∧ (v.voltWait = true → s.clk.waiting = false → s.pwr.stopped = false → ∃ u, exec (.confirmTimeout f) s = .next u ∧ u.resp = .done
      ∧ { u with resp := s.resp, fields := s.fields, pwr := s.pwr } = s
      ∧ u.pwr = { s.pwr with event := s.pwr.event ||| 0x10000000, floorAt := if floorTurn f s = true then f + 1 else s.pwr.floorAt }
      ∧ ∀ g, getField u g = if g = f.val then { v with voltCmd := v.volt, voltWait := false, phase := 0, target := v.current
                                                       granted := min v.granted v.current } else getField s g)
    ∧ (v.mesh ≠ .off → v.mesh ≠ .stopped → goes (.droopTrigger f) { v with stretch := 8, droop := evAdd v.droop 1 })
    ∧ (v.stretch ≠ 0 → goes (.stretchStep f) { v with stretch := v.stretch - 1 }))

/-- Power stops, coolant requests and energy counts. R499, R539, R541, R542, R545-R547: a sensor at 110 °C in two samples in a row, FLOW_OK low and a RAIL alert stop the fields, once; a
second of these causes in the tick of the stop joins its record; a key write, the watchdog, while the timers' clock runs (R526), and an uncorrectable error reset the Steward; a reset that lasts and wafer power above 27,000 W engage the floor
governor; the Steward returns when its firmware verifies, nothing stands unconfirmed and the floor governor has finished. R544, R640,
R645, R548-R550: a coolant request carries 40 % and 6 % for each degree above 70 °C, rounded up and limited to 100 %, with the next
SEQ, or after a NACK the last request and SEQ again; the tray's readings; a sub-interval adds each board's energy, rounded once, and
begins the next with the voltage commanded; a millisecond publishes whole microjoules and carries the rest. Model's choices it rests
on: log 70, 73, 74. -/
def Obligations.PowerStopsAndEnergy : Prop :=
  (∀ (s : State),
    let running := s.boot.done = true ∧ s.pwr.stopped = false
    let stopTick := s.boot.done = true ∧ s.pwr.stopped = true ∧ s.vigil.stopTime = s.now
    let p := s.pwr
    (∀ (i : Fin 360) (t : Int),
      let hot := if t < 880 then p.hot.filter (· != i.val) else if p.hot.contains i.val then p.hot else i.val :: p.hot
      let s1 := { s with pwr := { p with sens := sset 0 p.sens i t, hot := hot } }
      ((t < 880 ∨ p.hot.contains i.val = false ∨ ¬(running ∨ stopTick)) → exec (.thermalSample i t) s = .next { s1 with resp := .done })
      ∧ (880 ≤ t → p.hot.contains i.val = true → stopTick →
          exec (.thermalSample i t) s = .next { s1 with vigil := stopNoted s.vigil s.now 5, resp := .done })
      ∧ (880 ≤ t → p.hot.contains i.val = true → running → ∃ u, exec (.thermalSample i t) s = .next u ∧ u.resp = .done ∧ PowerStopped s1 u 5))
    ∧ (s.flowOk = true →
        (running → ∃ u, exec .flowOkLow s = .next u ∧ u.resp = .done ∧ PowerStopped { s with flowOk := false } u 4)
        ∧ (stopTick → exec .flowOkLow s = .next { s with flowOk := false, vigil := stopNoted s.vigil s.now 4, resp := .done })
        ∧ (¬(running ∨ stopTick) → exec .flowOkLow s = .next { s with flowOk := false, resp := .done }))
    ∧ (p.steward = true → s.clk.waiting = false →
        let s1 := { s with pwr := { p with regs := sset 0 p.regs 0x100 (sget 0 p.regs 0x100 ||| 0x40000000) } }
        (running → ∃ u, exec .railAlert s = .next u ∧ u.resp = .done ∧ PowerStopped s1 u 6)
        ∧ (stopTick → exec .railAlert s = .next { s1 with vigil := stopNoted s.vigil s.now 6, resp := .done })
        ∧ (¬(running ∨ stopTick) → exec .railAlert s = .next { s1 with resp := .done }))
    ∧ (let resets := fun (i : Instr) (flt : FaultSt) (sig : State → Prop) => ∃ u, exec i s = .next u ∧ u.resp = .done
        ∧ { u with resp := s.resp, pwr := s.pwr, fields := s.fields, flt := s.flt, fns := s.fns, toHost := s.toHost } = s ∧ u.flt = flt
        ∧ u.pwr = { p with steward := false, inReset := true, event := p.event ||| 0x80000000 }
        ∧ sig u
        ∧ FieldsBecome s u (fun _ v => if v.phase = 1 then { v with phase := 3 } else v)
       (∀ f v, CanAccess s f .other false → isPf f = true →
        (fld v 16 16 = 0x57E0 → bitAt v 0 = true → s.boot.done = true → resets (.stewardGo f v) s.flt (fun u => Signalled s u (pfIx 0) 3))
        ∧ (fld v 16 16 ≠ 0x57E0 ∨ bitAt v 0 = false → exec (.stewardGo f v) s = .next { s with resp := .ignored }))
       ∧ (p.steward = true → s.clk.waiting = false → timerOn s = true → resets .watchdogExpiry s.flt (fun u => Signalled s u (pfIx 0) 3))
       ∧ (timerOn s = false → Waits .watchdogExpiry s)
       ∧ (p.inReset = false → s.boot.done = true → s.clk.waiting = false →
          resets .faultSteward { s.flt with dev := s.flt.dev ||| 0x40000000 }
            (fun u => ∃ m, Signalled s m (pfIx 0) 5 ∧ Signalled m u (pfIx 0) 3)))
    ∧ (let floors := fun (i : Instr) (ev : Word) => ∃ u, exec i s = .next u ∧ u.resp = .done
        ∧ { u with resp := s.resp, pwr := s.pwr, fields := s.fields, fns := s.fns, toHost := s.toHost } = s ∧ Signalled s u (pfIx 0) 3
        ∧ u.pwr = { p with steward := false, floor := true, floorAt := 0, event := p.event ||| ev }
        ∧ FieldsBecome s u (fun _ v => if v.phase = 1 ∨ v.phase = 3 then { v with phase := 0, voltWait := false } else v)
       (p.inReset = true → p.floor = false → p.stopped = false → floors .floorEngage 0x40000000)
       ∧ (∀ w, 27000 < w → p.steward = true → p.stopped = false → floors (.backstop w) 0x60000000)
       ∧ (∀ w, w ≤ 27000 → Waits (.backstop w) s))
    ∧ (p.steward = false → s.clk.waiting = false → s.boot.done = true → firmwareGood s.slate.fwKey p.store = true → (p.floor = true → 84 ≤ p.floorAt) →
        (∀ f < 84, (getField s f).phase ≠ 3) →
        exec .stewardReturn s = .next { s with pwr := { p with steward := true, inReset := false, floor := false, floorAt := 84 }, resp := .done }))
  ∧ (∀ (s : State), s.clk.waiting = false →
    let p := s.pwr
    (p.steward = true → bitAt (enW s 0) 4 = true →
      (∀ ack : Bool, ∃ u, exec (.coolantRequest ack) s = .next u ∧ u.resp = .done ∧ { u with resp := s.resp, pwr := s.pwr } = s
        ∧ { u.pwr with request := p.request, coolSeq := p.coolSeq, nackAgain := p.nackAgain, regs := p.regs } = p
        ∧ (let seq := if p.nackAgain = true then (p.coolSeq + 255) % 256 else p.coolSeq
           u.pwr.coolSeq = (seq + 1) % 256 ∧ u.pwr.nackAgain = !ack
           ∧ (ack = true → fld (sget 0 u.pwr.regs 0x100) 0 8 = seq % 256) ∧ (ack = false → bitAt (sget 0 u.pwr.regs 0x100) 23 = true))
        ∧ (p.nackAgain = true → u.pwr.request = p.request)
        ∧ (p.nackAgain = false → p.stopped = true → u.pwr.request = 100)
        ∧ (p.nackAgain = false → p.stopped = false → 40 ≤ u.pwr.request ∧ u.pwr.request ≤ 100
            ∧ (u.pwr.request < 100 → 6 * (waferTmax s - 560) ≤ 8 * ((u.pwr.request : Int) - 40))
            ∧ (40 < u.pwr.request → 8 * ((u.pwr.request : Int) - 41) < 6 * (waferTmax s - 560))))
      ∧ (∀ (fl : Option Nat) (ti : Option Int), ∃ u, exec (.trayRead fl ti) s = .next u ∧ u.resp = .done ∧ { u with resp := s.resp, pwr := s.pwr } = s
        ∧ { u.pwr with trayOk := p.trayOk, flow := p.flow, tin := p.tin } = p ∧ u.pwr.trayOk = (fl.isSome && ti.isSome)
        ∧ (∀ a b, fl = some a → ti = some b → u.pwr.flow = a ∧ u.pwr.tin = b)
        ∧ (fl = none ∨ ti = none → u.pwr.flow = p.flow ∧ u.pwr.tin = p.tin)))
    ∧ (p.steward = true → ∀ cur, exec (.calibration cur) s = .next { s with pwr := { p with calib := cur }, resp := .done })
    ∧ (s.boot.done = true → ∃ u, exec .subIntervalEnd s = .next u ∧ u.resp = .done
      ∧ { u with resp := s.resp, pwr := s.pwr, boards := s.boards, fields := s.fields } = s
      ∧ (∀ f < 84, let v := getField s f
        let w := getField u f
        w.act = [] ∧ w.v0 = v.voltCmd ∧ w.t0 = fieldTsum s f
        ∧ w.unasgFJ = v.unasgFJ + (staticFJ s v (7360 - ((List.range 16).map (fun b => bricksIn (getBd s b) f)).sum)).toNat
        ∧ { w with act := v.act, v0 := v.v0, t0 := v.t0, modelFJ := v.modelFJ, unasgFJ := v.unasgFJ } = v)
      ∧ (∀ b < 16, { getBd u b with energyFJ := (getBd s b).energyFJ } = getBd s b
        ∧ (getBd u b).energyFJ = (getBd s b).energyFJ + if (getBd s b).st = .undefined then 0 else
          ((List.range 84).map (fun f => let v := getField s f
            (dynFJ s v b + staticFJ s v (bricksIn (getBd s b) f)).toNat + coef s 8 * sget 0 v.act (16 * b + 8))).sum))
    ∧ (s.boot.done = true → ∀ meas edge, ∃ u, exec (.energyPublish meas edge) s = .next u ∧ u.resp = .done
      ∧ { u with resp := s.resp, pwr := s.pwr, boards := s.boards, fields := s.fields } = s
      ∧ (∀ f < 84, let v := getField s f
        getField u f = { v with meas := (v.meas + (meas[f]?).getD 0) % 2 ^ 64, model := (v.model + v.modelFJ / 1000000000) % 2 ^ 64
                                modelFJ := v.modelFJ % 1000000000, unasg := (v.unasg + v.unasgFJ / 1000000000) % 2 ^ 64, unasgFJ := v.unasgFJ % 1000000000 })
      ∧ (∀ b < 16, let v := getBd s b
        getBd u b = { v with energy := (v.energy + v.energyFJ / 1000000000) % 2 ^ 64, energyFJ := v.energyFJ % 1000000000 })
      ∧ u.pwr = { p with unasg := (p.unasg + p.unasgFJ / 1000000000) % 2 ^ 64, unasgFJ := p.unasgFJ % 1000000000
                         dram := (p.dram + p.dramFJ / 1000000000) % 2 ^ 64, dramFJ := p.dramFJ % 1000000000, edgeMeas := (p.edgeMeas + edge) % 2 ^ 64 }))

/-- Faults are reported in order and act on boards, bricks and links. R609-R616, R619, R620, R628: FAULT_REPORT takes the first fault in the order of R611. It counts for its board, whose first fault it
becomes unless an earlier one stands; classes P, H and I end a LOADED board and drain a RUNNING or DRAINING one hard with ABORT; the
vectors of R612 are signalled. A hard fault quarantines its brick, makes it a defect of its segment, lists it, records a SPLIT_VIEW and
queues a defect commit; a bridge, or a link faulted twice, is quarantined and listed once. A poll counts the polls a brick has missed,
and the third makes it faulty; a bridge whose own retries grew by more than 1,000 is judged faulty. FAULT_QUAR_SEL captures an entry.
Model's choices it rests on: log 24, 97. -/
def Obligations.FaultsReported : Prop :=
  (∀ (s : State), s.clk.waiting = true → Waits .faultReport s) ∧ (∀ (s : State) (e : Raised), firstFault s.raised = some e → s.clk.waiting = false →
    let third := ∃ a c r, (getB s e.phys).hist = a :: c :: r ∧ e.tick - c ≤ 360000000000
    let hard := e.brick ≠ none ∧ e.code ∈ [0x10, 0x11, 0x12] ∧ (e.again = true ∨ e.code = 0x12 ∨ third)
    let d := e.detail.toNat % 4
    let reports := fun (P : State → Prop) => ∃ u, exec .faultReport s = .next u ∧ u.resp = .done ∧ u.raised = s.raised.erase e
      ∧ u.now = s.now ∧ u.mapsReady = s.mapsReady ∧ u.clk = s.clk ∧ u.pwr = s.pwr ∧ u.time = s.time ∧ P u
    let record := fun (b' : Board) => b'.fltValid = true ∧ b'.fltCode = e.code ∧ b'.fltTick = e.tick ∧ b'.fltDetail = e.detail
      ∧ b'.fltBrick = e.brick.isSome ∧ (∀ x y, e.brick = some (x, y) → b'.fltX = x ∧ b'.fltY = y)
    (∀ b, ¬hard → e.code ∉ [0x11, 0x13, 0x14] → e.board = some b →
      let bd := getBd s b
      let drains := (1 ≤ e.code ∧ e.code ≤ 8) ∨ (0x10 ≤ e.code ∧ e.code ≤ 0x17) ∨ e.code = 0x20 ∨ e.code = 0x21
      reports (fun u =>
        let b' := getBd u b
        b'.fltCount = min 0xFFFF (bd.fltCount + 1) ∧ (bd.fltValid = false → record b' ∧ b'.fltHard = false ∧ b'.fltQuar = false)
        ∧ (bd.fltValid = true → bd.fltTick < e.tick → b'.fltCode = bd.fltCode ∧ b'.fltTick = bd.fltTick ∧ b'.fltX = bd.fltX ∧ b'.fltY = bd.fltY)
        ∧ (bd.fltValid = true → e.tick < bd.fltTick → record b')
        ∧ (∀ k, { getB u k with hist := (getB s k).hist } = getB s k)
        ∧ (∀ k, (getB u k).hist = if k = e.phys ∧ e.brick ≠ none ∧ e.code ∈ [0x10, 0x12] then (e.tick :: (getB s k).hist).take 3 else (getB s k).hist)
        ∧ (drains → bd.st = .loaded → b'.st = .halted ∧ b'.faultDrain = true)
        ∧ (drains → bd.st = .running ∨ bd.st = .draining → b'.st = bd.st ∧ b'.faultDrain = true
            ∧ (∀ o, bd.drain = some o → b'.drain = if o.hard = true then some o else some { o with hard := true, abort := true })
            ∧ (bd.drain = none → b'.drain = some ⟨true, true, 1⟩))
        ∧ (¬drains ∨ bd.st ∉ [.loaded, .running, .draining] → b'.st = bd.st ∧ b'.drain = bd.drain ∧ b'.faultDrain = bd.faultDrain
            ∧ (e.code ≠ 0x30 → ∃ m, Signalled s m (vfIx b) 2 ∧ Signalled m u (pfIx (b / 4)) (8 + b)))
        ∧ (∀ n, n ≠ b → getBd u n = getBd s n)))
    ∧ (∀ x y, hard → e.code ≠ 0x11 → e.brick = some (x, y) → (getB s e.phys).st ≠ .quarantined →
      let X := e.phys % 1152
      let Y := e.phys / 1152
      reports (fun u => (getB u e.phys).st = .quarantined
        ∧ (getSeg u (X / 96) Y).quar = (getSeg s (X / 96) Y).quar ||| BitVec.ofNat 96 (2 ^ (X % 96)) ∧ (getSeg u (X / 96) Y).pending = true
        ∧ (s.flt.quar.length < 4096 → ∃ q, u.flt.quar = s.flt.quar ++ [q] ∧ bitAt q.a 31 = false ∧ fld q.a 16 11 = X % 2 ^ 11 ∧ fld q.a 0 10 = Y % 2 ^ 10
            ∧ fld q.b 0 8 = e.code % 2 ^ 8)
        ∧ (4096 ≤ s.flt.quar.length → u.flt.quar = s.flt.quar ∧ u.flt.quarCount = min 0xFFFF (s.flt.quarCount + 1))
        ∧ u.flt.splitTime = s.now ∧ bitAt u.flt.dev 29 = true ∧ u.flt.splitCount = min 0xFFFF (s.flt.splitCount + 1)
        ∧ (if e.mgmt = true then fld u.flt.splitView 16 8 = e.code % 2 ^ 8 else fld u.flt.splitView 24 8 = e.code % 2 ^ 8)
        ∧ (∃ j, u.slate.queue = s.slate.queue ++ [j] ∧ j.X = X ∧ j.Y = Y ∧ j.code = e.code ∧ j.imported = false ∧ j.tick = e.tick)
        ∧ ∀ b, e.board = some b → (getBd u b).fltCount = min 0xFFFF ((getBd s b).fltCount + 1)
            ∧ ((getBd s b).fltValid = false → record (getBd u b) ∧ (getBd u b).fltHard = true ∧ (getBd u b).fltQuar = true)))
    ∧ (∀ x y, ¬hard → e.brick = some (x, y) → e.code ∈ [0x13, 0x14] ∨ (e.code = 0x11 ∧ 2 ≤ linkCount s x y d) →
      (linkMarked s x y d = true → reports (fun u => u.flt = s.flt ∧ u.segs = s.segs ∧ u.slate = s.slate))
      ∧ (linkMarked s x y d = false → ∀ k, keyOf s x y = some k → reports (fun u => (getB u k).quarLinks.getLsbD d = true ∧ u.segs = s.segs ∧ u.slate = s.slate
        ∧ (s.flt.quar.length < 4096 → ∃ q, u.flt.quar = s.flt.quar ++ [q] ∧ bitAt q.a 31 = true)
        ∧ (e.code = 0x11 → u.flt.splitCount = s.flt.splitCount)
        ∧ (e.code ≠ 0x11 → u.flt.splitCount = min 0xFFFF (s.flt.splitCount + 1))
        ∧ (e.code ≠ 0x11 → bridgeUsed s x y d (e.code == 0x14) = false → ∀ b, getBd u b = getBd s b)))))
  ∧ (∀ (s : State) (f : Fin 84) (silent : List (Nat × Nat)), s.mapsReady = true → (getField s f).mesh ≠ .off → s.clk.waiting = false →
    ∃ u, exec (.sidebandPoll f silent) s = .next u ∧ u.resp = .done
      ∧ { u with resp := s.resp, bricks := s.bricks, ties := s.ties, edges := s.edges, raised := s.raised } = s
      ∧ (∃ l, u.raised = s.raised ++ l ∧ ∀ r ∈ l, r.mgmt = true ∧ r.tick = s.now ∧ r.code ∈ [0x12, 0x13, 0x14])
      ∧ (∀ (x : Fin 1104) (y : Fin 560) k, fieldOf x y = f → keyOf s x y = some k → (getB s k).st ≠ .quarantined →
          (x.val, y.val) ∈ silent → (getB s k).missed = 2 → (getB u k).st = .faulted
            ∧ ∃ r ∈ u.raised, r.code = 0x12 ∧ r.brick = some (x.val, y.val) ∧ r.phys = k ∧ r.detail = 3)
      ∧ (∀ (x : Fin 1104) (y : Fin 560) k, fieldOf x y = f → keyOf s x y = some k → (getB s k).st ≠ .quarantined →
          (getB u k).missed = if (x.val, y.val) ∈ silent then (getB s k).missed + 1 else 0)
      ∧ ((s.ties.map Prod.fst).Nodup → ∀ p ∈ s.ties,
          let x := p.1 / 4 % 1104
          let y := p.1 / 4 / 1104
          fieldOf x y = f →
          (getTie u p.1).retriesRead = p.2.retries ∧ ((getTie u p.1).dead = true ↔ p.2.dead = true ∨ 1000 < p.2.retries - p.2.retriesRead)))
  ∧ (∀ (s : State) (f : Fn) (v : Word), CanAccess s f .other false → isPf f = true →
    let q := (s.flt.quar[fld v 0 12]?).getD ⟨0, 0⟩
    exec (.faultQuarSel f v) s = .next { s with flt := { s.flt with quarSel := BitVec.ofNat 32 (fld v 0 12), quarA := q.a, quarB := q.b }, resp := .done })

/-- Stesy ports train, retrain and die. R583-R586, R588, R589: ALIGN_LOCK takes a port from ALIGN to HELLO; a HELLO names wafer, HED and port; 16 accepted HELLOs of one
content make the port ACTIVE with fresh credits, one rejected REJECTED; in RETRAIN another peer makes it DEAD, 16 HELLOs ACTIVE with
its stored units to send again; RETRAIN keeps them; a DEAD port's units count as NOROUTE. A HELLO from an uncorrectable codeword is discarded, and a codeword is counted once (R588, R607). Every change of state is an event and signals
vector 6. Model's choices it rests on: log 8, 95. -/
def Obligations.PortsTrain : Prop :=
  ∀ (s : State) (h k : Fin 4), linkKept s = false →
    let p := getPort s h k
    let frame := fun (u : State) => { u with resp := s.resp, heds := s.heds, fns := s.fns, toHost := s.toHost } = s
    let becomes := fun (i : Instr) (v : Port) (sig : Bool) => ∃ u, exec i s = .next u ∧ u.resp = .done ∧ frame u ∧ PortBecomes s u h k v
      ∧ (if sig then Signalled s u (pfIx h) 6 else u.fns = s.fns ∧ u.toHost = s.toHost)
    let left : Word := if p.st = 4 then 0x80000000 else 0
    let dies := fun (i : Instr) (p : Port) =>
      let n := p.replay.length + (p.txq.map (fun q => q.2.length)).sum
      ∃ u m, exec i s = .next u ∧ u.resp = .done ∧ frame u ∧ Signalled s m (pfIx h) 6
        ∧ (if n = 0 then u.toHost = m.toHost ∧ u.fns = m.fns else Signalled m u (pfIx h) 6)
        ∧ (∀ h' k', getPort u h' k' = if h' = h.val ∧ k' = k.val then
            { p with replay := [], again := [], txq := [], st := 6, evt := p.evt ||| left ||| 0x40000000 } else getPort s h' k')
        ∧ ∀ j, (getHed u j).noroute = if j = h.val ∧ n ≠ 0 then min 0xFFFF ((getHed s j).noroute + n) else (getHed s j).noroute
    (p.st = 2 → becomes (.alignLock h k) { p with st := 3 } true)
    ∧ (p.st = 5 → p.aligned = false → becomes (.alignLock h k) { p with aligned := true } false)
    ∧ ((p.st = 3 ∨ (p.st = 5 ∧ p.aligned = true)) →
      (∃ l, exec (.helloSend h k) s = .next { s with resp := .bytes l } ∧ l.length = 33 ∧ l.head? = some 1 ∧ fld (unitW l.tail 0) 28 4 = 2
        ∧ fld (unitW l.tail 1) 0 15 = s.wafer % 2 ^ 15 ∧ fld (unitW l.tail 1) 16 2 = h ∧ fld (unitW l.tail 1) 18 2 = k ∧ unitW l.tail 2 = 1)
      ∧ ∀ l (fec : Fin 3) (first : Bool),
        let p := if first = true ∧ fec = 1 then { p with fecCe := evAdd p.fecCe 1 }
          else if first = true ∧ fec = 2 then { p with fecUe := evAdd p.fecUe 1 } else p
        (fec = 2 → becomes (.helloReceive h k l fec first) p false) ∧ (fec ≠ 2 → fld (unitW l 0) 28 4 = 2 →
        let who := (fld (unitW l 1) 0 15, fld (unitW l 1) 16 2, fld (unitW l 1) 18 2)
        let ok := fld (unitW l 2) 0 8 = 1 ∧ ¬(who.1 = s.wafer ∧ who.2.1 = h.val)
        let n := if p.st = 5 ∨ p.helloLast = some who then p.hellos + 1 else 1
        let p1 := if p.st = 5 then { p with hellos := n } else { p with hellos := n, helloLast := some who, peer := some (p.peer.getD who) }
        (p.st = 3 → ¬ok → becomes (.helloReceive h k l fec first) { p with st := 7, evt := p.evt ||| 0x20000000 } true)
        ∧ (p.st = 5 → ¬ok ∨ p.peer ≠ some who → dies (.helloReceive h k l fec first) p)
        ∧ (ok → p.st = 3 ∨ p.peer = some who → n < 16 → becomes (.helloReceive h k l fec first) p1 false)
        ∧ (ok → p.st = 3 ∨ p.peer = some who → 16 ≤ n → p.wasActive = true →
            becomes (.helloReceive h k l fec first) { p1 with again := p.replay, aligned := false, st := 4, evt := p.evt ||| 0x10000000 } true)
        ∧ (ok → p.st = 3 ∨ p.peer = some who → 16 ≤ n → p.wasActive = false → ∃ cr,
            becomes (.helloReceive h k l fec first) { p1 with wasActive := true, txCred := cr, st := 4, evt := p.evt ||| 0x10000000 } true
              ∧ ∀ i ≤ 64, sget 0 cr i = if i = 64 then 64 else 16)))
    ∧ (p.st = 4 → becomes (.retrain h k)
        { p with aligned := false, hellos := 0, helloLast := none, nakSeq := none, nakCount := 0, st := 5, evt := p.evt ||| 0x80000000 } true)
    ∧ (p.st = 5 → dies (.retrainTimeout h k) p)

/-- Stesy units are sent, accepted in sequence and forwarded. R586-R588, R597, R606, R519: an ACTIVE port sends a LINK unit when one is due, else what a NAK asks for again, else a new unit of a
lane with a credit, the service lane first, which takes the next LSEQ and stays in the replay store, else IDLE. A received unit is
accepted in sequence alone, and then delivered, forwarded or counted; any other asks for one NAK. A LINK unit returns credits, frees
what its ACK covers and has units sent again from its NAK on. LSEL, CSEL and FSEL capture a lane, a slot and an entry. Model's choices
it rests on: log 78, 79, 95. -/
def Obligations.UnitsCross : Prop :=
  let counted := fun (fec : Fin 3) (first : Bool) (p : Port) =>
    if first = true ∧ fec = 1 then { p with fecCe := evAdd p.fecCe 1 }
    else if first = true ∧ fec = 2 then { p with fecUe := evAdd p.fecUe 1 } else p
  (∀ (s : State) (h k : Fin 4),
    let p := getPort s h k
    p.st = 4 →
    let sends := fun (v : Port) (l : List Byte) => ∃ u, exec (.unitSend h k) s = .next u ∧ u.resp = .bytes l
      ∧ { u with resp := s.resp, heds := s.heds } = s ∧ PortBecomes s u h k v
    let idle := (1 : Byte) :: List.replicate 32 0
    let due := p.linkWait = 0 ∧ (p.nakDue = true ∨ p.ackDue = true ∨ pendingLanes p ≠ [])
    (linkKept s = true → exec (.unitSend h k) s = .next { s with resp := .bytes idle })
    ∧ (linkKept s = false → due → ∃ v l, sends v l ∧ l.length = 33 ∧ l.head? = some 1 ∧ fld (unitW l.tail 0) 28 4 = 1
        ∧ bitAt (unitW l.tail 0) 26 = p.nakDue ∧ bitAt (unitW l.tail 0) 27 = (p.ackDue && !p.nakDue)
        ∧ (p.nakDue = true → fld (unitW l.tail 0) 12 12 = p.expect % 4096)
        ∧ (p.nakDue = false → p.ackDue = true → fld (unitW l.tail 0) 12 12 = (p.expect + 4095) % 4096)
        ∧ { v with repTot := p.repTot, repPtr := p.repPtr } = { p with nakDue := false, ackDue := p.ackDue && p.nakDue, linkWait := 64 }
        ∧ ∀ ln, sget 0 v.repTot ln = if ln ∈ (pendingLanes p).take 14 then sget 0 p.retTot ln else sget 0 p.repTot ln)
    ∧ (linkKept s = false → ¬due →
      (∀ x r, p.again = x :: r → sends { p with linkWait := p.linkWait - 1, again := r, retry := evAdd p.retry 1 } (dataBytes x))
      ∧ (p.again = [] → ∀ ln x, nextUnit p = some (ln, x) → ∃ v, sends v (dataBytes { x with lseq := p.nextSeq })
          ∧ v.nextSeq = (p.nextSeq + 1) % 4096 ∧ v.replay = p.replay ++ [{ x with lseq := p.nextSeq }] ∧ v.linkWait = p.linkWait - 1
          ∧ (∀ i, sget 0 v.txCred i = if i = ln then sget 0 p.txCred i - 1 else sget 0 p.txCred i)
          ∧ (∀ i, sget [] v.txq i = if i = ln then (sget [] p.txq i).drop 1 else sget [] p.txq i)
          ∧ { v with nextSeq := p.nextSeq, replay := p.replay, linkWait := p.linkWait, txCred := p.txCred, txq := p.txq, lanePtr := p.lanePtr } = p)
      ∧ (p.again = [] → nextUnit p = none → sends { p with linkWait := p.linkWait - 1 } idle))
    ∧ (∀ x r, p.replay.length < 2048 → sget [] p.txq 64 = x :: r → 0 < sget 0 p.txCred 64 → nextUnit p = some (64, x))
    ∧ (2048 ≤ p.replay.length → nextUnit p = none))
  ∧ (∀ (s : State) (h k : Fin 4) (l : List Byte) (fec : Fin 3) (first : Bool),
    let p := counted fec first (getPort s h k)
    let x := readUnit l
    let takes := fun (P : State → Prop) => ∃ u, exec (.dataUnitReceive h k l fec first) s = .next u ∧ u.resp = .done
      ∧ { u with resp := s.resp, heds := s.heds, fns := s.fns, toHost := s.toHost } = s ∧ P u
    let p1 := { p with expect := (p.expect + 1) % 4096, nakOut := false, nakDue := false, ackDue := true }
    let ln := if x.svc then 64 else x.lc
    p.st = 4 →
    (fec = 2 ∨ x.lseq ≠ p.expect → takes (fun u => PortBecomes s u h k { p with nakDue := p.nakDue || !p.nakOut, nakOut := true }))
    ∧ (fec ≠ 2 → x.lseq = p.expect → linkKept s = true → takes (fun u => ∃ rx, PortBecomes s u h k { p1 with rx := rx }
        ∧ ∀ i, sget [] rx i = if i = ln then sget [] p.rx i ++ [x] else sget [] p.rx i))
    ∧ (fec ≠ 2 → x.lseq = p.expect → linkKept s = false → takes (fun u =>
        let q := getPort u h k
        let sl := getSlot s h x.dslot
        let fits := sl.used = true ∧ sl.closed = false ∧ sl.epoch = x.epoch
        let here := x.dwafer = s.wafer ∧ x.dhed = h.val
        let e := getHed s h
        { q with retTot := p.retTot, txq := p.txq } = p1 ∧ (∀ i, sget 0 q.retTot i = if i = ln then sget 0 p.retTot i + 1 else sget 0 p.retTot i)
        ∧ (here → x.typ = 0 → fits → sl.dirIn = true → getSlot u h x.dslot = { sl with ring := sl.ring ++ unitFlits x } ∧ (getHed u h).stale = e.stale)
        ∧ (here → x.typ = 1 → fits → sl.dirIn = false →
            getSlot u h x.dslot = { sl with credits := sl.credits + fld ((x.body[0]?).getD 0) 0 9 } ∧ (getHed u h).stale = e.stale)
        ∧ (here → x.typ < 2 → ¬fits ∨ sl.dirIn ≠ decide (x.typ = 0) → (getHed u h).slots = e.slots ∧ (getHed u h).stale = min 0xFFFF (e.stale + 1))
        ∧ (let b := 4 * h.val + x.dslot / 16 % 4
           let nk := fld ((x.body[0]?).getD 0) 28 4
           let bd := getBd s b
           let keeps := x.dslot / 64 = h ∧ 1 ≤ nk ∧ nk ≤ 8 ∧ (bd.st = .loading ∨ (bd.st ∉ [.undefined, .empty, .resetting]
              ∧ bd.imageId = ((x.body[1]?).getD 0).toNat + 2 ^ 32 * ((x.body[2]?).getD 0).toNat))
           (here → x.typ = 2 → keeps → (getHed u h).notices = e.notices ++ [(b, x.body)] ∧ (getHed u h).stale = e.stale)
           ∧ (here → x.typ = 2 → ¬keeps → (getHed u h).notices = e.notices ∧ (getHed u h).stale = min 0xFFFF (e.stale + 1)))
        ∧ (here → 2 < x.typ → (getHed u h).slots = e.slots ∧ (getHed u h).stale = min 0xFFFF (e.stale + 1))
        ∧ (¬here → (∀ j, routeOf e x.dwafer x.dhed = some j → 6 ≤ (getPort s h j).st ∧ (getPort s h j).st ≤ 7) → (getHed u h).noroute = min 0xFFFF (e.noroute + 1) ∧ Signalled s u (pfIx h) 6)
        ∧ (¬here → ∀ j, routeOf e x.dwafer x.dhed = some j → (getPort s h j).st < 6 → x.hop ≠ 254 →
            sget [] (getPort u h j).txq ln = sget [] (getPort s h j).txq ln ++ [{ x with hop := x.hop + 1 }])
        ∧ (¬here → ∀ j, routeOf e x.dwafer x.dhed = some j → (getPort s h j).st < 6 → x.hop = 254 →
            (getHed u h).ttl = min 0xFFFF (e.ttl + 1) ∧ Signalled s u (pfIx h) 6 ∧ (getPort u h k).txq = p.txq))))
  ∧ (∀ (s : State) (h k : Fin 4) (l : List Byte) (fec : Fin 3) (first : Bool),
    let p := counted fec first (getPort s h k)
    let aseq := fld (unitW l 0) 12 12
    let nak := bitAt (unitW l 0) 26
    p.st = 4 → linkKept s = false →
    (fec = 2 ∨ fld (unitW l 0) 28 4 ≠ 1 → ∃ u, exec (.linkUnitReceive h k l fec first) s = .next u ∧ u.resp = .done
      ∧ { u with resp := s.resp, heds := s.heds } = s ∧ PortBecomes s u h k p) ∧ (fec ≠ 2 → fld (unitW l 0) 28 4 = 1 →
    ∃ u, exec (.linkUnitReceive h k l fec first) s = .next u ∧ u.resp = .done
      ∧ { u with resp := s.resp, heds := s.heds, fns := s.fns, toHost := s.toHost } = s
      ∧ (let q := getPort u h k
         let covered := bitAt (unitW l 0) 27 = true ∧ (∃ x ∈ p.replay, x.lseq = aseq)
         let n := if p.nakSeq = some aseq ∧ (covered → ∃ y ∈ q.replay, y.lseq = aseq) then p.nakCount + 1 else 1
         q.txq = p.txq ∧ q.expect = p.expect ∧ q.nextSeq = p.nextSeq ∧ q.rx = p.rx
         ∧ (¬covered → q.replay = p.replay)
         ∧ (covered → ∃ a x, p.replay = a ++ x :: q.replay ∧ x.lseq = aseq ∧ ∀ y ∈ a, y.lseq ≠ aseq)
         ∧ (nak = true → q.again = q.replay.dropWhile (fun y => y.lseq != aseq))
         ∧ (nak = true → n < 16 → q.st = 4 ∧ q.nakSeq = some aseq ∧ q.nakCount = n)
         ∧ (nak = true → 16 ≤ n → q.st = 5 ∧ Signalled s u (pfIx h) 6)
         ∧ (nak = false → q.st = 4 ∧ (¬covered → q.again = p.again))
         ∧ ((∀ i < 14, bitAt (unitW l (1 + i / 2)) (16 * (i % 2) + 15) = false) → q.txCred = p.txCred ∧ q.lastTot = p.lastTot)
         ∧ (∀ i ln c, i < 14 → (∀ j < 14, j ≠ i → bitAt (unitW l (1 + j / 2)) (16 * (j % 2) + 15) = false) →
            bitAt (unitW l (1 + i / 2)) (16 * (i % 2) + 15) = true →
            ln = (if bitAt (unitW l (1 + i / 2)) (16 * (i % 2) + 14) then 64 else fld (unitW l (1 + i / 2)) (16 * (i % 2) + 8) 6) →
            c = fld (unitW l (1 + i / 2)) (16 * (i % 2)) 7 → sget 0 p.lastTot ln < 128 →
            (∀ j, sget 0 q.txCred j = if j = ln then sget 0 p.txCred j + (c + 128 - sget 0 p.lastTot j) % 128 else sget 0 p.txCred j)
            ∧ sget 0 q.lastTot ln = c))))
  ∧ (∀ (s : State) (f : Fn) (h k : Fin 4) (v : Word), CanAccess s f .other false → isPf f = true →
    let p := getPort s h k
    let ln := if fld v 0 7 ≤ 64 then fld v 0 7 else fld p.lsel 0 7
    let keeps := fun (i : Instr) (u : State) => exec i s = .next u ∧ u.resp = .done ∧ { u with resp := s.resp, heds := s.heds } = s
    (stesyOn s h k = true → ∃ u w, keeps (.stesyLsel f h k v) u ∧ PortBecomes s u h k { p with lsel := BitVec.ofNat 32 ln, llive := w }
        ∧ fld w 25 7 = sget 0 p.txCred ln % 128 ∧ fld w 18 7 = (sget [] p.rx ln).length % 128)
    ∧ (let c := getSlot s h (fld v 0 8)
       ∃ u, keeps (.stesyCsel f h v) u ∧ (∀ j, j ≠ h.val → getHed u j = getHed s j)
        ∧ { getHed u h with csel := (getHed s h).csel, cA := (getHed s h).cA, cB := (getHed s h).cB, cC := (getHed s h).cC } = getHed s h
        ∧ (getHed u h).csel = BitVec.ofNat 32 (fld v 0 8) ∧ bitAt (getHed u h).cA 31 = c.used ∧ bitAt (getHed u h).cA 30 = c.dirIn
        ∧ bitAt (getHed u h).cA 29 = (c.opened && !c.closed) ∧ fld (getHed u h).cA 0 16 = c.chan % 2 ^ 16
        ∧ fld (getHed u h).cB 17 15 = c.pWafer % 2 ^ 15 ∧ fld (getHed u h).cC 14 9 = c.ring.length % 2 ^ 9)
    ∧ (let w := ((getHed s h).fwd[fld v 0 10]?).getD (0, 0)
       ∃ u, keeps (.stesyFsel f h v) u ∧ (∀ j, j ≠ h.val → getHed u j = getHed s j)
        ∧ getHed u h = { getHed s h with fsel := BitVec.ofNat 32 (fld v 0 10), f0 := w.1, f1 := w.2 }))

/-- Channel slots send, return credits and inject. R593-R595, R309, R603: the offered OUT slot next in turn sends its oldest flits, up to 5 and one credit each, to its peer; an IN slot
returns the flits it has injected in one CREDIT unit; its injector writes the oldest landed flits, up to 8 and as many as the store has
room for. In STALEMATE none of them acts. Model's choices it rests on: log 8, 96. -/
def Obligations.ChannelSlots : Prop :=
  ∀ (s : State) (b : Fin 16) (n : Fin 256),
    let h := b.val / 4
    let v := getSlot s h n
    s.clk.waiting = false → v.board = b →
    let sends := fun (i : Instr) (typ : Nat) (v' : Slot) (P : List Word → Prop) => ∃ u body, exec i s = .next u ∧ u.resp = .done
      ∧ { u with resp := s.resp, heds := s.heds, fns := s.fns, toHost := s.toHost } = s ∧ P body
      ∧ (let here := v.pWafer = s.wafer ∧ v.pHed = h
         (∀ m, ¬(here ∧ m = v.pSlot) → getSlot u h m = if m = n.val then v' else getSlot s h m)
         ∧ (¬here → ∀ j, routeOf (getHed s h) v.pWafer v.pHed = some j → (getPort s h j).st < 6 →
            sget [] (getPort u h j).txq (if typ = 0 then v.pSlot % 64 else 64) = sget [] (getPort s h j).txq (if typ = 0 then v.pSlot % 64 else 64)
              ++ [mkUnit typ v.pWafer v.pHed v.pSlot v.pEpoch body])
         ∧ (¬here → routeOf (getHed s h) v.pWafer v.pHed = none → (getHed u h).noroute = min 0xFFFF ((getHed s h).noroute + 1)
            ∧ Signalled s u (pfIx h) 6))
    let live := (getBd s b).st ≠ .stalemate
    (((List.range 256).map (fun i => ((getHed s h).slotPtr + i) % 256)).find? (fun i => offered s (getSlot s h i)) = some n.val →
      let c := min 5 (min v.ring.length v.credits)
      0 < c ∧ live ∧ sends (.flitsSend b n) 0 { v with ring := v.ring.drop c, credits := v.credits - c } (fun w =>
        w.tail = (v.ring.take c).map (·.data) ∧ ∃ m, w.head? = some m ∧ fld m 16 3 = c
          ∧ ∀ i, ∀ f, (v.ring.take c)[i]? = some f → bitAt m i = f.null ∧ bitAt m (5 + i) = f.eom))
    ∧ (v.used = true → v.dirIn = true → v.closed = false → v.ret ≠ 0 → (getBd s b).assembled = true → live →
      sends (.creditUnitSend b n) 1 { v with ret := 0 } (fun w => w = [BitVec.ofNat 32 v.ret]))
    ∧ (let key := slotKey v.inCol v.inLane v.inSlot
       let q := sget [] (getMed s v.inMed).inj key
       let c := min 8 (min v.ring.length (16 - q.length))
       v.used = true → v.dirIn = true → v.closed = false → c ≠ 0 → live → (getBd s b).smDeclared = false →
       ∃ u, exec (.injectorWrite b n) s = .next u ∧ u.resp = .done ∧ { u with resp := s.resp, heds := s.heds, meds := s.meds, boards := s.boards } = s
        ∧ (∀ j, BoardButMoved (getBd u j) (getBd s j)) ∧ SlotBecomes s u h n { v with ring := v.ring.drop c, ret := v.ret + c }
        ∧ (∀ m, { getMed u m with inj := (getMed s m).inj } = getMed s m)
        ∧ ∀ m j, sget [] (getMed u m).inj j = if m = v.inMed ∧ j = key then q ++ (v.ring.take c).map (fun f => { flit := f }) else sget [] (getMed s m).inj j)
    ∧ (¬live → Waits (.flitsSend b n) s ∧ Waits (.creditUnitSend b n) s ∧ Waits (.injectorWrite b n) s)

/-- Notices act by their kind or are stale. R600-R604, R411, R427, R429-R431: the oldest notice of a board in the store of its HED, unless the board loads, is taken out: it is
counted as STALE where the board is UNDEFINED, EMPTY or RESETTING or holds another image, else it acts by its kind; each of the eight
commands takes its own kind alone. A piece that a REFUSE notice reaches while LOADED does not start; a DRAIN notice is held with a START
notice that is held, and a STALEMATE notice ends a drain in either of its steps. Model's choices it rests on: log 47, 58, 59, 60, 96. -/
def Obligations.NoticesAct : Prop :=
  ∀ (s : State) (b : Fin 16) (pre post : List (Nat × List Word)) (w : List Word),
    let h := b.val / 4
    let bd := getBd s b
    let kind := fld ((w[0]?).getD 0) 28 4
    let piece := fld ((w[0]?).getD 0) 0 16
    let flags := fld ((w[0]?).getD 0) 16 8
    let W := fun i => ((w[i]?).getD 0 : Word)
    let c := if kind = 1 then Instr.loadedNotice b else if kind = 2 then .recordNotice b else if kind = 3 then .startNotice b
      else if kind = 4 then .armNotice b else if kind = 5 then .drainNotice b else if kind = 6 then .quietNotice b
      else if kind = 7 then .stalemateNotice b else .refuseNotice b
    (getHed s h).notices = pre ++ (b.val, w) :: post → (∀ n ∈ pre, n.1 ≠ b.val) → 1 ≤ kind → kind ≤ 8 → s.clk.waiting = false →
    let fits := bd.imageId = (W 1).toNat + 2 ^ 32 * (W 2).toNat ∧ bd.st ≠ .undefined ∧ bd.st ≠ .empty ∧ bd.st ≠ .resetting
    (bd.st = .loading → Waits c s)
    ∧ (bd.st ≠ .loading → ¬fits → ∃ u, exec c s = .next u ∧ u.resp = .done ∧ { u with resp := s.resp, heds := s.heds } = s
        ∧ (∀ j, j ≠ h → getHed u j = getHed s j)
        ∧ getHed u h = { getHed s h with notices := pre ++ post, stale := min 0xFFFF ((getHed s h).stale + 1) })
    ∧ (bd.st ≠ .loading → fits →
      let acts := fun (P : State → Prop) => ∃ u, exec c s = .next u ∧ u.resp = .done ∧ (∀ j, j ≠ b.val → getBd u j = getBd s j) ∧ P u
      let only := fun (v : Board) => acts (fun u => getBd u b = v ∧ { u with resp := s.resp, boards := s.boards, heds := s.heds } = s
        ∧ (getHed u h).notices = pre ++ post ∧ { getHed u h with notices := (getHed s h).notices } = getHed s h ∧ ∀ j, j ≠ h → getHed u j = getHed s j)
      let fin := fun (v : Board) => if flags.testBit 2 = true then { v with
          pieceHome := piece, finalDrain := true, finalW := (W 4).toNat + 2 ^ 32 * fld (W 3) 16 16
          finalS := (W 5).toNat + 2 ^ 32 * fld (W 3) 0 16 } else v
      (kind = 1 → bd.st ≠ .loaded ∨ bd.assembled = true ∨ bd.pieceBad = true → only { bd with
          notes := bd.notes.filter (fun n => n.piece != piece) ++ [⟨piece, fld (W 3) 0 16, []⟩] })
      ∧ (kind = 2 → bd.st ≠ .loaded ∨ bd.assembled = true ∨ bd.pieceBad = true → only { bd with
          notes := bd.notes.map (fun n => if n.piece = piece then { n with records := n.records ++ [(W 3, W 4)] } else n) })
      ∧ (kind = 1 → bd.st = .loaded → bd.assembled = false → bd.startHeld = false → acts (fun u =>
          (getBd u b).notes = bd.notes.filter (fun n => n.piece != piece) ++ [⟨piece, fld (W 3) 0 16, []⟩] ∧ (getBd u b).st = .loaded))
      ∧ (kind = 2 → bd.st = .loaded → bd.assembled = false → bd.startHeld = false → acts (fun u => (getBd u b).st = .loaded
          ∧ (getBd u b).notes = bd.notes.map (fun n => if n.piece = piece then { n with records := n.records ++ [(W 3, W 4)] } else n)))
      ∧ (kind = 3 → bd.st = .loaded → bd.assembled = true → acts (fun u =>
          { getBd u b with pieceHome := bd.pieceHome } = { bd with startTs := (s.now + 8) % 2 ^ 64, startPending := true, streamsToo := false, fields := [] }
            ∧ (getBd u b).pieceHome = piece))
      ∧ (kind = 3 → bd.st = .loaded → bd.assembled = false → only { bd with pieceHome := piece, startHeld := bd.startHeld || !bd.pieceBad })
      ∧ (kind = 3 → bd.st ≠ .loaded → only { bd with pieceHome := piece })
      ∧ (kind = 4 → only { bd with armIn := flags.testBit 0 })
      ∧ (kind = 5 → bd.startPending = true → Waits c s)
      ∧ (kind = 5 → bd.startPending = false → bd.st = .running ∨ bd.st = .draining → acts (fun u =>
          (getBd u b).st = bd.st
          ∧ (bd.drain = none → (getBd u b).drain = some ⟨flags.testBit 0, flags.testBit 1, 1⟩)
          ∧ (∀ d, bd.drain = some d → (getBd u b).drain = some { d with hard := d.hard || flags.testBit 0, abort := d.abort || flags.testBit 1 })
          ∧ (flags.testBit 2 = true → (getBd u b).finalDrain = true ∧ (getBd u b).pieceHome = piece
              ∧ (getBd u b).finalW = (W 4).toNat + 2 ^ 32 * fld (W 3) 16 16 ∧ (getBd u b).finalS = (W 5).toNat + 2 ^ 32 * fld (W 3) 0 16)
          ∧ (flags.testBit 2 = false → (getBd u b).finalDrain = bd.finalDrain)))
      ∧ (kind = 5 → bd.startPending = false → bd.st = .loaded → bd.startHeld = true →
          let d := bd.heldDrain.getD (false, false)
          only (fin { bd with heldDrain := some (d.1 || flags.testBit 0, d.2 || flags.testBit 1) }))
      ∧ (kind = 5 → bd.startPending = false → bd.st ≠ .running → bd.st ≠ .draining → bd.st ≠ .loaded ∨ bd.startHeld = false → only (fin bd))
      ∧ (kind = 6 → only { bd with quietFrom := if bd.quietFrom.contains piece then bd.quietFrom else bd.quietFrom ++ [piece] })
      ∧ (kind = 7 → bd.st = .draining ∨ (bd.st = .running ∧ bd.drain ≠ none) → acts (fun u => (getBd u b).st = .stalemate ∧ (getBd u b).smDeclared = true ∧ (getBd u b).smCause = 2
          ∧ (getBd u b).lastDrain = 2))
      ∧ (kind = 7 → bd.st ≠ .draining → bd.st ≠ .running ∨ bd.drain = none → only bd)
      ∧ (kind = 8 → acts (fun u => { getBd u b with regs := bd.regs } = (if bd.st = .loaded then
            { bd with pieceBad := true, assembled := false, startPending := false, startHeld := false, heldDrain := none } else bd) ∧ fld (sget 0 (getBd u b).regs 0x400) 0 8 = 0x15
          ∧ bitAt (sget 0 (getBd u b).regs 0x400) 31 = true)))

/-- Endpoint resets, links, bus mastering, failed reads and apertures. R489, R490, R493, R555, R558, R564, R565, R573, R575-R577: an endpoint reset of any cause takes every function of the endpoint to its
reset state, resets its boards that are defined and clears their rings, and leaves the link down, training or, for a function-level
reset, up; a reset of a VF reaches its board alone. The link trains and comes up; a Bus Master Enable sends the messages that waited;
a PROGRAM that waited for the PF's DMA goes on; an Unsupported Request is logged; a failed DMA read ends what it was for. An endpoint whose
configuration extension is off answers none of these (R526, R527), and one held by the link keeper waits (R519). TILEWIN_XY binds the selected aperture. Model's choices it
rests on: log 63, 90, 91, 92, 93, 102. -/
def Obligations.Endpoints : Prop :=
  ∀ (s : State) (h : Fin 4),
    let e := getEnd s h
    let endIs := fun (u : State) (v : EndSt) => ∀ j, getEnd u j = if j = h.val then v else getEnd s j
    let boards := fun (u : State) (p : Nat → Prop) => (∀ b, ¬p b → (getBd u b).st = (getBd s b).st ∧ (getBd u b).x0 = (getBd s b).x0)
      ∧ (∀ b, p b → (getBd u b).st = if (getBd s b).st = .undefined then .undefined else .resetting)
      ∧ ∀ c, (getCh s h c).en = true → p (getCh s h c).board → (getCh s h c).board / 4 = h →
          (getCh u h c).ring = [] ∧ (getCh u h c).txtHead = 0 ∧ (getCh u h c).cplTail = 0 ∧ (getCh u h c).dbErr = false
    let resets := fun (i : Instr) (v : EndSt) => ∃ u, exec i s = .next u ∧ u.resp = .done ∧ endIs u v
      ∧ (∀ j < 5, getFn u (5 * h + j) = {}) ∧ (∀ j, j / 5 ≠ h.val → getFn u j = getFn s j) ∧ boards u (fun b => b / 4 = h.val)
      ∧ u.now = s.now ∧ u.clk = s.clk ∧ u.pwr = s.pwr ∧ u.flt = s.flt ∧ u.slate = s.slate
    (linkKept s = false →
      (e.up = true → epxOn s h = true → resets (.flrPf h) { e with vfEnable := false })
      ∧ (e.perst = false → resets (.perstAssert h) { perst := true })
      ∧ (e.up = true → resets (.hotReset h) { perst := false, training := true } ∧ resets (.linkDown h) { perst := false, training := true })
      ∧ (∀ k : Fin 4, e.up = true → epxOn s h = true → e.vfEnable = true → ∃ u, exec (.flrVf h k) s = .next u ∧ u.resp = .done ∧ u.ends = s.ends
        ∧ getFn u (5 * h + 1 + k) = {} ∧ (∀ j, j ≠ 5 * h.val + 1 + k.val → j ≠ 5 * h.val → getFn u j = getFn s j)
        ∧ boards u (fun b => b = 4 * h.val + k.val)))
    ∧ (e.perst = true → linkKept s = false → ∃ u, exec (.perstDeassert h) s = .next u ∧ u.resp = .done ∧ { u with resp := s.resp, ends := s.ends } = s
        ∧ endIs u { perst := false, training := s.boot.running || s.boot.done || s.boot.failed })
    ∧ (∀ g : Fin 6, e.training = true → g ≠ 0 → linkKept s = false → epxOn s h = true → ∃ u, exec (.linkTrained h g) s = .next u ∧ u.resp = .done
        ∧ { u with resp := s.resp, ends := s.ends } = s ∧ endIs u { e with training := false, up := true, gen := g })
    ∧ (e.up = true → linkKept s = false → epxOn s h = true →
      (∀ on, let f := getFn s (5 * h)
        let due := (List.range 32).filter (fun v => on && decide (sget 0 f.pba v = 1) && bitAt (sget 0 f.msix (16 * v + 12)) 0)
        ∃ u, exec (.busMasterEnable (.pf h) on) s = .next u ∧ u.resp = .done
          ∧ { u with resp := s.resp, fns := s.fns, toHost := s.toHost, vigil := s.vigil } = s ∧ { u.vigil with page := s.vigil.page } = s.vigil
          ∧ (∀ ofs n d, s.slate.job = some (.program ofs n d) → u.vigil.page =
              if on = true ∧ slateFree s = true ∧ 256 ≤ d.length ∧ fnMaster u (pfIx 0) = true then
                some (copyBase (inactiveB s) + ofs, d.take 256) else s.vigil.page)
          ∧ ((∀ ofs n d, s.slate.job ≠ some (.program ofs n d)) → u.vigil = s.vigil)
          ∧ u.toHost = s.toHost ++ due.map (fun v => .irq (5 * h) v)
          ∧ (∀ j, j ≠ 5 * h.val → getFn u j = getFn s j) ∧ { getFn u (5 * h) with pba := f.pba } = { f with bme := on }
          ∧ ∀ v, sget 0 (getFn u (5 * h)).pba v = if v ∈ due then 0 else sget 0 f.pba v)
      ∧ ∀ (k : Fin 4) on, ∃ u, exec (.busMasterEnable (.vf h k) on) s = .next u ∧ u.resp = .done ∧ endIs u { e with vfEnable := true }
          ∧ (getFn u (5 * h + 1 + k)).bme = on
          ∧ (on = false → u.toHost = s.toHost ∧ { u with resp := s.resp, ends := s.ends, fns := s.fns } = s)
          ∧ (on = true → ∀ v < 32, bitAt (sget 0 (getFn s (5 * h + 1 + k)).msix (16 * v + 12)) 0 = true →
              sget 0 (getFn u (5 * h + 1 + k)).pba v ≠ 1))
    ∧ (∀ f : Fn, f ≠ .steward → linkOk s f = true → ∃ u, exec (.unsupportedRequest f) s = .next u ∧ u.resp = .unsupported
        ∧ { u with resp := s.resp, fns := s.fns } = s ∧ (∀ j, j ≠ fnIx f → getFn u j = getFn s j)
        ∧ { getFn u (fnIx f) with aer := (getFn s (fnIx f)).aer } = getFn s (fnIx f)
        ∧ ∀ i, sget 0 (getFn u (fnIx f)).aer i = sget 0 (getFn s (fnIx f)).aer i + if i = 1 then 1 else 0)
    ∧ (∀ b : Fin 16, let bd := getBd s b
      let fails := fun (c : DmaConsumer) (P : State → Prop) => ∃ u, exec (.dmaReadFailed c) s = .next u ∧ u.resp = .done ∧ P u
      (bd.st = .loading → bd.loadPass ≠ 0 → linkKept s = false → fails (.load b) (fun u =>
        { u with resp := s.resp, boards := s.boards, fns := s.fns, toHost := s.toHost, freeCtr := s.freeCtr } = s ∧ Signalled s u (vfIx b) 0
        ∧ (∀ n, n ≠ b.val → getBd u n = getBd s n) ∧ (getBd u b).st = .empty ∧ (getBd u b).loadPass = 0
        ∧ bitAt (sget 0 (getBd u b).regs 0x400) 31 = true ∧ fld (sget 0 (getBd u b).regs 0x400) 0 8 = 2))
      ∧ (bd.checking = true → linkKept s = false → fails (.check b) (fun u => (getBd u b).checking = false ∧ (getBd u b).checkDone = true
        ∧ (getBd u b).checkOutcome = (if (bd.checkArgs[3]?).getD 0 = 1 then 3 else 2) ∧ Signalled s u (vfIx b) 0
        ∧ ∀ n, n ≠ b.val → getBd u n = getBd s n))
      ∧ (∀ o n d, s.slate.job = some (.program o n d) → slateFree s = true → d.length < 256 → linkKept s = false → fails .slate (fun u =>
          { u with resp := s.resp, slate := s.slate, fns := s.fns, toHost := s.toHost } = s ∧ Signalled s u (pfIx 0) 1
          ∧ u.slate = { s.slate with result := 6, bytes := s.slate.count, busy := false, job := none, count := 0 }))
      ∧ (∀ c : Fin 8, fetching s h c = true → fails (.ring h c) (fun u => (getCh u h c).fetchErr = true ∧ (getCh u h c).txtHead = (getCh s h c).txtHead
          ∧ (∀ h' c', h' ≠ h.val ∨ c' ≠ c.val → getCh u h' c' = getCh s h' c')
          ∧ { u with resp := s.resp, heds := s.heds, raised := s.raised, boards := s.boards, freeCtr := s.freeCtr } = s
          ∧ (∀ n, { getBd u n with maskQ := (getBd s n).maskQ } = getBd s n)
          ∧ ∃ r, u.raised = s.raised ++ [r] ∧ r.code = 0x2B ∧ r.board = some (getCh s h c).board ∧ r.detail = BitVec.ofNat 32 c)))
    ∧ (∀ (f : Fn) (v : Word), CanAccess s f .other false →
      let a := fld (getFn s (fnIx f)).tileSel 0 4
      ∃ u, exec (.tilewinXyWrite f v) s = .next u ∧ u.resp = .done ∧ { u with resp := s.resp, fns := s.fns } = s
        ∧ (∀ j, j ≠ fnIx f → getFn u j = getFn s j) ∧ { getFn u (fnIx f) with tiles := (getFn s (fnIx f)).tiles } = getFn s (fnIx f)
        ∧ (∀ j, j ≠ a → sget 0 (getFn u (fnIx f)).tiles j = sget 0 (getFn s (fnIx f)).tiles j)
        ∧ (let w := sget 0 (getFn u (fnIx f)).tiles a
           bitAt w 31 = true ∧ fld w 0 21 = fld v 0 21 ∧ bitAt w 30 = (isPf f && bitAt v 30)))

/-- Images are checked, then loaded. R410-R412, R417-R420, R438, R449, R558, R573: the check pass ends once every byte its load list names is read; a list that breaks R417 refuses
the image. At its end a refused image leaves its board EMPTY with the refusal registers of its
breach, and an accepted one begins the write pass; at the end of that a section whose checksum differs makes the board RESETTING with
LOAD_FAILED, and else the board and every named brick that is not QUARANTINED are LOADED, the bricks' g, p and v as they were; a brick of
the board that no record names keeps no enabled route slot (R193, R399). Model's
choices it rests on: log 49, 50, 51, 52, 53, 54, 55, 56, 57, 110. -/
def Obligations.ImageLoads : Prop :=
  ∀ (s : State) (b : Fin 16),
    let bd := getBd s b
    bd.st = .loading → s.clk.waiting = false →
    let others := fun (u : State) => ∀ n, n ≠ b.val → getBd u n = getBd s n
    (∀ list img pmap, bd.loadPass = 1 →
      let c := Instr.loadCheckPassEnd b list img pmap
      let n := ((bd.loadArgs[2]?).getD 0).toNat
      (∀ l, list = some l → n ≤ l.length / 16 → (∃ i < n, ofBytesLE ((l.drop (16 * i)).take 8) % 8 ≠ 0
          ∨ ofBytesLE ((l.drop (16 * i + 8)).take 8) % 8 ≠ 0 ∨ ofBytesLE ((l.drop (16 * i + 8)).take 8) < 8) →
        imageRefusal s b list img pmap = some ⟨2, 0, 0xFF, none⟩)
      ∧ (list = none ∨ n = 0 ∨ 65536 < n → imageRefusal s b list img pmap = some ⟨2, 0, 0xFF, none⟩)
      ∧ (fnMaster s bd.loadFn = false ∨ listCovers s b list img = false → Waits c s)
      ∧ (fnMaster s bd.loadFn = true → listCovers s b list img = true →
      (∀ r, imageRefusal s b list img pmap = some r → ∃ u, exec c s = .next u ∧ u.resp = .done
        ∧ { u with resp := s.resp, boards := s.boards, fns := s.fns, toHost := s.toHost } = s ∧ others u ∧ Signalled s u (vfIx b) 0
        ∧ (let v := getBd u b
           { v with regs := bd.regs } = { bd with st := .empty, loadPass := 0, progBytes := img.length }
           ∧ bitAt (sget 0 v.regs 0x400) 31 = true ∧ fld (sget 0 v.regs 0x400) 8 8 = r.sect % 256 ∧ fld (sget 0 v.regs 0x400) 0 8 = r.code % 256
           ∧ (r.brick = none → sget 0 v.regs 0x404 = 0)
           ∧ (∀ x y, r.brick = some (x, y) → bitAt (sget 0 v.regs 0x404) 31 = true ∧ fld (sget 0 v.regs 0x404) 16 11 = x % 2 ^ 11
              ∧ fld (sget 0 v.regs 0x404) 0 10 = y % 2 ^ 10)
           ∧ sget 0 v.regs 0x408 = BitVec.ofNat 32 r.ofs ∧ sget 0 v.regs 0x40C = BitVec.ofNat 32 (r.ofs / 2 ^ 32 % 2 ^ 16)
           ∧ ∀ o, o ≠ 0x400 → o ≠ 0x404 → o ≠ 0x408 → o ≠ 0x40C → sget 0 v.regs o = sget 0 bd.regs o))
      ∧ (imageRefusal s b list img pmap = none → ∃ u, exec c s = .next u ∧ u.resp = .done
        ∧ { u with resp := s.resp, boards := s.boards } = s ∧ others u ∧ (getBd u b).st = .loading ∧ (getBd u b).loadPass = 2
        ∧ (getBd u b).progPass = true ∧ (getBd u b).progBytes = 0
        ∧ (getBd u b).loadHead = img.take (0x80 + 32 * (parseImg img).sects.length) ∧ (getBd u b).regs = bd.regs)))
    ∧ (∀ img, bd.loadPass = 2 → fnMaster s bd.loadFn = false → Waits (.loadWritePassEnd b img) s)
    ∧ (∀ img, bd.loadPass = 2 → fnMaster s bd.loadFn = true →
      let im := bd.loadHead ++ img.drop bd.loadHead.length
      let g := parseImg im
      let bad := ∃ v ∈ imSects im, sectCrc im v ≠ v.scrc
      (bad → bd.pieces ≤ 1 → ∃ u, exec (.loadWritePassEnd b img) s = .next u ∧ u.resp = .done ∧ (getBd u b).st = .resetting
        ∧ (getBd u b).loadFailed = true ∧ sget 0 (getBd u b).regs 0x400 = 0 ∧ others u)
      ∧ (¬bad → ∃ u, exec (.loadWritePassEnd b img) s = .next u ∧ u.resp = .done ∧ others u
        ∧ (getBd u b).st = .loaded ∧ (getBd u b).loadPass = 0 ∧ (getBd u b).home = g.home ∧ (getBd u b).imageId = g.id ∧ (getBd u b).pieces = g.pieces
        ∧ (getBd u b).words = 0 ∧ (getBd u b).samples = 0 ∧ (getBd u b).fltValid = false ∧ (getBd u b).fltCount = 0
        ∧ (g.pieces ≤ 1 → (getBd u b).assembled = true ∧ sget 0 (getBd u b).regs 0x400 = 0)
        ∧ (∀ r ∈ g.bricks, ∀ k, keyOf s (bd.x0 + r.bx) (bd.y0 + r.by_) = some k → (getB s k).st ≠ .quarantined →
            (getB u k).st = .loaded ∧ (getB u k).g = (getB s k).g ∧ (getB u k).p = (getB s k).p ∧ (getB u k).v = (getB s k).v)
        ∧ (∀ k, (∀ r ∈ g.bricks, keyOf s (bd.x0 + r.bx) (bd.y0 + r.by_) ≠ some k) → (s.bricks.map Prod.fst).Nodup →
            ((∀ x, logX s (k % 1152) (k / 1152) = some x → inRect bd x (k / 1152) = false) → getB u k = getB s k)
            ∧ (∀ x, logX s (k % 1152) (k / 1152) = some x → inRect bd x (k / 1152) = true → ((getB s k).cfg.map Prod.fst).Nodup →
                { getB u k with cfg := (getB s k).cfg } = getB s k
                ∧ ∀ o, cfgW (getB u k) o = if 0x300 ≤ o ∧ o < 0x600 then cfgW (getB s k) o &&& 0x7FFFFFFF else cfgW (getB s k) o))
        ∧ u.now = s.now ∧ u.segs = s.segs ∧ u.slate = s.slate ∧ u.clk = s.clk))

/-- Memory registers and captures of a brick. R54, R81, R82, R141, R650: BRK_PMEM_LO and HI move one word of program memory, the write in state STOPPED alone, and HI moves the address
on; BRK_SRAM_DATA moves a word of data SRAM in a tcyc in which its bank is free, and the address on, wrapping at 48 KiB; a word that is
uncorrectable reads as an open value; a write in another state is ignored and sets WR_IGNORED. BRK_RPT_POS captures its level. R50-R52,
R206, R207, R220, R252-R255, R348, R454: the selects of a brick's space capture a route slot's entry, a stream context, an expert queue
or a contract counter, whatever the brick's state; a reserved index reads zero. IDENT_GRID_SEL captures a segment's map, zeros until boot
has made the maps. Model's choices it rests on: log 3, 99, 100, 101, 108, 128. -/
def Obligations.BrickMemoryPorts : Prop :=
  (∀ (s : State) (f : Fn) (ap : Fin 16) (k : Nat),
    let b := getB s k
    let gives := fun (i : Instr) (r : Resp) (b' : Brick) => ∃ u, exec i s = .next u ∧ u.resp = r ∧ BrickIs s u k b'
    let ignored := fun (i : Instr) => gives i .ignored { b with wrIgnored := true }
    (CanReach s f ap true k →
      (sget 0 b.pmemEcc b.pmemAddr ≠ 2 → let w := sget 0 b.pmem b.pmemAddr
        gives (.brkPmemLoRead f ap) (.value (w.extractLsb' 0 32)) { b with pmemHiShadow := w.extractLsb' 32 32 })
      ∧ (sget 0 b.pmemEcc b.pmemAddr = 2 → ∃ u w v, exec (.brkPmemLoRead f ap) s = .next u ∧ u.resp = .value w
          ∧ { u with resp := s.resp, bricks := s.bricks, freeCtr := s.freeCtr } = s ∧ getB u k = { b with pmemHiShadow := v })
      ∧ gives (.brkPmemHiRead f ap) (.value b.pmemHiShadow) { b with pmemAddr := (b.pmemAddr + 1) % 2048 }
      ∧ (∀ n : Fin 4, ∃ u w, exec (.brkRptPosRead f ap n) s = .next u ∧ u.resp = .value w ∧ { u with resp := s.resp, bricks := s.bricks } = s
          ∧ (∀ j, j ≠ k → getB u j = getB s j) ∧ { getB u k with obs := b.obs } = b
          ∧ (∀ o, o ≠ 0x844 + 0x10 * n.val → o ≠ 0x848 + 0x10 * n.val → obsW (getB u k) o = obsW b o)
          ∧ (∀ l, b.rpt.reverse[n.val]? = some l → fld w 16 11 = l.first % 2 ^ 11 ∧ fld w 0 11 = l.last % 2 ^ 11
              ∧ obsW (getB u k) (0x844 + 0x10 * n) = BitVec.ofNat 32 l.left ∧ obsW (getB u k) (0x848 + 0x10 * n) = BitVec.ofNat 32 l.idx)
          ∧ (b.rpt.length ≤ n → w = 0 ∧ obsW (getB u k) (0x844 + 0x10 * n) = 0 ∧ obsW (getB u k) (0x848 + 0x10 * n) = 0))
      ∧ (∀ t v, brickAt b t = some v → bankForReg s k v (bankOf v.sramAddr) t = true →
          let next := if v.sramAddr = 0xBFFC then 0 else v.sramAddr + 4
          ((sramHealth v v.sramAddr 4).2 = none → ∃ w b', gives (.brkSramDataRead f ap t) (.value w) b' ∧ w.toNat = readLE v.sram v.sramAddr 4
            ∧ { b' with used := v.used, sramAddr := v.sramAddr, cnt := v.cnt } = v ∧ b'.sramAddr = next)
          ∧ ((sramHealth v v.sramAddr 4).2 ≠ none → ∃ u w, exec (.brkSramDataRead f ap t) s = .next u ∧ u.resp = .value w
            ∧ { u with resp := s.resp, bricks := s.bricks, freeCtr := s.freeCtr } = s ∧ (getB u k).sramAddr = next ∧ (getB u k).sram = v.sram)))
    ∧ (CanReach s f ap false k → ∀ w : Word,
      (b.st ≠ .stopped → ignored (.brkPmemLoWrite f ap w) ∧ ignored (.brkPmemHiWrite f ap w) ∧ ∀ t, ignored (.brkSramDataWrite f ap t w))
      ∧ (b.st = .stopped → gives (.brkPmemLoWrite f ap w) .done { b with pmemLoHold := w })
      ∧ (b.st = .stopped → ∃ b', gives (.brkPmemHiWrite f ap w) .done b' ∧ b'.pmemAddr = (b.pmemAddr + 1) % 2048
          ∧ { b' with pmem := b.pmem, pmemEcc := b.pmemEcc, pmemAddr := b.pmemAddr } = b
          ∧ (∀ a, sget 0 b'.pmem a = if a = b.pmemAddr then w ++ b.pmemLoHold else sget 0 b.pmem a)
          ∧ ∀ a, sget 0 b'.pmemEcc a = if a = b.pmemAddr then 0 else sget 0 b.pmemEcc a)
      ∧ (∀ t v, b.st = .stopped → brickAt b t = some v → bankForReg s k v (bankOf v.sramAddr) t = true → (sramHealth v v.sramAddr 4).2 = none →
          ∃ b', gives (.brkSramDataWrite f ap t w) .done b'
            ∧ b'.sramAddr = (if v.sramAddr = 0xBFFC then 0 else v.sramAddr + 4)
            ∧ (∀ a, sget 0 b'.sram a = if v.sramAddr ≤ a ∧ a < v.sramAddr + 4 then w.extractLsb' (8 * (a - v.sramAddr)) 8 else sget 0 v.sram a)
            ∧ b'.pmem = v.pmem ∧ b'.g = v.g ∧ b'.p = v.p ∧ b'.st = v.st)))
  ∧ ((∀ (s : State) (f : Fn) (ap : Fin 16) (k : Nat) (v : Word), CanReach s f ap false k →
    let b := getB s k
    let keeps := fun (i : Instr) (os : List Nat) (P : Brick → Prop) => ∃ u b', exec i s = .next u ∧ u.resp = .done ∧ BrickIs s u k b'
      ∧ { b' with obs := b.obs } = b ∧ (∀ o, o ∉ os → obsW b' o = obsW b o) ∧ P b'
    (fld v 5 3 < 5 → let ix := 32 * fld v 5 3 + fld v 0 5
      keeps (.brkRtSel f ap v) [0x8C0, 0x8C4, 0x8CC] (fun b' => fld (obsW b' 0x8C0) 5 3 = fld v 5 3 ∧ fld (obsW b' 0x8C0) 0 5 = fld v 0 5
        ∧ fld (obsW b' 0x8C4) 27 5 = sget 0 b.cred (2 * ix) % 32 ∧ fld (obsW b' 0x8C4) 20 2 = ((fifoOf b ix).filter (fun q => decide (q.due ≤ b.useT))).length % 4
        ∧ fld (obsW b' 0x8C4) 0 16 = sget 0 b.fseq ix % 2 ^ 16
        ∧ (bitAt (rtEntry b (fld v 5 3) (fld v 0 5)) 30 = false → obsW b' 0x8CC = 0)
        ∧ (bitAt (rtEntry b (fld v 5 3) (fld v 0 5)) 30 = true →
            obsW b' 0x8CC = if sget 0 b.twx ix = 0 then 0x80000000 else sget 0 b.twx ix)))
    ∧ (let c := getCtx b (fld v 0 2)
       keeps (.brkStSel f ap v) [0x890, 0x894, 0x898, 0x89C, 0x8A0, 0x8A4] (fun b' => fld (obsW b' 0x890) 0 2 = fld v 0 2
        ∧ fld (obsW b' 0x894) 23 5 = c.pc % 32 ∧ fld (obsW b' 0x894) 20 3 = c.loops.length % 8 ∧ fld (obsW b' 0x894) 0 16 = c.addr % 2 ^ 16
        ∧ obsW b' 0x8A0 = evLo (sget 0 b.cnt (0x110 + fld v 0 2)) ∧ obsW b' 0x8A4 = evHi (sget 0 b.cnt (0x110 + fld v 0 2))))
    ∧ keeps (.brkEqSel f ap v) [0x8F0, 0x8F4] (fun b' => fld (obsW b' 0x8F0) 0 2 = fld v 0 2 ∧ obsW b' 0x8F4 = eqLive b (fld v 0 2))
    ∧ keeps (.brkCcSel f ap v) [0x100, 0x104, 0x108] (fun b' => fld (obsW b' 0x100) 0 8 = fld v 0 8
        ∧ (ccIndex (fld v 0 8) = true → obsW b' 0x104 = evLo (sget 0 b.cnt (fld v 0 8)) ∧ obsW b' 0x108 = evHi (sget 0 b.cnt (fld v 0 8)))
        ∧ (ccIndex (fld v 0 8) = false → obsW b' 0x104 = 0 ∧ obsW b' 0x108 = 0)))
  ∧ (∀ (s : State) (f : Fn) (v : Word), CanAccess s f .ident false → isPf f = true → fld v 11 4 < 12 → fld v 8 3 < 7 → fld v 0 7 < 80 →
    let g := getSeg s (fld v 11 4) (80 * fld v 8 3 + fld v 0 7)
    let bad := g.factory ||| g.journal ||| g.quar
    ∃ u, exec (.identGridSel f v) s = .next u ∧ u.resp = .done ∧ { u with resp := s.resp, gridSel := s.gridSel, grid := s.grid } = s
      ∧ fld u.gridSel 11 4 = fld v 11 4 ∧ fld u.gridSel 8 3 = fld v 8 3 ∧ fld u.gridSel 0 7 = fld v 0 7
      ∧ (∀ p < 96, bitAt (sget 0 u.grid (0x404 + 4 * (p / 32))) (p % 32) = (s.mapsReady && posUsed g.mapDef p))
      ∧ fld (sget 0 u.grid 0x410) 8 7 = (if s.mapsReady then (List.range 96).countP (fun i => bad.getLsbD i) else 0)
      ∧ bitAt (sget 0 u.grid 0x410) 31 = g.pending))

/-- Reads and writes of registers. R5, R13-R16, R73, R473, R564, R565, R621, R647: a misaligned write is ignored and a misaligned read is zero; an access of 8 bytes
is two of 4, the lower address first; one outside the BAR is unsupported, one where no register lies is a violation of its context; a
poisoned write is discarded and logged; configuration registers of a brick take their fields
in state STOPPED and are ignored in another, with WR_IGNORED, and read back; sticky bits are cleared by ones; an item of the Slate cannot be changed.
R53, R74, R76: BRK_ID, BRK_STATE, the sticky device bits, IDENT_GRID_SUM read as their rules say, and a write-only register as zero.
R312, R625: a read of a counter's LO returns it and holds the HI of that moment for this accessor, whose next read of HI returns what
was held, once; a HI that no LO preceded reads live. TIME_NOW, the wafer counters, every counter of a board, channel, port, MED and
brick read so. Model's choices it rests on: log 63, 94, 102, 103, 104, 105, 106. -/
def Obligations.RegisterAccesses : Prop :=
  (∀ (s : State) (f : Fn),
    let w32 := fun (a : Nat) (v : Word) => Instr.registerWrite f a false (v.setWidth 64) false
    let r32 := fun (a : Nat) => Instr.counterLoRead f a false
    (∀ a wide v, a % 4 ≠ 0 → linkOk s f = true → exec (.registerWrite f a wide v false) s = .next { s with resp := .ignored })
    ∧ (∀ a wide v, a % 4 ≠ 0 → linkOk s f = false → Waits (.registerWrite f a wide v false) s ∧ Waits (.counterLoRead f a wide) s)
    ∧ (∀ a, a % 4 ≠ 0 → linkOk s f = true → exec (.counterLoRead f a false) s = .next { s with resp := .value 0 }
        ∧ exec (.counterLoRead f a true) s = .next { s with resp := .value64 0 })
    ∧ (∀ a wide v, (f = .steward ∨ linkOk s f = false → Waits (.registerWrite f a wide v true) s)
        ∧ (f ≠ .steward → linkOk s f = true → ∃ u, exec (.registerWrite f a wide v true) s = .next u ∧ u.resp = .ignored
          ∧ { u with resp := s.resp, fns := s.fns } = s ∧ sget 0 (getFn u (fnIx f)).aer 2 = sget 0 (getFn s (fnIx f)).aer 2 + 1))
    ∧ (∀ a (lo hi : Word) (s1 s2 : State), a % 4 = 0 → exec (r32 a) s = .next s1 → s1.resp = .value lo → exec (r32 (a + 4)) s1 = .next s2 →
        s2.resp = .value hi → exec (.counterLoRead f a true) s = .next { s2 with resp := .value64 (hi ++ lo) })
    ∧ (∀ a (v : BitVec 64) (s1 s2 : State), a % 4 = 0 → exec (w32 a (v.extractLsb' 0 32)) s = .next s1 → s1.resp ≠ .held →
        exec (w32 (a + 4) (v.extractLsb' 32 32)) s1 = .next s2 → s2.resp ≠ .held →
        exec (.registerWrite f a true v false) s = .next { s2 with resp := if s1.resp = .done then s2.resp else s1.resp })
    ∧ (∀ a v, a % 4 = 0 → f ≠ .steward → linkOk s f = true → (if isPf f then 0x10000000 else 0x100000) ≤ a →
        ∀ i ∈ [w32 a v, r32 a], ∃ u, exec i s = .next u ∧ u.resp = .unsupported ∧ { u with resp := s.resp, fns := s.fns } = s
          ∧ sget 0 (getFn u (fnIx f)).aer 1 = sget 0 (getFn s (fnIx f)).aer 1 + 1)
    ∧ (∀ a v, a % 4 = 0 → isPf f = true → 0x820000 ≤ a → a < 0x1000000 → linkOk s f = true →
        ∀ c ∈ [w32 a v, r32 a], ∃ u, exec c s = .next u ∧ u.resp = .violation ∧ { u with resp := s.resp, flt := s.flt } = s
          ∧ { u.flt with viol := s.flt.viol } = s.flt
          ∧ ∀ i, sget 0 u.flt.viol i = if i = 16 then evAdd (sget 0 s.flt.viol i) 1 else sget 0 s.flt.viol i)
    ∧ (∀ (ap : Fin 16) (k o : Nat) (v : Word) fs, CanReach s f ap false k → cfgFields o v = some fs → 0x200 ≤ o → o < 0x800 →
        let a := (if isPf f then 0x810000 else 0x90000) + 0x1000 * ap.val + o
        let b := getB s k
        let new := fun (b' : Brick) => (∀ i, cfgW b' i = if i = o then wrFields (cfgW b o) v fs else cfgW b i) ∧ { b' with cfg := b.cfg } = b
        (b.st = .stopped → ∃ u b', exec (w32 a v) s = .next u ∧ u.resp = .done ∧ BrickIs s u k b' ∧ new b')
        ∧ (b.st ≠ .stopped → ∃ u, exec (w32 a v) s = .next u ∧ u.resp = .ignored ∧ BrickIs s u k { b with wrIgnored := true }))
    ∧ (∀ (ap : Fin 16) (k : Nat), CanReach s f ap true k →
        let a := (if isPf f then 0x810000 else 0x90000) + 0x1000 * ap.val
        let b := getB s k
        (∀ o, 0x200 ≤ o → o < 0x800 → (cfgFields o 0).isSome = true → exec (r32 (a + o)) s = .next { s with resp := .value (cfgW b o) })
        ∧ (∃ w, exec (r32 a) s = .next { s with resp := .value w } ∧ fld w 21 11 = k % 1152 ∧ fld w 0 10 = k / 1152 % 2 ^ 10
          ∧ ∀ x, logX s (k % 1152) (k / 1152) = some x → fld w 10 11 = x % 2 ^ 11)
        ∧ (∃ w, exec (r32 (a + 8)) s = .next { s with resp := .value w } ∧ bitAt w 31 = b.wrIgnored ∧ fld w 8 11 = b.pc % 2048
          ∧ fld w 4 3 = b.rpt.length % 8 ∧ fld w 0 3 = b.st.code % 8))
    ∧ (isPf f = true → CanAccess s f .other true →
        exec (r32 0x400000) s = .next { s with resp := .value s.flt.dev } ∧ exec (r32 0x200010) s = .next { s with resp := .value 0 }
        ∧ (blkServed s f .ident true = true → ∃ w, exec (r32 0x414) s = .next { s with resp := .value w }
          ∧ fld w 16 13 = s.segs.countP (fun p => p.2.pending) % 2 ^ 13
          ∧ fld w 0 13 = (if s.mapsReady then s.segs.countP (fun p => exhausted (p.2.factory ||| p.2.journal ||| p.2.quar)) else 0) % 2 ^ 13))
    ∧ (isPf f = true → CanAccess s f .other false →
        (∀ v, exec (w32 0x400000 v) s = .next { s with flt := { s.flt with dev := s.flt.dev &&& ~~~(v &&& 0xF8000000) }, resp := .done })
        ∧ (∀ (h : Fin 4) (v : Word), s.wafer < 2 ^ 15 →
          let c := w32 (0x1000000 * (h.val + 1) + 0x130800) v
          (fld v 0 15 = s.wafer → exec c s = .next { s with resp := .ignored })
          ∧ (fld v 0 15 ≠ s.wafer → ∃ u, exec c s = .next u ∧ u.resp = .violation ∧ { u with resp := s.resp, flt := s.flt } = s))
        ∧ (∀ (b : Fin 16) (v : Word), ∃ u, exec (w32 (0x500018 + 0x10000 * b.val) v) s = .next u ∧ u.resp = .done
          ∧ { u with resp := s.resp, boards := s.boards } = s ∧ (∀ n, n ≠ b.val → getBd u n = getBd s n)
          ∧ getBd u b = { getBd s b with limitUs := if fld v 0 24 = 0 then (getBd s b).limitUs else fld v 0 24 })))
  ∧ (∀ (s : State) (f : Fn) (a : Nat) (c : CtrRef), ctrAt s f a = some c → linkOk s f = true → c.ok = true →
    let i := fnIx f
    let e := getFn s i
    let shadow := fun (u : State) (v : Nat) => { u with resp := s.resp, fns := s.fns, freeCtr := s.freeCtr } = s
      ∧ (c.free = 0 → u.freeCtr = s.freeCtr) ∧ (∀ j, j ≠ i → getFn u j = getFn s j)
      ∧ { getFn u i with shadows := e.shadows } = e ∧ ∀ k, sget 0 (getFn u i).shadows k = if k = c.key then v else sget 0 e.shadows k
    (blkServed s f c.blk true = true → c.served = true →
      (∃ u, exec (.counterLoRead f a false) s = .next u ∧ u.resp = .value c.lo ∧ shadow u (c.hi.toNat + 1))
      ∧ (ctrAt s f (a + 4) = none → ∃ u, exec (.counterLoRead f (a + 4) false) s = .next u ∧ shadow u 0
          ∧ u.resp = .value (if sget 0 e.shadows c.key = 0 then c.hi else BitVec.ofNat 32 (sget 0 e.shadows c.key - 1))))
    ∧ (c.served = false → f ≠ .steward → ∃ u, exec (.counterLoRead f a false) s = .next u ∧ u.resp = .busError ∧ { u with resp := s.resp, fns := s.fns } = s)
    ∧ (a = 0x300000 → isPf f = true → c.lo = BitVec.ofNat 32 s.now ∧ c.hi = BitVec.ofNat 32 (s.now / 2 ^ 32)))

/-- The boundary-scan controller. R643, R644: on a rising edge the controller takes its next state by TMS, five ones leading to Test-Logic-Reset, and shifts a bit from
TDI in the shift states; TDO changes on a falling edge, and rests in high impedance outside the shift states and before boot step 6 has
enabled the interfaces (R474, R496); TRST_N low resets it at once. BYPASS is one bit and the die's identity 32.
Model's choices it rests on: log 3, 89, 98. -/
def Obligations.BoundaryScan : Prop :=
  ∀ (s : State) (tms tdi : Bool),
    let t := s.tap
    let edge := fun (rise : Bool) (P : State → Prop) => ∃ u, exec (.tckEdge rise tms tdi true) s = .next u ∧ u.resp = .done
      ∧ { u with resp := s.resp, tap := s.tap, freeCtr := s.freeCtr } = s ∧ P u
    (∀ rise, exec (.tckEdge rise tms tdi false) s = .next { s with tap := { t with st := .reset, ir := [], tdo := none }, resp := .done })
    ∧ edge true (fun u => u.tap.st = tapNext t.st tms ∧ u.tap.ir = t.ir ∧ u.tap.latch = t.latch ∧ u.tap.tdo = t.tdo
      ∧ (t.st = .shDR → u.tap.dr = (tdi :: t.dr).take t.dr.length ∧ u.tap.irShift = t.irShift)
      ∧ (t.st = .shIR → u.tap.irShift = (tdi :: t.irShift).take t.irShift.length ∧ u.tap.dr = t.dr)
      ∧ (t.st = .capIR → u.tap.irShift.length = 32)
      ∧ (t.st = .capDR → (∀ h < 4, sget 0xFF t.ir h = 0xFF) → u.tap.dr = [false, false, false, false])
      ∧ (t.st = .capDR → (∀ h < 4, sget 0xFF t.ir h = 2) → u.tap.dr.length = 128)
      ∧ (t.st ∉ [.capDR, .shDR, .capIR, .shIR] → u.tap.dr = t.dr ∧ u.tap.irShift = t.irShift))
    ∧ edge false (fun u => u.tap.st = t.st ∧ u.tap.dr = t.dr ∧ u.tap.irShift = t.irShift
      ∧ (let live := s.boot.done = true ∨ (s.boot.running = true ∧ 7 ≤ s.boot.step)
        (t.st = .shDR → u.tap.tdo = if live then t.dr.getLast? else none) ∧ (t.st = .shIR → u.tap.tdo = if live then t.irShift.getLast? else none))
      ∧ (t.st ≠ .shDR → t.st ≠ .shIR → u.tap.tdo = none)
      ∧ (t.st = .reset → u.tap.ir = []) ∧ (t.st ≠ .reset → t.st ≠ .upIR → u.tap.ir = t.ir) ∧ (t.st ≠ .upDR → u.tap.latch = t.latch))
    ∧ (∀ st : TapSt, tapNext (tapNext (tapNext (tapNext (tapNext st true) true) true) true) true = .reset)

/-- Every step keeps boot legal and counts within their widths. R312, R487, R551, R608: in every state in which boot is legal and the timestamp, the wafer ID and the wafer cap fit their widths, every
step leaves them so: boot never both runs and is DONE or FAILED, its step is 1 to 9, DONE means that the maps are made. -/
def Obligations.InvariantsKept : Prop :=
  ∀ (s t : State), BootLegal s → WidthsOk s → step s = .next t → BootLegal t ∧ WidthsOk t

/-- Nothing but boot and the wafer restarts changes the items of the Slate. R472, R473: no command but boot's beginning, the end of a boot step, a wafer restart, a restart (IDENT_RESTART, by its row or by a register write that
takes in 0x608) and a loss of power changes the wafer ID, the wafer cap, the energy coefficients or the clock enables. -/
def Obligations.SlateItemsKept : Prop :=
  ∀ (c : Instr) (s t : State), exec c s = .next t →
    c ≠ .boot → (∀ ok, c ≠ .bootStepEnd ok) → c ≠ .coldStart → c ≠ .moduleReset → c ≠ .powerLoss → c ≠ .vstbyLoss → (∀ f v, c ≠ .restart f v) →
    (∀ f w v p, c ≠ .registerWrite f 0x608 w v p) → (∀ f v p, c ≠ .registerWrite f 0x604 true v p) →
    slateItems t = slateItems s
end

