-- ==== Sys2Proof/Laws/SMap.lean ====
section
/-! SUPPORT. Sparse data by key: a read after a write, and the canonical form under every operation. -/
namespace Sys2Proof.Machine

variable {α : Type}

theorem sfind_sdel (m : SMap α) (k j : Nat) : sfind (sdel m k) j = if j = k then none else sfind m j := by
  induction m with
  | nil => simp [sdel, sfind]
  | cons p r ih =>
    obtain ⟨i, v⟩ := p
    by_cases h : i = k
    · subst h; simp only [sdel, if_true, ih, sfind]; split <;> simp_all [eq_comm]
    · simp only [sdel, if_neg h, sfind, ih]; by_cases hj : i = j
      · subst hj; simp [h]
      · simp [hj]

theorem sfind_sput (m : SMap α) (k j : Nat) (v : α) : sfind (sput m k v) j = if j = k then some v else sfind m j := by
  induction m with
  | nil => simp [sput, sfind, eq_comm]
  | cons p r ih =>
    obtain ⟨i, u⟩ := p
    by_cases h : i = k
    · subst h; simp only [sput, if_true, sfind]; split <;> simp_all [eq_comm]
    · by_cases hl : k < i
      · simp only [sput, if_neg h, if_pos hl, sfind]; split <;> simp_all [eq_comm]
      · simp only [sput, if_neg h, if_neg hl, sfind, ih]
        by_cases hj : i = j
        · subst hj; simp [h]
        · simp [hj]

/-- A read after a write: the value written at its key, what was there at every other. -/
@[simp] theorem sget_sset [DecidableEq α] (d : α) (m : SMap α) (k j : Nat) (v : α) :
    sget d (sset d m k v) j = if j = k then v else sget d m j := by
  unfold sset sget
  split
  · next h => subst h; rw [sfind_sdel]; split <;> simp
  · rw [sfind_sput]; split <;> simp

@[simp] theorem sget_sput (d : α) (m : SMap α) (k j : Nat) (v : α) :
    sget d (sput m k v) j = if j = k then v else sget d m j := by
  unfold sget; rw [sfind_sput]; split <;> simp

@[simp] theorem sget_sdel (d : α) (m : SMap α) (k j : Nat) : sget d (sdel m k) j = if j = k then d else sget d m j := by
  unfold sget; rw [sfind_sdel]; split <;> simp

@[simp] theorem sget_smod [DecidableEq α] (d : α) (m : SMap α) (k j : Nat) (f : α → α) :
    sget d (smod d m k f) j = if j = k then f (sget d m k) else sget d m j := by
  simp [smod]

@[simp] theorem sget_nil (d : α) (k : Nat) : sget d ([] : SMap α) k = d := rfl

/-- Rising from above a bound is rising from above every smaller one. -/
theorem srising_mono {m : SMap α} {a b : Nat} (h : srising (some b) m = true) (hab : a ≤ b) : srising (some a) m = true := by
  cases m with
  | nil => rfl
  | cons p r => simp only [srising, Bool.and_eq_true, decide_eq_true_eq] at *; exact ⟨by omega, h.2⟩

theorem srising_none {m : SMap α} {a : Nat} (h : srising (some a) m = true) : srising none m = true := by
  cases m with
  | nil => rfl
  | cons p r => simp only [srising, Bool.and_eq_true] at *; exact h.2

theorem srising_sdel {m : SMap α} {l : Option Nat} (k : Nat) (h : srising l m = true) : srising l (sdel m k) = true := by
  induction m generalizing l with
  | nil => simpa [sdel] using h
  | cons p r ih =>
    obtain ⟨i, v⟩ := p
    have hr : srising (some i) r = true := by cases l <;> simp_all [srising]
    by_cases hk : i = k
    · simp only [sdel, if_pos hk]
      refine ih ?_
      cases l with
      | none => exact srising_none hr
      | some a => simp only [srising, Bool.and_eq_true, decide_eq_true_eq] at h; exact srising_mono hr (by omega)
    · simp only [sdel, if_neg hk]
      cases l <;> simp_all [srising]

theorem srising_sput {m : SMap α} {l : Option Nat} (k : Nat) (v : α) (h : srising l m = true)
    (hl : ∀ a, l = some a → a < k) : srising l (sput m k v) = true := by
  induction m generalizing l with
  | nil => cases l <;> simp_all [sput, srising]
  | cons p r ih =>
    obtain ⟨i, u⟩ := p
    have hr : srising (some i) r = true := by cases l <;> simp_all [srising]
    by_cases hk : i = k
    · subst hk; simp only [sput, if_true]; cases l <;> simp_all [srising]
    · by_cases hlt : k < i
      · simp only [sput, if_neg hk, if_pos hlt]; cases l <;> simp_all [srising]
      · have := ih hr (by intro a ha; injection ha with ha; omega)
        simp only [sput, if_neg hk, if_neg hlt]; cases l <;> simp_all [srising]

theorem all_sdel {m : SMap α} {p : Nat × α → Bool} (k : Nat) (h : m.all p = true) : (sdel m k).all p = true := by
  induction m with
  | nil => rfl
  | cons q r ih =>
    simp only [List.all_cons, Bool.and_eq_true] at h
    simp only [sdel]; split
    · exact ih h.2
    · simp [h.1, ih h.2]

theorem all_sput {m : SMap α} {p : Nat × α → Bool} (k : Nat) (v : α) (hv : p (k, v) = true) (h : m.all p = true) :
    (sput m k v).all p = true := by
  induction m with
  | nil => simp [sput, hv]
  | cons q r ih =>
    simp only [List.all_cons, Bool.and_eq_true] at h
    simp only [sput]; split
    · simp [hv, h.2]
    · split
      · simp [hv, h.1, h.2]
      · simp [h.1, ih h.2]

/-- A write keeps the canonical form. -/
theorem swf_sset [DecidableEq α] {d : α} {m : SMap α} (k : Nat) (v : α) (h : swf d m = true) : swf d (sset d m k v) = true := by
  simp only [swf, Bool.and_eq_true] at *
  unfold sset; split
  · exact ⟨srising_sdel k h.1, all_sdel k h.2⟩
  · next hv => exact ⟨srising_sput k v h.1 (by intro a ha; cases ha), all_sput k v (by simpa using hv) h.2⟩

theorem swf_smod [DecidableEq α] {d : α} {m : SMap α} (k : Nat) (f : α → α) (h : swf d m = true) : swf d (smod d m k f) = true :=
  swf_sset k _ h

/-- A write of bytes keeps the canonical form. -/
theorem swf_writeBytes {d : BitVec 8} {m : SMap (BitVec 8)} (a : Nat) (l : List (BitVec 8)) (h : swf d m = true) :
    swf d (writeBytes d m a l) = true := by
  induction l generalizing m a with
  | nil => simpa [writeBytes] using h
  | cons b r ih => exact ih _ (swf_sset a b h)

/-- A byte after a write of bytes: the byte written, or what was there outside the bytes written. -/
theorem sget_writeBytes (d : BitVec 8) (m : SMap (BitVec 8)) (a j : Nat) (l : List (BitVec 8)) :
    sget d (writeBytes d m a l) j = if a ≤ j ∧ j < a + l.length then l.getD (j - a) d else sget d m j := by
  induction l generalizing m a with
  | nil => rw [if_neg (by simp only [List.length_nil]; omega)]; rfl
  | cons b r ih =>
    simp only [writeBytes, ih, sget_sset, List.length_cons]
    by_cases h1 : j = a
    · subst h1; rw [if_neg (by omega), if_pos rfl, if_pos (by omega)]; simp
    · by_cases h2 : a ≤ j ∧ j < a + (r.length + 1)
      · rw [if_pos (by omega), if_pos h2]
        obtain ⟨n, hn⟩ : ∃ n, j - a = n + 1 := ⟨j - a - 1, by omega⟩
        have : j - (a + 1) = n := by omega
        simp [hn, this]
      · rw [if_neg (by omega), if_neg h2, if_neg h1]

end Sys2Proof.Machine
end

