-- ==== Sys2Proof/Laws/State.lean ====
section
/-! SUPPORT. The named updates of the state: what each leaves alone, field by field, and what a read after it gives. -/
namespace Sys2Proof.Machine

@[simp] theorem setSeg_pending (s : State) (c y : Nat) (v : Seg) : (setSeg s c y v).pending = s.pending := rfl
@[simp] theorem setSeg_resp (s : State) (c y : Nat) (v : Seg) : (setSeg s c y v).resp = s.resp := rfl
@[simp] theorem setSeg_freeCtr (s : State) (c y : Nat) (v : Seg) : (setSeg s c y v).freeCtr = s.freeCtr := rfl
@[simp] theorem setSeg_toHost (s : State) (c y : Nat) (v : Seg) : (setSeg s c y v).toHost = s.toHost := rfl
@[simp] theorem setSeg_bricks (s : State) (c y : Nat) (v : Seg) : (setSeg s c y v).bricks = s.bricks := rfl
@[simp] theorem setSeg_mapsReady (s : State) (c y : Nat) (v : Seg) : (setSeg s c y v).mapsReady = s.mapsReady := rfl
@[simp] theorem setSeg_gridSel (s : State) (c y : Nat) (v : Seg) : (setSeg s c y v).gridSel = s.gridSel := rfl
@[simp] theorem setSeg_grid (s : State) (c y : Nat) (v : Seg) : (setSeg s c y v).grid = s.grid := rfl
@[simp] theorem setSeg_ties (s : State) (c y : Nat) (v : Seg) : (setSeg s c y v).ties = s.ties := rfl
@[simp] theorem setSeg_edges (s : State) (c y : Nat) (v : Seg) : (setSeg s c y v).edges = s.edges := rfl
@[simp] theorem setSeg_boards (s : State) (c y : Nat) (v : Seg) : (setSeg s c y v).boards = s.boards := rfl
@[simp] theorem setSeg_fields (s : State) (c y : Nat) (v : Seg) : (setSeg s c y v).fields = s.fields := rfl
@[simp] theorem setSeg_meds (s : State) (c y : Nat) (v : Seg) : (setSeg s c y v).meds = s.meds := rfl
@[simp] theorem setSeg_rim (s : State) (c y : Nat) (v : Seg) : (setSeg s c y v).rim = s.rim := rfl
@[simp] theorem setSeg_heds (s : State) (c y : Nat) (v : Seg) : (setSeg s c y v).heds = s.heds := rfl
@[simp] theorem setSeg_wafer (s : State) (c y : Nat) (v : Seg) : (setSeg s c y v).wafer = s.wafer := rfl
@[simp] theorem setSeg_fns (s : State) (c y : Nat) (v : Seg) : (setSeg s c y v).fns = s.fns := rfl
@[simp] theorem setSeg_ends (s : State) (c y : Nat) (v : Seg) : (setSeg s c y v).ends = s.ends := rfl
@[simp] theorem setSeg_now (s : State) (c y : Nat) (v : Seg) : (setSeg s c y v).now = s.now := rfl
@[simp] theorem setSeg_time (s : State) (c y : Nat) (v : Seg) : (setSeg s c y v).time = s.time := rfl
@[simp] theorem setSeg_clk (s : State) (c y : Nat) (v : Seg) : (setSeg s c y v).clk = s.clk := rfl
@[simp] theorem setSeg_pwr (s : State) (c y : Nat) (v : Seg) : (setSeg s c y v).pwr = s.pwr := rfl
@[simp] theorem setSeg_boot (s : State) (c y : Nat) (v : Seg) : (setSeg s c y v).boot = s.boot := rfl
@[simp] theorem setSeg_vigil (s : State) (c y : Nat) (v : Seg) : (setSeg s c y v).vigil = s.vigil := rfl
@[simp] theorem setSeg_slate (s : State) (c y : Nat) (v : Seg) : (setSeg s c y v).slate = s.slate := rfl
@[simp] theorem setSeg_flt (s : State) (c y : Nat) (v : Seg) : (setSeg s c y v).flt = s.flt := rfl
@[simp] theorem setSeg_raised (s : State) (c y : Nat) (v : Seg) : (setSeg s c y v).raised = s.raised := rfl
@[simp] theorem setSeg_flowOk (s : State) (c y : Nat) (v : Seg) : (setSeg s c y v).flowOk = s.flowOk := rfl
@[simp] theorem setSeg_tap (s : State) (c y : Nat) (v : Seg) : (setSeg s c y v).tap = s.tap := rfl

@[simp] theorem setB_pending (s : State) (k : Nat) (v : Brick) : (setB s k v).pending = s.pending := rfl
@[simp] theorem setB_resp (s : State) (k : Nat) (v : Brick) : (setB s k v).resp = s.resp := rfl
@[simp] theorem setB_freeCtr (s : State) (k : Nat) (v : Brick) : (setB s k v).freeCtr = s.freeCtr := rfl
@[simp] theorem setB_toHost (s : State) (k : Nat) (v : Brick) : (setB s k v).toHost = s.toHost := rfl
@[simp] theorem setB_segs (s : State) (k : Nat) (v : Brick) : (setB s k v).segs = s.segs := rfl
@[simp] theorem setB_mapsReady (s : State) (k : Nat) (v : Brick) : (setB s k v).mapsReady = s.mapsReady := rfl
@[simp] theorem setB_gridSel (s : State) (k : Nat) (v : Brick) : (setB s k v).gridSel = s.gridSel := rfl
@[simp] theorem setB_grid (s : State) (k : Nat) (v : Brick) : (setB s k v).grid = s.grid := rfl
@[simp] theorem setB_ties (s : State) (k : Nat) (v : Brick) : (setB s k v).ties = s.ties := rfl
@[simp] theorem setB_edges (s : State) (k : Nat) (v : Brick) : (setB s k v).edges = s.edges := rfl
@[simp] theorem setB_boards (s : State) (k : Nat) (v : Brick) : (setB s k v).boards = s.boards := rfl
@[simp] theorem setB_fields (s : State) (k : Nat) (v : Brick) : (setB s k v).fields = s.fields := rfl
@[simp] theorem setB_meds (s : State) (k : Nat) (v : Brick) : (setB s k v).meds = s.meds := rfl
@[simp] theorem setB_rim (s : State) (k : Nat) (v : Brick) : (setB s k v).rim = s.rim := rfl
@[simp] theorem setB_heds (s : State) (k : Nat) (v : Brick) : (setB s k v).heds = s.heds := rfl
@[simp] theorem setB_wafer (s : State) (k : Nat) (v : Brick) : (setB s k v).wafer = s.wafer := rfl
@[simp] theorem setB_fns (s : State) (k : Nat) (v : Brick) : (setB s k v).fns = s.fns := rfl
@[simp] theorem setB_ends (s : State) (k : Nat) (v : Brick) : (setB s k v).ends = s.ends := rfl
@[simp] theorem setB_now (s : State) (k : Nat) (v : Brick) : (setB s k v).now = s.now := rfl
@[simp] theorem setB_time (s : State) (k : Nat) (v : Brick) : (setB s k v).time = s.time := rfl
@[simp] theorem setB_clk (s : State) (k : Nat) (v : Brick) : (setB s k v).clk = s.clk := rfl
@[simp] theorem setB_pwr (s : State) (k : Nat) (v : Brick) : (setB s k v).pwr = s.pwr := rfl
@[simp] theorem setB_boot (s : State) (k : Nat) (v : Brick) : (setB s k v).boot = s.boot := rfl
@[simp] theorem setB_vigil (s : State) (k : Nat) (v : Brick) : (setB s k v).vigil = s.vigil := rfl
@[simp] theorem setB_slate (s : State) (k : Nat) (v : Brick) : (setB s k v).slate = s.slate := rfl
@[simp] theorem setB_flt (s : State) (k : Nat) (v : Brick) : (setB s k v).flt = s.flt := rfl
@[simp] theorem setB_raised (s : State) (k : Nat) (v : Brick) : (setB s k v).raised = s.raised := rfl
@[simp] theorem setB_flowOk (s : State) (k : Nat) (v : Brick) : (setB s k v).flowOk = s.flowOk := rfl
@[simp] theorem setB_tap (s : State) (k : Nat) (v : Brick) : (setB s k v).tap = s.tap := rfl

@[simp] theorem setField_pending (s : State) (f : Nat) (v : FieldSt) : (setField s f v).pending = s.pending := rfl
@[simp] theorem setField_resp (s : State) (f : Nat) (v : FieldSt) : (setField s f v).resp = s.resp := rfl
@[simp] theorem setField_freeCtr (s : State) (f : Nat) (v : FieldSt) : (setField s f v).freeCtr = s.freeCtr := rfl
@[simp] theorem setField_toHost (s : State) (f : Nat) (v : FieldSt) : (setField s f v).toHost = s.toHost := rfl
@[simp] theorem setField_bricks (s : State) (f : Nat) (v : FieldSt) : (setField s f v).bricks = s.bricks := rfl
@[simp] theorem setField_segs (s : State) (f : Nat) (v : FieldSt) : (setField s f v).segs = s.segs := rfl
@[simp] theorem setField_mapsReady (s : State) (f : Nat) (v : FieldSt) : (setField s f v).mapsReady = s.mapsReady := rfl
@[simp] theorem setField_gridSel (s : State) (f : Nat) (v : FieldSt) : (setField s f v).gridSel = s.gridSel := rfl
@[simp] theorem setField_grid (s : State) (f : Nat) (v : FieldSt) : (setField s f v).grid = s.grid := rfl
@[simp] theorem setField_ties (s : State) (f : Nat) (v : FieldSt) : (setField s f v).ties = s.ties := rfl
@[simp] theorem setField_edges (s : State) (f : Nat) (v : FieldSt) : (setField s f v).edges = s.edges := rfl
@[simp] theorem setField_boards (s : State) (f : Nat) (v : FieldSt) : (setField s f v).boards = s.boards := rfl
@[simp] theorem setField_meds (s : State) (f : Nat) (v : FieldSt) : (setField s f v).meds = s.meds := rfl
@[simp] theorem setField_rim (s : State) (f : Nat) (v : FieldSt) : (setField s f v).rim = s.rim := rfl
@[simp] theorem setField_heds (s : State) (f : Nat) (v : FieldSt) : (setField s f v).heds = s.heds := rfl
@[simp] theorem setField_wafer (s : State) (f : Nat) (v : FieldSt) : (setField s f v).wafer = s.wafer := rfl
@[simp] theorem setField_fns (s : State) (f : Nat) (v : FieldSt) : (setField s f v).fns = s.fns := rfl
@[simp] theorem setField_ends (s : State) (f : Nat) (v : FieldSt) : (setField s f v).ends = s.ends := rfl
@[simp] theorem setField_now (s : State) (f : Nat) (v : FieldSt) : (setField s f v).now = s.now := rfl
@[simp] theorem setField_time (s : State) (f : Nat) (v : FieldSt) : (setField s f v).time = s.time := rfl
@[simp] theorem setField_clk (s : State) (f : Nat) (v : FieldSt) : (setField s f v).clk = s.clk := rfl
@[simp] theorem setField_pwr (s : State) (f : Nat) (v : FieldSt) : (setField s f v).pwr = s.pwr := rfl
@[simp] theorem setField_boot (s : State) (f : Nat) (v : FieldSt) : (setField s f v).boot = s.boot := rfl
@[simp] theorem setField_vigil (s : State) (f : Nat) (v : FieldSt) : (setField s f v).vigil = s.vigil := rfl
@[simp] theorem setField_slate (s : State) (f : Nat) (v : FieldSt) : (setField s f v).slate = s.slate := rfl
@[simp] theorem setField_flt (s : State) (f : Nat) (v : FieldSt) : (setField s f v).flt = s.flt := rfl
@[simp] theorem setField_raised (s : State) (f : Nat) (v : FieldSt) : (setField s f v).raised = s.raised := rfl
@[simp] theorem setField_flowOk (s : State) (f : Nat) (v : FieldSt) : (setField s f v).flowOk = s.flowOk := rfl
@[simp] theorem setField_tap (s : State) (f : Nat) (v : FieldSt) : (setField s f v).tap = s.tap := rfl

@[simp] theorem setBd_pending (s : State) (b : Nat) (v : Board) : (setBd s b v).pending = s.pending := rfl
@[simp] theorem setBd_resp (s : State) (b : Nat) (v : Board) : (setBd s b v).resp = s.resp := rfl
@[simp] theorem setBd_freeCtr (s : State) (b : Nat) (v : Board) : (setBd s b v).freeCtr = s.freeCtr := rfl
@[simp] theorem setBd_toHost (s : State) (b : Nat) (v : Board) : (setBd s b v).toHost = s.toHost := rfl
@[simp] theorem setBd_bricks (s : State) (b : Nat) (v : Board) : (setBd s b v).bricks = s.bricks := rfl
@[simp] theorem setBd_segs (s : State) (b : Nat) (v : Board) : (setBd s b v).segs = s.segs := rfl
@[simp] theorem setBd_mapsReady (s : State) (b : Nat) (v : Board) : (setBd s b v).mapsReady = s.mapsReady := rfl
@[simp] theorem setBd_gridSel (s : State) (b : Nat) (v : Board) : (setBd s b v).gridSel = s.gridSel := rfl
@[simp] theorem setBd_grid (s : State) (b : Nat) (v : Board) : (setBd s b v).grid = s.grid := rfl
@[simp] theorem setBd_ties (s : State) (b : Nat) (v : Board) : (setBd s b v).ties = s.ties := rfl
@[simp] theorem setBd_edges (s : State) (b : Nat) (v : Board) : (setBd s b v).edges = s.edges := rfl
@[simp] theorem setBd_fields (s : State) (b : Nat) (v : Board) : (setBd s b v).fields = s.fields := rfl
@[simp] theorem setBd_meds (s : State) (b : Nat) (v : Board) : (setBd s b v).meds = s.meds := rfl
@[simp] theorem setBd_rim (s : State) (b : Nat) (v : Board) : (setBd s b v).rim = s.rim := rfl
@[simp] theorem setBd_heds (s : State) (b : Nat) (v : Board) : (setBd s b v).heds = s.heds := rfl
@[simp] theorem setBd_wafer (s : State) (b : Nat) (v : Board) : (setBd s b v).wafer = s.wafer := rfl
@[simp] theorem setBd_fns (s : State) (b : Nat) (v : Board) : (setBd s b v).fns = s.fns := rfl
@[simp] theorem setBd_ends (s : State) (b : Nat) (v : Board) : (setBd s b v).ends = s.ends := rfl
@[simp] theorem setBd_now (s : State) (b : Nat) (v : Board) : (setBd s b v).now = s.now := rfl
@[simp] theorem setBd_time (s : State) (b : Nat) (v : Board) : (setBd s b v).time = s.time := rfl
@[simp] theorem setBd_clk (s : State) (b : Nat) (v : Board) : (setBd s b v).clk = s.clk := rfl
@[simp] theorem setBd_pwr (s : State) (b : Nat) (v : Board) : (setBd s b v).pwr = s.pwr := rfl
@[simp] theorem setBd_boot (s : State) (b : Nat) (v : Board) : (setBd s b v).boot = s.boot := rfl
@[simp] theorem setBd_vigil (s : State) (b : Nat) (v : Board) : (setBd s b v).vigil = s.vigil := rfl
@[simp] theorem setBd_slate (s : State) (b : Nat) (v : Board) : (setBd s b v).slate = s.slate := rfl
@[simp] theorem setBd_flt (s : State) (b : Nat) (v : Board) : (setBd s b v).flt = s.flt := rfl
@[simp] theorem setBd_raised (s : State) (b : Nat) (v : Board) : (setBd s b v).raised = s.raised := rfl
@[simp] theorem setBd_flowOk (s : State) (b : Nat) (v : Board) : (setBd s b v).flowOk = s.flowOk := rfl
@[simp] theorem setBd_tap (s : State) (b : Nat) (v : Board) : (setBd s b v).tap = s.tap := rfl

@[simp] theorem setTie_pending (s : State) (k : Nat) (v : Tie) : (setTie s k v).pending = s.pending := rfl
@[simp] theorem setTie_resp (s : State) (k : Nat) (v : Tie) : (setTie s k v).resp = s.resp := rfl
@[simp] theorem setTie_freeCtr (s : State) (k : Nat) (v : Tie) : (setTie s k v).freeCtr = s.freeCtr := rfl
@[simp] theorem setTie_toHost (s : State) (k : Nat) (v : Tie) : (setTie s k v).toHost = s.toHost := rfl
@[simp] theorem setTie_bricks (s : State) (k : Nat) (v : Tie) : (setTie s k v).bricks = s.bricks := rfl
@[simp] theorem setTie_segs (s : State) (k : Nat) (v : Tie) : (setTie s k v).segs = s.segs := rfl
@[simp] theorem setTie_mapsReady (s : State) (k : Nat) (v : Tie) : (setTie s k v).mapsReady = s.mapsReady := rfl
@[simp] theorem setTie_gridSel (s : State) (k : Nat) (v : Tie) : (setTie s k v).gridSel = s.gridSel := rfl
@[simp] theorem setTie_grid (s : State) (k : Nat) (v : Tie) : (setTie s k v).grid = s.grid := rfl
@[simp] theorem setTie_edges (s : State) (k : Nat) (v : Tie) : (setTie s k v).edges = s.edges := rfl
@[simp] theorem setTie_boards (s : State) (k : Nat) (v : Tie) : (setTie s k v).boards = s.boards := rfl
@[simp] theorem setTie_fields (s : State) (k : Nat) (v : Tie) : (setTie s k v).fields = s.fields := rfl
@[simp] theorem setTie_meds (s : State) (k : Nat) (v : Tie) : (setTie s k v).meds = s.meds := rfl
@[simp] theorem setTie_rim (s : State) (k : Nat) (v : Tie) : (setTie s k v).rim = s.rim := rfl
@[simp] theorem setTie_heds (s : State) (k : Nat) (v : Tie) : (setTie s k v).heds = s.heds := rfl
@[simp] theorem setTie_wafer (s : State) (k : Nat) (v : Tie) : (setTie s k v).wafer = s.wafer := rfl
@[simp] theorem setTie_fns (s : State) (k : Nat) (v : Tie) : (setTie s k v).fns = s.fns := rfl
@[simp] theorem setTie_ends (s : State) (k : Nat) (v : Tie) : (setTie s k v).ends = s.ends := rfl
@[simp] theorem setTie_now (s : State) (k : Nat) (v : Tie) : (setTie s k v).now = s.now := rfl
@[simp] theorem setTie_time (s : State) (k : Nat) (v : Tie) : (setTie s k v).time = s.time := rfl
@[simp] theorem setTie_clk (s : State) (k : Nat) (v : Tie) : (setTie s k v).clk = s.clk := rfl
@[simp] theorem setTie_pwr (s : State) (k : Nat) (v : Tie) : (setTie s k v).pwr = s.pwr := rfl
@[simp] theorem setTie_boot (s : State) (k : Nat) (v : Tie) : (setTie s k v).boot = s.boot := rfl
@[simp] theorem setTie_vigil (s : State) (k : Nat) (v : Tie) : (setTie s k v).vigil = s.vigil := rfl
@[simp] theorem setTie_slate (s : State) (k : Nat) (v : Tie) : (setTie s k v).slate = s.slate := rfl
@[simp] theorem setTie_flt (s : State) (k : Nat) (v : Tie) : (setTie s k v).flt = s.flt := rfl
@[simp] theorem setTie_raised (s : State) (k : Nat) (v : Tie) : (setTie s k v).raised = s.raised := rfl
@[simp] theorem setTie_flowOk (s : State) (k : Nat) (v : Tie) : (setTie s k v).flowOk = s.flowOk := rfl
@[simp] theorem setTie_tap (s : State) (k : Nat) (v : Tie) : (setTie s k v).tap = s.tap := rfl

@[simp] theorem setEdge_pending (s : State) (k : Nat) (v : EdgeBr) : (setEdge s k v).pending = s.pending := rfl
@[simp] theorem setEdge_resp (s : State) (k : Nat) (v : EdgeBr) : (setEdge s k v).resp = s.resp := rfl
@[simp] theorem setEdge_freeCtr (s : State) (k : Nat) (v : EdgeBr) : (setEdge s k v).freeCtr = s.freeCtr := rfl
@[simp] theorem setEdge_toHost (s : State) (k : Nat) (v : EdgeBr) : (setEdge s k v).toHost = s.toHost := rfl
@[simp] theorem setEdge_bricks (s : State) (k : Nat) (v : EdgeBr) : (setEdge s k v).bricks = s.bricks := rfl
@[simp] theorem setEdge_segs (s : State) (k : Nat) (v : EdgeBr) : (setEdge s k v).segs = s.segs := rfl
@[simp] theorem setEdge_mapsReady (s : State) (k : Nat) (v : EdgeBr) : (setEdge s k v).mapsReady = s.mapsReady := rfl
@[simp] theorem setEdge_gridSel (s : State) (k : Nat) (v : EdgeBr) : (setEdge s k v).gridSel = s.gridSel := rfl
@[simp] theorem setEdge_grid (s : State) (k : Nat) (v : EdgeBr) : (setEdge s k v).grid = s.grid := rfl
@[simp] theorem setEdge_ties (s : State) (k : Nat) (v : EdgeBr) : (setEdge s k v).ties = s.ties := rfl
@[simp] theorem setEdge_boards (s : State) (k : Nat) (v : EdgeBr) : (setEdge s k v).boards = s.boards := rfl
@[simp] theorem setEdge_fields (s : State) (k : Nat) (v : EdgeBr) : (setEdge s k v).fields = s.fields := rfl
@[simp] theorem setEdge_meds (s : State) (k : Nat) (v : EdgeBr) : (setEdge s k v).meds = s.meds := rfl
@[simp] theorem setEdge_rim (s : State) (k : Nat) (v : EdgeBr) : (setEdge s k v).rim = s.rim := rfl
@[simp] theorem setEdge_heds (s : State) (k : Nat) (v : EdgeBr) : (setEdge s k v).heds = s.heds := rfl
@[simp] theorem setEdge_wafer (s : State) (k : Nat) (v : EdgeBr) : (setEdge s k v).wafer = s.wafer := rfl
@[simp] theorem setEdge_fns (s : State) (k : Nat) (v : EdgeBr) : (setEdge s k v).fns = s.fns := rfl
@[simp] theorem setEdge_ends (s : State) (k : Nat) (v : EdgeBr) : (setEdge s k v).ends = s.ends := rfl
@[simp] theorem setEdge_now (s : State) (k : Nat) (v : EdgeBr) : (setEdge s k v).now = s.now := rfl
@[simp] theorem setEdge_time (s : State) (k : Nat) (v : EdgeBr) : (setEdge s k v).time = s.time := rfl
@[simp] theorem setEdge_clk (s : State) (k : Nat) (v : EdgeBr) : (setEdge s k v).clk = s.clk := rfl
@[simp] theorem setEdge_pwr (s : State) (k : Nat) (v : EdgeBr) : (setEdge s k v).pwr = s.pwr := rfl
@[simp] theorem setEdge_boot (s : State) (k : Nat) (v : EdgeBr) : (setEdge s k v).boot = s.boot := rfl
@[simp] theorem setEdge_vigil (s : State) (k : Nat) (v : EdgeBr) : (setEdge s k v).vigil = s.vigil := rfl
@[simp] theorem setEdge_slate (s : State) (k : Nat) (v : EdgeBr) : (setEdge s k v).slate = s.slate := rfl
@[simp] theorem setEdge_flt (s : State) (k : Nat) (v : EdgeBr) : (setEdge s k v).flt = s.flt := rfl
@[simp] theorem setEdge_raised (s : State) (k : Nat) (v : EdgeBr) : (setEdge s k v).raised = s.raised := rfl
@[simp] theorem setEdge_flowOk (s : State) (k : Nat) (v : EdgeBr) : (setEdge s k v).flowOk = s.flowOk := rfl
@[simp] theorem setEdge_tap (s : State) (k : Nat) (v : EdgeBr) : (setEdge s k v).tap = s.tap := rfl

@[simp] theorem setMed_pending (s : State) (m : Nat) (v : Med) : (setMed s m v).pending = s.pending := rfl
@[simp] theorem setMed_resp (s : State) (m : Nat) (v : Med) : (setMed s m v).resp = s.resp := rfl
@[simp] theorem setMed_freeCtr (s : State) (m : Nat) (v : Med) : (setMed s m v).freeCtr = s.freeCtr := rfl
@[simp] theorem setMed_toHost (s : State) (m : Nat) (v : Med) : (setMed s m v).toHost = s.toHost := rfl
@[simp] theorem setMed_bricks (s : State) (m : Nat) (v : Med) : (setMed s m v).bricks = s.bricks := rfl
@[simp] theorem setMed_segs (s : State) (m : Nat) (v : Med) : (setMed s m v).segs = s.segs := rfl
@[simp] theorem setMed_mapsReady (s : State) (m : Nat) (v : Med) : (setMed s m v).mapsReady = s.mapsReady := rfl
@[simp] theorem setMed_gridSel (s : State) (m : Nat) (v : Med) : (setMed s m v).gridSel = s.gridSel := rfl
@[simp] theorem setMed_grid (s : State) (m : Nat) (v : Med) : (setMed s m v).grid = s.grid := rfl
@[simp] theorem setMed_ties (s : State) (m : Nat) (v : Med) : (setMed s m v).ties = s.ties := rfl
@[simp] theorem setMed_edges (s : State) (m : Nat) (v : Med) : (setMed s m v).edges = s.edges := rfl
@[simp] theorem setMed_boards (s : State) (m : Nat) (v : Med) : (setMed s m v).boards = s.boards := rfl
@[simp] theorem setMed_fields (s : State) (m : Nat) (v : Med) : (setMed s m v).fields = s.fields := rfl
@[simp] theorem setMed_rim (s : State) (m : Nat) (v : Med) : (setMed s m v).rim = s.rim := rfl
@[simp] theorem setMed_heds (s : State) (m : Nat) (v : Med) : (setMed s m v).heds = s.heds := rfl
@[simp] theorem setMed_wafer (s : State) (m : Nat) (v : Med) : (setMed s m v).wafer = s.wafer := rfl
@[simp] theorem setMed_fns (s : State) (m : Nat) (v : Med) : (setMed s m v).fns = s.fns := rfl
@[simp] theorem setMed_ends (s : State) (m : Nat) (v : Med) : (setMed s m v).ends = s.ends := rfl
@[simp] theorem setMed_now (s : State) (m : Nat) (v : Med) : (setMed s m v).now = s.now := rfl
@[simp] theorem setMed_time (s : State) (m : Nat) (v : Med) : (setMed s m v).time = s.time := rfl
@[simp] theorem setMed_clk (s : State) (m : Nat) (v : Med) : (setMed s m v).clk = s.clk := rfl
@[simp] theorem setMed_pwr (s : State) (m : Nat) (v : Med) : (setMed s m v).pwr = s.pwr := rfl
@[simp] theorem setMed_boot (s : State) (m : Nat) (v : Med) : (setMed s m v).boot = s.boot := rfl
@[simp] theorem setMed_vigil (s : State) (m : Nat) (v : Med) : (setMed s m v).vigil = s.vigil := rfl
@[simp] theorem setMed_slate (s : State) (m : Nat) (v : Med) : (setMed s m v).slate = s.slate := rfl
@[simp] theorem setMed_flt (s : State) (m : Nat) (v : Med) : (setMed s m v).flt = s.flt := rfl
@[simp] theorem setMed_raised (s : State) (m : Nat) (v : Med) : (setMed s m v).raised = s.raised := rfl
@[simp] theorem setMed_flowOk (s : State) (m : Nat) (v : Med) : (setMed s m v).flowOk = s.flowOk := rfl
@[simp] theorem setMed_tap (s : State) (m : Nat) (v : Med) : (setMed s m v).tap = s.tap := rfl

@[simp] theorem setHed_pending (s : State) (h : Nat) (v : Hed) : (setHed s h v).pending = s.pending := rfl
@[simp] theorem setHed_resp (s : State) (h : Nat) (v : Hed) : (setHed s h v).resp = s.resp := rfl
@[simp] theorem setHed_freeCtr (s : State) (h : Nat) (v : Hed) : (setHed s h v).freeCtr = s.freeCtr := rfl
@[simp] theorem setHed_toHost (s : State) (h : Nat) (v : Hed) : (setHed s h v).toHost = s.toHost := rfl
@[simp] theorem setHed_bricks (s : State) (h : Nat) (v : Hed) : (setHed s h v).bricks = s.bricks := rfl
@[simp] theorem setHed_segs (s : State) (h : Nat) (v : Hed) : (setHed s h v).segs = s.segs := rfl
@[simp] theorem setHed_mapsReady (s : State) (h : Nat) (v : Hed) : (setHed s h v).mapsReady = s.mapsReady := rfl
@[simp] theorem setHed_gridSel (s : State) (h : Nat) (v : Hed) : (setHed s h v).gridSel = s.gridSel := rfl
@[simp] theorem setHed_grid (s : State) (h : Nat) (v : Hed) : (setHed s h v).grid = s.grid := rfl
@[simp] theorem setHed_ties (s : State) (h : Nat) (v : Hed) : (setHed s h v).ties = s.ties := rfl
@[simp] theorem setHed_edges (s : State) (h : Nat) (v : Hed) : (setHed s h v).edges = s.edges := rfl
@[simp] theorem setHed_boards (s : State) (h : Nat) (v : Hed) : (setHed s h v).boards = s.boards := rfl
@[simp] theorem setHed_fields (s : State) (h : Nat) (v : Hed) : (setHed s h v).fields = s.fields := rfl
@[simp] theorem setHed_meds (s : State) (h : Nat) (v : Hed) : (setHed s h v).meds = s.meds := rfl
@[simp] theorem setHed_rim (s : State) (h : Nat) (v : Hed) : (setHed s h v).rim = s.rim := rfl
@[simp] theorem setHed_wafer (s : State) (h : Nat) (v : Hed) : (setHed s h v).wafer = s.wafer := rfl
@[simp] theorem setHed_fns (s : State) (h : Nat) (v : Hed) : (setHed s h v).fns = s.fns := rfl
@[simp] theorem setHed_ends (s : State) (h : Nat) (v : Hed) : (setHed s h v).ends = s.ends := rfl
@[simp] theorem setHed_now (s : State) (h : Nat) (v : Hed) : (setHed s h v).now = s.now := rfl
@[simp] theorem setHed_time (s : State) (h : Nat) (v : Hed) : (setHed s h v).time = s.time := rfl
@[simp] theorem setHed_clk (s : State) (h : Nat) (v : Hed) : (setHed s h v).clk = s.clk := rfl
@[simp] theorem setHed_pwr (s : State) (h : Nat) (v : Hed) : (setHed s h v).pwr = s.pwr := rfl
@[simp] theorem setHed_boot (s : State) (h : Nat) (v : Hed) : (setHed s h v).boot = s.boot := rfl
@[simp] theorem setHed_vigil (s : State) (h : Nat) (v : Hed) : (setHed s h v).vigil = s.vigil := rfl
@[simp] theorem setHed_slate (s : State) (h : Nat) (v : Hed) : (setHed s h v).slate = s.slate := rfl
@[simp] theorem setHed_flt (s : State) (h : Nat) (v : Hed) : (setHed s h v).flt = s.flt := rfl
@[simp] theorem setHed_raised (s : State) (h : Nat) (v : Hed) : (setHed s h v).raised = s.raised := rfl
@[simp] theorem setHed_flowOk (s : State) (h : Nat) (v : Hed) : (setHed s h v).flowOk = s.flowOk := rfl
@[simp] theorem setHed_tap (s : State) (h : Nat) (v : Hed) : (setHed s h v).tap = s.tap := rfl

@[simp] theorem setFn_pending (s : State) (i : Nat) (v : FnSt) : (setFn s i v).pending = s.pending := rfl
@[simp] theorem setFn_resp (s : State) (i : Nat) (v : FnSt) : (setFn s i v).resp = s.resp := rfl
@[simp] theorem setFn_freeCtr (s : State) (i : Nat) (v : FnSt) : (setFn s i v).freeCtr = s.freeCtr := rfl
@[simp] theorem setFn_toHost (s : State) (i : Nat) (v : FnSt) : (setFn s i v).toHost = s.toHost := rfl
@[simp] theorem setFn_bricks (s : State) (i : Nat) (v : FnSt) : (setFn s i v).bricks = s.bricks := rfl
@[simp] theorem setFn_segs (s : State) (i : Nat) (v : FnSt) : (setFn s i v).segs = s.segs := rfl
@[simp] theorem setFn_mapsReady (s : State) (i : Nat) (v : FnSt) : (setFn s i v).mapsReady = s.mapsReady := rfl
@[simp] theorem setFn_gridSel (s : State) (i : Nat) (v : FnSt) : (setFn s i v).gridSel = s.gridSel := rfl
@[simp] theorem setFn_grid (s : State) (i : Nat) (v : FnSt) : (setFn s i v).grid = s.grid := rfl
@[simp] theorem setFn_ties (s : State) (i : Nat) (v : FnSt) : (setFn s i v).ties = s.ties := rfl
@[simp] theorem setFn_edges (s : State) (i : Nat) (v : FnSt) : (setFn s i v).edges = s.edges := rfl
@[simp] theorem setFn_boards (s : State) (i : Nat) (v : FnSt) : (setFn s i v).boards = s.boards := rfl
@[simp] theorem setFn_fields (s : State) (i : Nat) (v : FnSt) : (setFn s i v).fields = s.fields := rfl
@[simp] theorem setFn_meds (s : State) (i : Nat) (v : FnSt) : (setFn s i v).meds = s.meds := rfl
@[simp] theorem setFn_rim (s : State) (i : Nat) (v : FnSt) : (setFn s i v).rim = s.rim := rfl
@[simp] theorem setFn_heds (s : State) (i : Nat) (v : FnSt) : (setFn s i v).heds = s.heds := rfl
@[simp] theorem setFn_wafer (s : State) (i : Nat) (v : FnSt) : (setFn s i v).wafer = s.wafer := rfl
@[simp] theorem setFn_ends (s : State) (i : Nat) (v : FnSt) : (setFn s i v).ends = s.ends := rfl
@[simp] theorem setFn_now (s : State) (i : Nat) (v : FnSt) : (setFn s i v).now = s.now := rfl
@[simp] theorem setFn_time (s : State) (i : Nat) (v : FnSt) : (setFn s i v).time = s.time := rfl
@[simp] theorem setFn_clk (s : State) (i : Nat) (v : FnSt) : (setFn s i v).clk = s.clk := rfl
@[simp] theorem setFn_pwr (s : State) (i : Nat) (v : FnSt) : (setFn s i v).pwr = s.pwr := rfl
@[simp] theorem setFn_boot (s : State) (i : Nat) (v : FnSt) : (setFn s i v).boot = s.boot := rfl
@[simp] theorem setFn_vigil (s : State) (i : Nat) (v : FnSt) : (setFn s i v).vigil = s.vigil := rfl
@[simp] theorem setFn_slate (s : State) (i : Nat) (v : FnSt) : (setFn s i v).slate = s.slate := rfl
@[simp] theorem setFn_flt (s : State) (i : Nat) (v : FnSt) : (setFn s i v).flt = s.flt := rfl
@[simp] theorem setFn_raised (s : State) (i : Nat) (v : FnSt) : (setFn s i v).raised = s.raised := rfl
@[simp] theorem setFn_flowOk (s : State) (i : Nat) (v : FnSt) : (setFn s i v).flowOk = s.flowOk := rfl
@[simp] theorem setFn_tap (s : State) (i : Nat) (v : FnSt) : (setFn s i v).tap = s.tap := rfl

@[simp] theorem setEnd_pending (s : State) (h : Nat) (v : EndSt) : (setEnd s h v).pending = s.pending := rfl
@[simp] theorem setEnd_resp (s : State) (h : Nat) (v : EndSt) : (setEnd s h v).resp = s.resp := rfl
@[simp] theorem setEnd_freeCtr (s : State) (h : Nat) (v : EndSt) : (setEnd s h v).freeCtr = s.freeCtr := rfl
@[simp] theorem setEnd_toHost (s : State) (h : Nat) (v : EndSt) : (setEnd s h v).toHost = s.toHost := rfl
@[simp] theorem setEnd_bricks (s : State) (h : Nat) (v : EndSt) : (setEnd s h v).bricks = s.bricks := rfl
@[simp] theorem setEnd_segs (s : State) (h : Nat) (v : EndSt) : (setEnd s h v).segs = s.segs := rfl
@[simp] theorem setEnd_mapsReady (s : State) (h : Nat) (v : EndSt) : (setEnd s h v).mapsReady = s.mapsReady := rfl
@[simp] theorem setEnd_gridSel (s : State) (h : Nat) (v : EndSt) : (setEnd s h v).gridSel = s.gridSel := rfl
@[simp] theorem setEnd_grid (s : State) (h : Nat) (v : EndSt) : (setEnd s h v).grid = s.grid := rfl
@[simp] theorem setEnd_ties (s : State) (h : Nat) (v : EndSt) : (setEnd s h v).ties = s.ties := rfl
@[simp] theorem setEnd_edges (s : State) (h : Nat) (v : EndSt) : (setEnd s h v).edges = s.edges := rfl
@[simp] theorem setEnd_boards (s : State) (h : Nat) (v : EndSt) : (setEnd s h v).boards = s.boards := rfl
@[simp] theorem setEnd_fields (s : State) (h : Nat) (v : EndSt) : (setEnd s h v).fields = s.fields := rfl
@[simp] theorem setEnd_meds (s : State) (h : Nat) (v : EndSt) : (setEnd s h v).meds = s.meds := rfl
@[simp] theorem setEnd_rim (s : State) (h : Nat) (v : EndSt) : (setEnd s h v).rim = s.rim := rfl
@[simp] theorem setEnd_heds (s : State) (h : Nat) (v : EndSt) : (setEnd s h v).heds = s.heds := rfl
@[simp] theorem setEnd_wafer (s : State) (h : Nat) (v : EndSt) : (setEnd s h v).wafer = s.wafer := rfl
@[simp] theorem setEnd_fns (s : State) (h : Nat) (v : EndSt) : (setEnd s h v).fns = s.fns := rfl
@[simp] theorem setEnd_now (s : State) (h : Nat) (v : EndSt) : (setEnd s h v).now = s.now := rfl
@[simp] theorem setEnd_time (s : State) (h : Nat) (v : EndSt) : (setEnd s h v).time = s.time := rfl
@[simp] theorem setEnd_clk (s : State) (h : Nat) (v : EndSt) : (setEnd s h v).clk = s.clk := rfl
@[simp] theorem setEnd_pwr (s : State) (h : Nat) (v : EndSt) : (setEnd s h v).pwr = s.pwr := rfl
@[simp] theorem setEnd_boot (s : State) (h : Nat) (v : EndSt) : (setEnd s h v).boot = s.boot := rfl
@[simp] theorem setEnd_vigil (s : State) (h : Nat) (v : EndSt) : (setEnd s h v).vigil = s.vigil := rfl
@[simp] theorem setEnd_slate (s : State) (h : Nat) (v : EndSt) : (setEnd s h v).slate = s.slate := rfl
@[simp] theorem setEnd_flt (s : State) (h : Nat) (v : EndSt) : (setEnd s h v).flt = s.flt := rfl
@[simp] theorem setEnd_raised (s : State) (h : Nat) (v : EndSt) : (setEnd s h v).raised = s.raised := rfl
@[simp] theorem setEnd_flowOk (s : State) (h : Nat) (v : EndSt) : (setEnd s h v).flowOk = s.flowOk := rfl
@[simp] theorem setEnd_tap (s : State) (h : Nat) (v : EndSt) : (setEnd s h v).tap = s.tap := rfl

@[simp] theorem setEnt_pending (s : State) (k : Nat) (v : SchedEnt) : (setEnt s k v).pending = s.pending := rfl
@[simp] theorem setEnt_resp (s : State) (k : Nat) (v : SchedEnt) : (setEnt s k v).resp = s.resp := rfl
@[simp] theorem setEnt_freeCtr (s : State) (k : Nat) (v : SchedEnt) : (setEnt s k v).freeCtr = s.freeCtr := rfl
@[simp] theorem setEnt_toHost (s : State) (k : Nat) (v : SchedEnt) : (setEnt s k v).toHost = s.toHost := rfl
@[simp] theorem setEnt_bricks (s : State) (k : Nat) (v : SchedEnt) : (setEnt s k v).bricks = s.bricks := rfl
@[simp] theorem setEnt_segs (s : State) (k : Nat) (v : SchedEnt) : (setEnt s k v).segs = s.segs := rfl
@[simp] theorem setEnt_mapsReady (s : State) (k : Nat) (v : SchedEnt) : (setEnt s k v).mapsReady = s.mapsReady := rfl
@[simp] theorem setEnt_gridSel (s : State) (k : Nat) (v : SchedEnt) : (setEnt s k v).gridSel = s.gridSel := rfl
@[simp] theorem setEnt_grid (s : State) (k : Nat) (v : SchedEnt) : (setEnt s k v).grid = s.grid := rfl
@[simp] theorem setEnt_ties (s : State) (k : Nat) (v : SchedEnt) : (setEnt s k v).ties = s.ties := rfl
@[simp] theorem setEnt_edges (s : State) (k : Nat) (v : SchedEnt) : (setEnt s k v).edges = s.edges := rfl
@[simp] theorem setEnt_boards (s : State) (k : Nat) (v : SchedEnt) : (setEnt s k v).boards = s.boards := rfl
@[simp] theorem setEnt_fields (s : State) (k : Nat) (v : SchedEnt) : (setEnt s k v).fields = s.fields := rfl
@[simp] theorem setEnt_meds (s : State) (k : Nat) (v : SchedEnt) : (setEnt s k v).meds = s.meds := rfl
@[simp] theorem setEnt_rim (s : State) (k : Nat) (v : SchedEnt) : (setEnt s k v).rim = s.rim := rfl
@[simp] theorem setEnt_heds (s : State) (k : Nat) (v : SchedEnt) : (setEnt s k v).heds = s.heds := rfl
@[simp] theorem setEnt_wafer (s : State) (k : Nat) (v : SchedEnt) : (setEnt s k v).wafer = s.wafer := rfl
@[simp] theorem setEnt_fns (s : State) (k : Nat) (v : SchedEnt) : (setEnt s k v).fns = s.fns := rfl
@[simp] theorem setEnt_ends (s : State) (k : Nat) (v : SchedEnt) : (setEnt s k v).ends = s.ends := rfl
@[simp] theorem setEnt_now (s : State) (k : Nat) (v : SchedEnt) : (setEnt s k v).now = s.now := rfl
@[simp] theorem setEnt_clk (s : State) (k : Nat) (v : SchedEnt) : (setEnt s k v).clk = s.clk := rfl
@[simp] theorem setEnt_pwr (s : State) (k : Nat) (v : SchedEnt) : (setEnt s k v).pwr = s.pwr := rfl
@[simp] theorem setEnt_boot (s : State) (k : Nat) (v : SchedEnt) : (setEnt s k v).boot = s.boot := rfl
@[simp] theorem setEnt_vigil (s : State) (k : Nat) (v : SchedEnt) : (setEnt s k v).vigil = s.vigil := rfl
@[simp] theorem setEnt_slate (s : State) (k : Nat) (v : SchedEnt) : (setEnt s k v).slate = s.slate := rfl
@[simp] theorem setEnt_flt (s : State) (k : Nat) (v : SchedEnt) : (setEnt s k v).flt = s.flt := rfl
@[simp] theorem setEnt_raised (s : State) (k : Nat) (v : SchedEnt) : (setEnt s k v).raised = s.raised := rfl
@[simp] theorem setEnt_flowOk (s : State) (k : Nat) (v : SchedEnt) : (setEnt s k v).flowOk = s.flowOk := rfl
@[simp] theorem setEnt_tap (s : State) (k : Nat) (v : SchedEnt) : (setEnt s k v).tap = s.tap := rfl

@[simp] theorem modB_pending (s : State) (k : Nat) (g : Brick → Brick) : (modB s k g).pending = s.pending := rfl
@[simp] theorem modB_resp (s : State) (k : Nat) (g : Brick → Brick) : (modB s k g).resp = s.resp := rfl
@[simp] theorem modB_freeCtr (s : State) (k : Nat) (g : Brick → Brick) : (modB s k g).freeCtr = s.freeCtr := rfl
@[simp] theorem modB_toHost (s : State) (k : Nat) (g : Brick → Brick) : (modB s k g).toHost = s.toHost := rfl
@[simp] theorem modB_segs (s : State) (k : Nat) (g : Brick → Brick) : (modB s k g).segs = s.segs := rfl
@[simp] theorem modB_mapsReady (s : State) (k : Nat) (g : Brick → Brick) : (modB s k g).mapsReady = s.mapsReady := rfl
@[simp] theorem modB_gridSel (s : State) (k : Nat) (g : Brick → Brick) : (modB s k g).gridSel = s.gridSel := rfl
@[simp] theorem modB_grid (s : State) (k : Nat) (g : Brick → Brick) : (modB s k g).grid = s.grid := rfl
@[simp] theorem modB_ties (s : State) (k : Nat) (g : Brick → Brick) : (modB s k g).ties = s.ties := rfl
@[simp] theorem modB_edges (s : State) (k : Nat) (g : Brick → Brick) : (modB s k g).edges = s.edges := rfl
@[simp] theorem modB_boards (s : State) (k : Nat) (g : Brick → Brick) : (modB s k g).boards = s.boards := rfl
@[simp] theorem modB_fields (s : State) (k : Nat) (g : Brick → Brick) : (modB s k g).fields = s.fields := rfl
@[simp] theorem modB_meds (s : State) (k : Nat) (g : Brick → Brick) : (modB s k g).meds = s.meds := rfl
@[simp] theorem modB_rim (s : State) (k : Nat) (g : Brick → Brick) : (modB s k g).rim = s.rim := rfl
@[simp] theorem modB_heds (s : State) (k : Nat) (g : Brick → Brick) : (modB s k g).heds = s.heds := rfl
@[simp] theorem modB_wafer (s : State) (k : Nat) (g : Brick → Brick) : (modB s k g).wafer = s.wafer := rfl
@[simp] theorem modB_fns (s : State) (k : Nat) (g : Brick → Brick) : (modB s k g).fns = s.fns := rfl
@[simp] theorem modB_ends (s : State) (k : Nat) (g : Brick → Brick) : (modB s k g).ends = s.ends := rfl
@[simp] theorem modB_now (s : State) (k : Nat) (g : Brick → Brick) : (modB s k g).now = s.now := rfl
@[simp] theorem modB_time (s : State) (k : Nat) (g : Brick → Brick) : (modB s k g).time = s.time := rfl
@[simp] theorem modB_clk (s : State) (k : Nat) (g : Brick → Brick) : (modB s k g).clk = s.clk := rfl
@[simp] theorem modB_pwr (s : State) (k : Nat) (g : Brick → Brick) : (modB s k g).pwr = s.pwr := rfl
@[simp] theorem modB_boot (s : State) (k : Nat) (g : Brick → Brick) : (modB s k g).boot = s.boot := rfl
@[simp] theorem modB_vigil (s : State) (k : Nat) (g : Brick → Brick) : (modB s k g).vigil = s.vigil := rfl
@[simp] theorem modB_slate (s : State) (k : Nat) (g : Brick → Brick) : (modB s k g).slate = s.slate := rfl
@[simp] theorem modB_flt (s : State) (k : Nat) (g : Brick → Brick) : (modB s k g).flt = s.flt := rfl
@[simp] theorem modB_raised (s : State) (k : Nat) (g : Brick → Brick) : (modB s k g).raised = s.raised := rfl
@[simp] theorem modB_flowOk (s : State) (k : Nat) (g : Brick → Brick) : (modB s k g).flowOk = s.flowOk := rfl
@[simp] theorem modB_tap (s : State) (k : Nat) (g : Brick → Brick) : (modB s k g).tap = s.tap := rfl

@[simp] theorem modBd_pending (s : State) (b : Nat) (g : Board → Board) : (modBd s b g).pending = s.pending := rfl
@[simp] theorem modBd_resp (s : State) (b : Nat) (g : Board → Board) : (modBd s b g).resp = s.resp := rfl
@[simp] theorem modBd_freeCtr (s : State) (b : Nat) (g : Board → Board) : (modBd s b g).freeCtr = s.freeCtr := rfl
@[simp] theorem modBd_toHost (s : State) (b : Nat) (g : Board → Board) : (modBd s b g).toHost = s.toHost := rfl
@[simp] theorem modBd_bricks (s : State) (b : Nat) (g : Board → Board) : (modBd s b g).bricks = s.bricks := rfl
@[simp] theorem modBd_segs (s : State) (b : Nat) (g : Board → Board) : (modBd s b g).segs = s.segs := rfl
@[simp] theorem modBd_mapsReady (s : State) (b : Nat) (g : Board → Board) : (modBd s b g).mapsReady = s.mapsReady := rfl
@[simp] theorem modBd_gridSel (s : State) (b : Nat) (g : Board → Board) : (modBd s b g).gridSel = s.gridSel := rfl
@[simp] theorem modBd_grid (s : State) (b : Nat) (g : Board → Board) : (modBd s b g).grid = s.grid := rfl
@[simp] theorem modBd_ties (s : State) (b : Nat) (g : Board → Board) : (modBd s b g).ties = s.ties := rfl
@[simp] theorem modBd_edges (s : State) (b : Nat) (g : Board → Board) : (modBd s b g).edges = s.edges := rfl
@[simp] theorem modBd_fields (s : State) (b : Nat) (g : Board → Board) : (modBd s b g).fields = s.fields := rfl
@[simp] theorem modBd_meds (s : State) (b : Nat) (g : Board → Board) : (modBd s b g).meds = s.meds := rfl
@[simp] theorem modBd_rim (s : State) (b : Nat) (g : Board → Board) : (modBd s b g).rim = s.rim := rfl
@[simp] theorem modBd_heds (s : State) (b : Nat) (g : Board → Board) : (modBd s b g).heds = s.heds := rfl
@[simp] theorem modBd_wafer (s : State) (b : Nat) (g : Board → Board) : (modBd s b g).wafer = s.wafer := rfl
@[simp] theorem modBd_fns (s : State) (b : Nat) (g : Board → Board) : (modBd s b g).fns = s.fns := rfl
@[simp] theorem modBd_ends (s : State) (b : Nat) (g : Board → Board) : (modBd s b g).ends = s.ends := rfl
@[simp] theorem modBd_now (s : State) (b : Nat) (g : Board → Board) : (modBd s b g).now = s.now := rfl
@[simp] theorem modBd_time (s : State) (b : Nat) (g : Board → Board) : (modBd s b g).time = s.time := rfl
@[simp] theorem modBd_clk (s : State) (b : Nat) (g : Board → Board) : (modBd s b g).clk = s.clk := rfl
@[simp] theorem modBd_pwr (s : State) (b : Nat) (g : Board → Board) : (modBd s b g).pwr = s.pwr := rfl
@[simp] theorem modBd_boot (s : State) (b : Nat) (g : Board → Board) : (modBd s b g).boot = s.boot := rfl
@[simp] theorem modBd_vigil (s : State) (b : Nat) (g : Board → Board) : (modBd s b g).vigil = s.vigil := rfl
@[simp] theorem modBd_slate (s : State) (b : Nat) (g : Board → Board) : (modBd s b g).slate = s.slate := rfl
@[simp] theorem modBd_flt (s : State) (b : Nat) (g : Board → Board) : (modBd s b g).flt = s.flt := rfl
@[simp] theorem modBd_raised (s : State) (b : Nat) (g : Board → Board) : (modBd s b g).raised = s.raised := rfl
@[simp] theorem modBd_flowOk (s : State) (b : Nat) (g : Board → Board) : (modBd s b g).flowOk = s.flowOk := rfl
@[simp] theorem modBd_tap (s : State) (b : Nat) (g : Board → Board) : (modBd s b g).tap = s.tap := rfl

@[simp] theorem modMed_pending (s : State) (m : Nat) (g : Med → Med) : (modMed s m g).pending = s.pending := rfl
@[simp] theorem modMed_resp (s : State) (m : Nat) (g : Med → Med) : (modMed s m g).resp = s.resp := rfl
@[simp] theorem modMed_freeCtr (s : State) (m : Nat) (g : Med → Med) : (modMed s m g).freeCtr = s.freeCtr := rfl
@[simp] theorem modMed_toHost (s : State) (m : Nat) (g : Med → Med) : (modMed s m g).toHost = s.toHost := rfl
@[simp] theorem modMed_bricks (s : State) (m : Nat) (g : Med → Med) : (modMed s m g).bricks = s.bricks := rfl
@[simp] theorem modMed_segs (s : State) (m : Nat) (g : Med → Med) : (modMed s m g).segs = s.segs := rfl
@[simp] theorem modMed_mapsReady (s : State) (m : Nat) (g : Med → Med) : (modMed s m g).mapsReady = s.mapsReady := rfl
@[simp] theorem modMed_gridSel (s : State) (m : Nat) (g : Med → Med) : (modMed s m g).gridSel = s.gridSel := rfl
@[simp] theorem modMed_grid (s : State) (m : Nat) (g : Med → Med) : (modMed s m g).grid = s.grid := rfl
@[simp] theorem modMed_ties (s : State) (m : Nat) (g : Med → Med) : (modMed s m g).ties = s.ties := rfl
@[simp] theorem modMed_edges (s : State) (m : Nat) (g : Med → Med) : (modMed s m g).edges = s.edges := rfl
@[simp] theorem modMed_boards (s : State) (m : Nat) (g : Med → Med) : (modMed s m g).boards = s.boards := rfl
@[simp] theorem modMed_fields (s : State) (m : Nat) (g : Med → Med) : (modMed s m g).fields = s.fields := rfl
@[simp] theorem modMed_rim (s : State) (m : Nat) (g : Med → Med) : (modMed s m g).rim = s.rim := rfl
@[simp] theorem modMed_heds (s : State) (m : Nat) (g : Med → Med) : (modMed s m g).heds = s.heds := rfl
@[simp] theorem modMed_wafer (s : State) (m : Nat) (g : Med → Med) : (modMed s m g).wafer = s.wafer := rfl
@[simp] theorem modMed_fns (s : State) (m : Nat) (g : Med → Med) : (modMed s m g).fns = s.fns := rfl
@[simp] theorem modMed_ends (s : State) (m : Nat) (g : Med → Med) : (modMed s m g).ends = s.ends := rfl
@[simp] theorem modMed_now (s : State) (m : Nat) (g : Med → Med) : (modMed s m g).now = s.now := rfl
@[simp] theorem modMed_time (s : State) (m : Nat) (g : Med → Med) : (modMed s m g).time = s.time := rfl
@[simp] theorem modMed_clk (s : State) (m : Nat) (g : Med → Med) : (modMed s m g).clk = s.clk := rfl
@[simp] theorem modMed_pwr (s : State) (m : Nat) (g : Med → Med) : (modMed s m g).pwr = s.pwr := rfl
@[simp] theorem modMed_boot (s : State) (m : Nat) (g : Med → Med) : (modMed s m g).boot = s.boot := rfl
@[simp] theorem modMed_vigil (s : State) (m : Nat) (g : Med → Med) : (modMed s m g).vigil = s.vigil := rfl
@[simp] theorem modMed_slate (s : State) (m : Nat) (g : Med → Med) : (modMed s m g).slate = s.slate := rfl
@[simp] theorem modMed_flt (s : State) (m : Nat) (g : Med → Med) : (modMed s m g).flt = s.flt := rfl
@[simp] theorem modMed_raised (s : State) (m : Nat) (g : Med → Med) : (modMed s m g).raised = s.raised := rfl
@[simp] theorem modMed_flowOk (s : State) (m : Nat) (g : Med → Med) : (modMed s m g).flowOk = s.flowOk := rfl
@[simp] theorem modMed_tap (s : State) (m : Nat) (g : Med → Med) : (modMed s m g).tap = s.tap := rfl

@[simp] theorem modHed_pending (s : State) (h : Nat) (g : Hed → Hed) : (modHed s h g).pending = s.pending := rfl
@[simp] theorem modHed_resp (s : State) (h : Nat) (g : Hed → Hed) : (modHed s h g).resp = s.resp := rfl
@[simp] theorem modHed_freeCtr (s : State) (h : Nat) (g : Hed → Hed) : (modHed s h g).freeCtr = s.freeCtr := rfl
@[simp] theorem modHed_toHost (s : State) (h : Nat) (g : Hed → Hed) : (modHed s h g).toHost = s.toHost := rfl
@[simp] theorem modHed_bricks (s : State) (h : Nat) (g : Hed → Hed) : (modHed s h g).bricks = s.bricks := rfl
@[simp] theorem modHed_segs (s : State) (h : Nat) (g : Hed → Hed) : (modHed s h g).segs = s.segs := rfl
@[simp] theorem modHed_mapsReady (s : State) (h : Nat) (g : Hed → Hed) : (modHed s h g).mapsReady = s.mapsReady := rfl
@[simp] theorem modHed_gridSel (s : State) (h : Nat) (g : Hed → Hed) : (modHed s h g).gridSel = s.gridSel := rfl
@[simp] theorem modHed_grid (s : State) (h : Nat) (g : Hed → Hed) : (modHed s h g).grid = s.grid := rfl
@[simp] theorem modHed_ties (s : State) (h : Nat) (g : Hed → Hed) : (modHed s h g).ties = s.ties := rfl
@[simp] theorem modHed_edges (s : State) (h : Nat) (g : Hed → Hed) : (modHed s h g).edges = s.edges := rfl
@[simp] theorem modHed_boards (s : State) (h : Nat) (g : Hed → Hed) : (modHed s h g).boards = s.boards := rfl
@[simp] theorem modHed_fields (s : State) (h : Nat) (g : Hed → Hed) : (modHed s h g).fields = s.fields := rfl
@[simp] theorem modHed_meds (s : State) (h : Nat) (g : Hed → Hed) : (modHed s h g).meds = s.meds := rfl
@[simp] theorem modHed_rim (s : State) (h : Nat) (g : Hed → Hed) : (modHed s h g).rim = s.rim := rfl
@[simp] theorem modHed_wafer (s : State) (h : Nat) (g : Hed → Hed) : (modHed s h g).wafer = s.wafer := rfl
@[simp] theorem modHed_fns (s : State) (h : Nat) (g : Hed → Hed) : (modHed s h g).fns = s.fns := rfl
@[simp] theorem modHed_ends (s : State) (h : Nat) (g : Hed → Hed) : (modHed s h g).ends = s.ends := rfl
@[simp] theorem modHed_now (s : State) (h : Nat) (g : Hed → Hed) : (modHed s h g).now = s.now := rfl
@[simp] theorem modHed_time (s : State) (h : Nat) (g : Hed → Hed) : (modHed s h g).time = s.time := rfl
@[simp] theorem modHed_clk (s : State) (h : Nat) (g : Hed → Hed) : (modHed s h g).clk = s.clk := rfl
@[simp] theorem modHed_pwr (s : State) (h : Nat) (g : Hed → Hed) : (modHed s h g).pwr = s.pwr := rfl
@[simp] theorem modHed_boot (s : State) (h : Nat) (g : Hed → Hed) : (modHed s h g).boot = s.boot := rfl
@[simp] theorem modHed_vigil (s : State) (h : Nat) (g : Hed → Hed) : (modHed s h g).vigil = s.vigil := rfl
@[simp] theorem modHed_slate (s : State) (h : Nat) (g : Hed → Hed) : (modHed s h g).slate = s.slate := rfl
@[simp] theorem modHed_flt (s : State) (h : Nat) (g : Hed → Hed) : (modHed s h g).flt = s.flt := rfl
@[simp] theorem modHed_raised (s : State) (h : Nat) (g : Hed → Hed) : (modHed s h g).raised = s.raised := rfl
@[simp] theorem modHed_flowOk (s : State) (h : Nat) (g : Hed → Hed) : (modHed s h g).flowOk = s.flowOk := rfl
@[simp] theorem modHed_tap (s : State) (h : Nat) (g : Hed → Hed) : (modHed s h g).tap = s.tap := rfl

@[simp] theorem modFn_pending (s : State) (i : Nat) (g : FnSt → FnSt) : (modFn s i g).pending = s.pending := rfl
@[simp] theorem modFn_resp (s : State) (i : Nat) (g : FnSt → FnSt) : (modFn s i g).resp = s.resp := rfl
@[simp] theorem modFn_freeCtr (s : State) (i : Nat) (g : FnSt → FnSt) : (modFn s i g).freeCtr = s.freeCtr := rfl
@[simp] theorem modFn_toHost (s : State) (i : Nat) (g : FnSt → FnSt) : (modFn s i g).toHost = s.toHost := rfl
@[simp] theorem modFn_bricks (s : State) (i : Nat) (g : FnSt → FnSt) : (modFn s i g).bricks = s.bricks := rfl
@[simp] theorem modFn_segs (s : State) (i : Nat) (g : FnSt → FnSt) : (modFn s i g).segs = s.segs := rfl
@[simp] theorem modFn_mapsReady (s : State) (i : Nat) (g : FnSt → FnSt) : (modFn s i g).mapsReady = s.mapsReady := rfl
@[simp] theorem modFn_gridSel (s : State) (i : Nat) (g : FnSt → FnSt) : (modFn s i g).gridSel = s.gridSel := rfl
@[simp] theorem modFn_grid (s : State) (i : Nat) (g : FnSt → FnSt) : (modFn s i g).grid = s.grid := rfl
@[simp] theorem modFn_ties (s : State) (i : Nat) (g : FnSt → FnSt) : (modFn s i g).ties = s.ties := rfl
@[simp] theorem modFn_edges (s : State) (i : Nat) (g : FnSt → FnSt) : (modFn s i g).edges = s.edges := rfl
@[simp] theorem modFn_boards (s : State) (i : Nat) (g : FnSt → FnSt) : (modFn s i g).boards = s.boards := rfl
@[simp] theorem modFn_fields (s : State) (i : Nat) (g : FnSt → FnSt) : (modFn s i g).fields = s.fields := rfl
@[simp] theorem modFn_meds (s : State) (i : Nat) (g : FnSt → FnSt) : (modFn s i g).meds = s.meds := rfl
@[simp] theorem modFn_rim (s : State) (i : Nat) (g : FnSt → FnSt) : (modFn s i g).rim = s.rim := rfl
@[simp] theorem modFn_heds (s : State) (i : Nat) (g : FnSt → FnSt) : (modFn s i g).heds = s.heds := rfl
@[simp] theorem modFn_wafer (s : State) (i : Nat) (g : FnSt → FnSt) : (modFn s i g).wafer = s.wafer := rfl
@[simp] theorem modFn_ends (s : State) (i : Nat) (g : FnSt → FnSt) : (modFn s i g).ends = s.ends := rfl
@[simp] theorem modFn_now (s : State) (i : Nat) (g : FnSt → FnSt) : (modFn s i g).now = s.now := rfl
@[simp] theorem modFn_time (s : State) (i : Nat) (g : FnSt → FnSt) : (modFn s i g).time = s.time := rfl
@[simp] theorem modFn_clk (s : State) (i : Nat) (g : FnSt → FnSt) : (modFn s i g).clk = s.clk := rfl
@[simp] theorem modFn_pwr (s : State) (i : Nat) (g : FnSt → FnSt) : (modFn s i g).pwr = s.pwr := rfl
@[simp] theorem modFn_boot (s : State) (i : Nat) (g : FnSt → FnSt) : (modFn s i g).boot = s.boot := rfl
@[simp] theorem modFn_vigil (s : State) (i : Nat) (g : FnSt → FnSt) : (modFn s i g).vigil = s.vigil := rfl
@[simp] theorem modFn_slate (s : State) (i : Nat) (g : FnSt → FnSt) : (modFn s i g).slate = s.slate := rfl
@[simp] theorem modFn_flt (s : State) (i : Nat) (g : FnSt → FnSt) : (modFn s i g).flt = s.flt := rfl
@[simp] theorem modFn_raised (s : State) (i : Nat) (g : FnSt → FnSt) : (modFn s i g).raised = s.raised := rfl
@[simp] theorem modFn_flowOk (s : State) (i : Nat) (g : FnSt → FnSt) : (modFn s i g).flowOk = s.flowOk := rfl
@[simp] theorem modFn_tap (s : State) (i : Nat) (g : FnSt → FnSt) : (modFn s i g).tap = s.tap := rfl

@[simp] theorem setCh_pending (s : State) (h c : Nat) (v : Chan) : (setCh s h c v).pending = s.pending := rfl
@[simp] theorem setCh_resp (s : State) (h c : Nat) (v : Chan) : (setCh s h c v).resp = s.resp := rfl
@[simp] theorem setCh_freeCtr (s : State) (h c : Nat) (v : Chan) : (setCh s h c v).freeCtr = s.freeCtr := rfl
@[simp] theorem setCh_toHost (s : State) (h c : Nat) (v : Chan) : (setCh s h c v).toHost = s.toHost := rfl
@[simp] theorem setCh_bricks (s : State) (h c : Nat) (v : Chan) : (setCh s h c v).bricks = s.bricks := rfl
@[simp] theorem setCh_segs (s : State) (h c : Nat) (v : Chan) : (setCh s h c v).segs = s.segs := rfl
@[simp] theorem setCh_mapsReady (s : State) (h c : Nat) (v : Chan) : (setCh s h c v).mapsReady = s.mapsReady := rfl
@[simp] theorem setCh_gridSel (s : State) (h c : Nat) (v : Chan) : (setCh s h c v).gridSel = s.gridSel := rfl
@[simp] theorem setCh_grid (s : State) (h c : Nat) (v : Chan) : (setCh s h c v).grid = s.grid := rfl
@[simp] theorem setCh_ties (s : State) (h c : Nat) (v : Chan) : (setCh s h c v).ties = s.ties := rfl
@[simp] theorem setCh_edges (s : State) (h c : Nat) (v : Chan) : (setCh s h c v).edges = s.edges := rfl
@[simp] theorem setCh_boards (s : State) (h c : Nat) (v : Chan) : (setCh s h c v).boards = s.boards := rfl
@[simp] theorem setCh_fields (s : State) (h c : Nat) (v : Chan) : (setCh s h c v).fields = s.fields := rfl
@[simp] theorem setCh_meds (s : State) (h c : Nat) (v : Chan) : (setCh s h c v).meds = s.meds := rfl
@[simp] theorem setCh_rim (s : State) (h c : Nat) (v : Chan) : (setCh s h c v).rim = s.rim := rfl
@[simp] theorem setCh_wafer (s : State) (h c : Nat) (v : Chan) : (setCh s h c v).wafer = s.wafer := rfl
@[simp] theorem setCh_fns (s : State) (h c : Nat) (v : Chan) : (setCh s h c v).fns = s.fns := rfl
@[simp] theorem setCh_ends (s : State) (h c : Nat) (v : Chan) : (setCh s h c v).ends = s.ends := rfl
@[simp] theorem setCh_now (s : State) (h c : Nat) (v : Chan) : (setCh s h c v).now = s.now := rfl
@[simp] theorem setCh_time (s : State) (h c : Nat) (v : Chan) : (setCh s h c v).time = s.time := rfl
@[simp] theorem setCh_clk (s : State) (h c : Nat) (v : Chan) : (setCh s h c v).clk = s.clk := rfl
@[simp] theorem setCh_pwr (s : State) (h c : Nat) (v : Chan) : (setCh s h c v).pwr = s.pwr := rfl
@[simp] theorem setCh_boot (s : State) (h c : Nat) (v : Chan) : (setCh s h c v).boot = s.boot := rfl
@[simp] theorem setCh_vigil (s : State) (h c : Nat) (v : Chan) : (setCh s h c v).vigil = s.vigil := rfl
@[simp] theorem setCh_slate (s : State) (h c : Nat) (v : Chan) : (setCh s h c v).slate = s.slate := rfl
@[simp] theorem setCh_flt (s : State) (h c : Nat) (v : Chan) : (setCh s h c v).flt = s.flt := rfl
@[simp] theorem setCh_raised (s : State) (h c : Nat) (v : Chan) : (setCh s h c v).raised = s.raised := rfl
@[simp] theorem setCh_flowOk (s : State) (h c : Nat) (v : Chan) : (setCh s h c v).flowOk = s.flowOk := rfl
@[simp] theorem setCh_tap (s : State) (h c : Nat) (v : Chan) : (setCh s h c v).tap = s.tap := rfl

@[simp] theorem modCh_pending (s : State) (h c : Nat) (g : Chan → Chan) : (modCh s h c g).pending = s.pending := rfl
@[simp] theorem modCh_resp (s : State) (h c : Nat) (g : Chan → Chan) : (modCh s h c g).resp = s.resp := rfl
@[simp] theorem modCh_freeCtr (s : State) (h c : Nat) (g : Chan → Chan) : (modCh s h c g).freeCtr = s.freeCtr := rfl
@[simp] theorem modCh_toHost (s : State) (h c : Nat) (g : Chan → Chan) : (modCh s h c g).toHost = s.toHost := rfl
@[simp] theorem modCh_bricks (s : State) (h c : Nat) (g : Chan → Chan) : (modCh s h c g).bricks = s.bricks := rfl
@[simp] theorem modCh_segs (s : State) (h c : Nat) (g : Chan → Chan) : (modCh s h c g).segs = s.segs := rfl
@[simp] theorem modCh_mapsReady (s : State) (h c : Nat) (g : Chan → Chan) : (modCh s h c g).mapsReady = s.mapsReady := rfl
@[simp] theorem modCh_gridSel (s : State) (h c : Nat) (g : Chan → Chan) : (modCh s h c g).gridSel = s.gridSel := rfl
@[simp] theorem modCh_grid (s : State) (h c : Nat) (g : Chan → Chan) : (modCh s h c g).grid = s.grid := rfl
@[simp] theorem modCh_ties (s : State) (h c : Nat) (g : Chan → Chan) : (modCh s h c g).ties = s.ties := rfl
@[simp] theorem modCh_edges (s : State) (h c : Nat) (g : Chan → Chan) : (modCh s h c g).edges = s.edges := rfl
@[simp] theorem modCh_boards (s : State) (h c : Nat) (g : Chan → Chan) : (modCh s h c g).boards = s.boards := rfl
@[simp] theorem modCh_fields (s : State) (h c : Nat) (g : Chan → Chan) : (modCh s h c g).fields = s.fields := rfl
@[simp] theorem modCh_meds (s : State) (h c : Nat) (g : Chan → Chan) : (modCh s h c g).meds = s.meds := rfl
@[simp] theorem modCh_rim (s : State) (h c : Nat) (g : Chan → Chan) : (modCh s h c g).rim = s.rim := rfl
@[simp] theorem modCh_wafer (s : State) (h c : Nat) (g : Chan → Chan) : (modCh s h c g).wafer = s.wafer := rfl
@[simp] theorem modCh_fns (s : State) (h c : Nat) (g : Chan → Chan) : (modCh s h c g).fns = s.fns := rfl
@[simp] theorem modCh_ends (s : State) (h c : Nat) (g : Chan → Chan) : (modCh s h c g).ends = s.ends := rfl
@[simp] theorem modCh_now (s : State) (h c : Nat) (g : Chan → Chan) : (modCh s h c g).now = s.now := rfl
@[simp] theorem modCh_time (s : State) (h c : Nat) (g : Chan → Chan) : (modCh s h c g).time = s.time := rfl
@[simp] theorem modCh_clk (s : State) (h c : Nat) (g : Chan → Chan) : (modCh s h c g).clk = s.clk := rfl
@[simp] theorem modCh_pwr (s : State) (h c : Nat) (g : Chan → Chan) : (modCh s h c g).pwr = s.pwr := rfl
@[simp] theorem modCh_boot (s : State) (h c : Nat) (g : Chan → Chan) : (modCh s h c g).boot = s.boot := rfl
@[simp] theorem modCh_vigil (s : State) (h c : Nat) (g : Chan → Chan) : (modCh s h c g).vigil = s.vigil := rfl
@[simp] theorem modCh_slate (s : State) (h c : Nat) (g : Chan → Chan) : (modCh s h c g).slate = s.slate := rfl
@[simp] theorem modCh_flt (s : State) (h c : Nat) (g : Chan → Chan) : (modCh s h c g).flt = s.flt := rfl
@[simp] theorem modCh_raised (s : State) (h c : Nat) (g : Chan → Chan) : (modCh s h c g).raised = s.raised := rfl
@[simp] theorem modCh_flowOk (s : State) (h c : Nat) (g : Chan → Chan) : (modCh s h c g).flowOk = s.flowOk := rfl
@[simp] theorem modCh_tap (s : State) (h c : Nat) (g : Chan → Chan) : (modCh s h c g).tap = s.tap := rfl

@[simp] theorem setSlot_pending (s : State) (h n : Nat) (v : Slot) : (setSlot s h n v).pending = s.pending := rfl
@[simp] theorem setSlot_resp (s : State) (h n : Nat) (v : Slot) : (setSlot s h n v).resp = s.resp := rfl
@[simp] theorem setSlot_freeCtr (s : State) (h n : Nat) (v : Slot) : (setSlot s h n v).freeCtr = s.freeCtr := rfl
@[simp] theorem setSlot_toHost (s : State) (h n : Nat) (v : Slot) : (setSlot s h n v).toHost = s.toHost := rfl
@[simp] theorem setSlot_bricks (s : State) (h n : Nat) (v : Slot) : (setSlot s h n v).bricks = s.bricks := rfl
@[simp] theorem setSlot_segs (s : State) (h n : Nat) (v : Slot) : (setSlot s h n v).segs = s.segs := rfl
@[simp] theorem setSlot_mapsReady (s : State) (h n : Nat) (v : Slot) : (setSlot s h n v).mapsReady = s.mapsReady := rfl
@[simp] theorem setSlot_gridSel (s : State) (h n : Nat) (v : Slot) : (setSlot s h n v).gridSel = s.gridSel := rfl
@[simp] theorem setSlot_grid (s : State) (h n : Nat) (v : Slot) : (setSlot s h n v).grid = s.grid := rfl
@[simp] theorem setSlot_ties (s : State) (h n : Nat) (v : Slot) : (setSlot s h n v).ties = s.ties := rfl
@[simp] theorem setSlot_edges (s : State) (h n : Nat) (v : Slot) : (setSlot s h n v).edges = s.edges := rfl
@[simp] theorem setSlot_boards (s : State) (h n : Nat) (v : Slot) : (setSlot s h n v).boards = s.boards := rfl
@[simp] theorem setSlot_fields (s : State) (h n : Nat) (v : Slot) : (setSlot s h n v).fields = s.fields := rfl
@[simp] theorem setSlot_meds (s : State) (h n : Nat) (v : Slot) : (setSlot s h n v).meds = s.meds := rfl
@[simp] theorem setSlot_rim (s : State) (h n : Nat) (v : Slot) : (setSlot s h n v).rim = s.rim := rfl
@[simp] theorem setSlot_wafer (s : State) (h n : Nat) (v : Slot) : (setSlot s h n v).wafer = s.wafer := rfl
@[simp] theorem setSlot_fns (s : State) (h n : Nat) (v : Slot) : (setSlot s h n v).fns = s.fns := rfl
@[simp] theorem setSlot_ends (s : State) (h n : Nat) (v : Slot) : (setSlot s h n v).ends = s.ends := rfl
@[simp] theorem setSlot_now (s : State) (h n : Nat) (v : Slot) : (setSlot s h n v).now = s.now := rfl
@[simp] theorem setSlot_time (s : State) (h n : Nat) (v : Slot) : (setSlot s h n v).time = s.time := rfl
@[simp] theorem setSlot_clk (s : State) (h n : Nat) (v : Slot) : (setSlot s h n v).clk = s.clk := rfl
@[simp] theorem setSlot_pwr (s : State) (h n : Nat) (v : Slot) : (setSlot s h n v).pwr = s.pwr := rfl
@[simp] theorem setSlot_boot (s : State) (h n : Nat) (v : Slot) : (setSlot s h n v).boot = s.boot := rfl
@[simp] theorem setSlot_vigil (s : State) (h n : Nat) (v : Slot) : (setSlot s h n v).vigil = s.vigil := rfl
@[simp] theorem setSlot_slate (s : State) (h n : Nat) (v : Slot) : (setSlot s h n v).slate = s.slate := rfl
@[simp] theorem setSlot_flt (s : State) (h n : Nat) (v : Slot) : (setSlot s h n v).flt = s.flt := rfl
@[simp] theorem setSlot_raised (s : State) (h n : Nat) (v : Slot) : (setSlot s h n v).raised = s.raised := rfl
@[simp] theorem setSlot_flowOk (s : State) (h n : Nat) (v : Slot) : (setSlot s h n v).flowOk = s.flowOk := rfl
@[simp] theorem setSlot_tap (s : State) (h n : Nat) (v : Slot) : (setSlot s h n v).tap = s.tap := rfl

@[simp] theorem setPortP_pending (s : State) (h n : Nat) (v : Port) : (setPortP s h n v).pending = s.pending := rfl
@[simp] theorem setPortP_resp (s : State) (h n : Nat) (v : Port) : (setPortP s h n v).resp = s.resp := rfl
@[simp] theorem setPortP_freeCtr (s : State) (h n : Nat) (v : Port) : (setPortP s h n v).freeCtr = s.freeCtr := rfl
@[simp] theorem setPortP_toHost (s : State) (h n : Nat) (v : Port) : (setPortP s h n v).toHost = s.toHost := rfl
@[simp] theorem setPortP_bricks (s : State) (h n : Nat) (v : Port) : (setPortP s h n v).bricks = s.bricks := rfl
@[simp] theorem setPortP_segs (s : State) (h n : Nat) (v : Port) : (setPortP s h n v).segs = s.segs := rfl
@[simp] theorem setPortP_mapsReady (s : State) (h n : Nat) (v : Port) : (setPortP s h n v).mapsReady = s.mapsReady := rfl
@[simp] theorem setPortP_gridSel (s : State) (h n : Nat) (v : Port) : (setPortP s h n v).gridSel = s.gridSel := rfl
@[simp] theorem setPortP_grid (s : State) (h n : Nat) (v : Port) : (setPortP s h n v).grid = s.grid := rfl
@[simp] theorem setPortP_ties (s : State) (h n : Nat) (v : Port) : (setPortP s h n v).ties = s.ties := rfl
@[simp] theorem setPortP_edges (s : State) (h n : Nat) (v : Port) : (setPortP s h n v).edges = s.edges := rfl
@[simp] theorem setPortP_boards (s : State) (h n : Nat) (v : Port) : (setPortP s h n v).boards = s.boards := rfl
@[simp] theorem setPortP_fields (s : State) (h n : Nat) (v : Port) : (setPortP s h n v).fields = s.fields := rfl
@[simp] theorem setPortP_meds (s : State) (h n : Nat) (v : Port) : (setPortP s h n v).meds = s.meds := rfl
@[simp] theorem setPortP_rim (s : State) (h n : Nat) (v : Port) : (setPortP s h n v).rim = s.rim := rfl
@[simp] theorem setPortP_wafer (s : State) (h n : Nat) (v : Port) : (setPortP s h n v).wafer = s.wafer := rfl
@[simp] theorem setPortP_fns (s : State) (h n : Nat) (v : Port) : (setPortP s h n v).fns = s.fns := rfl
@[simp] theorem setPortP_ends (s : State) (h n : Nat) (v : Port) : (setPortP s h n v).ends = s.ends := rfl
@[simp] theorem setPortP_now (s : State) (h n : Nat) (v : Port) : (setPortP s h n v).now = s.now := rfl
@[simp] theorem setPortP_time (s : State) (h n : Nat) (v : Port) : (setPortP s h n v).time = s.time := rfl
@[simp] theorem setPortP_clk (s : State) (h n : Nat) (v : Port) : (setPortP s h n v).clk = s.clk := rfl
@[simp] theorem setPortP_pwr (s : State) (h n : Nat) (v : Port) : (setPortP s h n v).pwr = s.pwr := rfl
@[simp] theorem setPortP_boot (s : State) (h n : Nat) (v : Port) : (setPortP s h n v).boot = s.boot := rfl
@[simp] theorem setPortP_vigil (s : State) (h n : Nat) (v : Port) : (setPortP s h n v).vigil = s.vigil := rfl
@[simp] theorem setPortP_slate (s : State) (h n : Nat) (v : Port) : (setPortP s h n v).slate = s.slate := rfl
@[simp] theorem setPortP_flt (s : State) (h n : Nat) (v : Port) : (setPortP s h n v).flt = s.flt := rfl
@[simp] theorem setPortP_raised (s : State) (h n : Nat) (v : Port) : (setPortP s h n v).raised = s.raised := rfl
@[simp] theorem setPortP_flowOk (s : State) (h n : Nat) (v : Port) : (setPortP s h n v).flowOk = s.flowOk := rfl
@[simp] theorem setPortP_tap (s : State) (h n : Nat) (v : Port) : (setPortP s h n v).tap = s.tap := rfl

@[simp] theorem raiseAt_pending (s : State) (c : Nat) (b : Option Nat) (d : Word) : (raiseAt s c b d).pending = s.pending := rfl
@[simp] theorem raiseAt_resp (s : State) (c : Nat) (b : Option Nat) (d : Word) : (raiseAt s c b d).resp = s.resp := rfl
@[simp] theorem raiseAt_freeCtr (s : State) (c : Nat) (b : Option Nat) (d : Word) : (raiseAt s c b d).freeCtr = s.freeCtr := rfl
@[simp] theorem raiseAt_toHost (s : State) (c : Nat) (b : Option Nat) (d : Word) : (raiseAt s c b d).toHost = s.toHost := rfl
@[simp] theorem raiseAt_bricks (s : State) (c : Nat) (b : Option Nat) (d : Word) : (raiseAt s c b d).bricks = s.bricks := rfl
@[simp] theorem raiseAt_segs (s : State) (c : Nat) (b : Option Nat) (d : Word) : (raiseAt s c b d).segs = s.segs := rfl
@[simp] theorem raiseAt_mapsReady (s : State) (c : Nat) (b : Option Nat) (d : Word) : (raiseAt s c b d).mapsReady = s.mapsReady := rfl
@[simp] theorem raiseAt_gridSel (s : State) (c : Nat) (b : Option Nat) (d : Word) : (raiseAt s c b d).gridSel = s.gridSel := rfl
@[simp] theorem raiseAt_grid (s : State) (c : Nat) (b : Option Nat) (d : Word) : (raiseAt s c b d).grid = s.grid := rfl
@[simp] theorem raiseAt_ties (s : State) (c : Nat) (b : Option Nat) (d : Word) : (raiseAt s c b d).ties = s.ties := rfl
@[simp] theorem raiseAt_edges (s : State) (c : Nat) (b : Option Nat) (d : Word) : (raiseAt s c b d).edges = s.edges := rfl
@[simp] theorem raiseAt_boards (s : State) (c : Nat) (b : Option Nat) (d : Word) : (raiseAt s c b d).boards = s.boards := rfl
@[simp] theorem raiseAt_fields (s : State) (c : Nat) (b : Option Nat) (d : Word) : (raiseAt s c b d).fields = s.fields := rfl
@[simp] theorem raiseAt_meds (s : State) (c : Nat) (b : Option Nat) (d : Word) : (raiseAt s c b d).meds = s.meds := rfl
@[simp] theorem raiseAt_rim (s : State) (c : Nat) (b : Option Nat) (d : Word) : (raiseAt s c b d).rim = s.rim := rfl
@[simp] theorem raiseAt_heds (s : State) (c : Nat) (b : Option Nat) (d : Word) : (raiseAt s c b d).heds = s.heds := rfl
@[simp] theorem raiseAt_wafer (s : State) (c : Nat) (b : Option Nat) (d : Word) : (raiseAt s c b d).wafer = s.wafer := rfl
@[simp] theorem raiseAt_fns (s : State) (c : Nat) (b : Option Nat) (d : Word) : (raiseAt s c b d).fns = s.fns := rfl
@[simp] theorem raiseAt_ends (s : State) (c : Nat) (b : Option Nat) (d : Word) : (raiseAt s c b d).ends = s.ends := rfl
@[simp] theorem raiseAt_now (s : State) (c : Nat) (b : Option Nat) (d : Word) : (raiseAt s c b d).now = s.now := rfl
@[simp] theorem raiseAt_time (s : State) (c : Nat) (b : Option Nat) (d : Word) : (raiseAt s c b d).time = s.time := rfl
@[simp] theorem raiseAt_clk (s : State) (c : Nat) (b : Option Nat) (d : Word) : (raiseAt s c b d).clk = s.clk := rfl
@[simp] theorem raiseAt_pwr (s : State) (c : Nat) (b : Option Nat) (d : Word) : (raiseAt s c b d).pwr = s.pwr := rfl
@[simp] theorem raiseAt_boot (s : State) (c : Nat) (b : Option Nat) (d : Word) : (raiseAt s c b d).boot = s.boot := rfl
@[simp] theorem raiseAt_vigil (s : State) (c : Nat) (b : Option Nat) (d : Word) : (raiseAt s c b d).vigil = s.vigil := rfl
@[simp] theorem raiseAt_slate (s : State) (c : Nat) (b : Option Nat) (d : Word) : (raiseAt s c b d).slate = s.slate := rfl
@[simp] theorem raiseAt_flt (s : State) (c : Nat) (b : Option Nat) (d : Word) : (raiseAt s c b d).flt = s.flt := rfl
@[simp] theorem raiseAt_flowOk (s : State) (c : Nat) (b : Option Nat) (d : Word) : (raiseAt s c b d).flowOk = s.flowOk := rfl
@[simp] theorem raiseAt_tap (s : State) (c : Nat) (b : Option Nat) (d : Word) : (raiseAt s c b d).tap = s.tap := rfl

@[simp] theorem violate_pending (s : State) (b : Option Nat) : (violate s b).pending = s.pending := rfl
@[simp] theorem violate_resp (s : State) (b : Option Nat) : (violate s b).resp = s.resp := rfl
@[simp] theorem violate_freeCtr (s : State) (b : Option Nat) : (violate s b).freeCtr = s.freeCtr := rfl
@[simp] theorem violate_toHost (s : State) (b : Option Nat) : (violate s b).toHost = s.toHost := rfl
@[simp] theorem violate_bricks (s : State) (b : Option Nat) : (violate s b).bricks = s.bricks := rfl
@[simp] theorem violate_segs (s : State) (b : Option Nat) : (violate s b).segs = s.segs := rfl
@[simp] theorem violate_mapsReady (s : State) (b : Option Nat) : (violate s b).mapsReady = s.mapsReady := rfl
@[simp] theorem violate_gridSel (s : State) (b : Option Nat) : (violate s b).gridSel = s.gridSel := rfl
@[simp] theorem violate_grid (s : State) (b : Option Nat) : (violate s b).grid = s.grid := rfl
@[simp] theorem violate_ties (s : State) (b : Option Nat) : (violate s b).ties = s.ties := rfl
@[simp] theorem violate_edges (s : State) (b : Option Nat) : (violate s b).edges = s.edges := rfl
@[simp] theorem violate_boards (s : State) (b : Option Nat) : (violate s b).boards = s.boards := rfl
@[simp] theorem violate_fields (s : State) (b : Option Nat) : (violate s b).fields = s.fields := rfl
@[simp] theorem violate_meds (s : State) (b : Option Nat) : (violate s b).meds = s.meds := rfl
@[simp] theorem violate_rim (s : State) (b : Option Nat) : (violate s b).rim = s.rim := rfl
@[simp] theorem violate_heds (s : State) (b : Option Nat) : (violate s b).heds = s.heds := rfl
@[simp] theorem violate_wafer (s : State) (b : Option Nat) : (violate s b).wafer = s.wafer := rfl
@[simp] theorem violate_fns (s : State) (b : Option Nat) : (violate s b).fns = s.fns := rfl
@[simp] theorem violate_ends (s : State) (b : Option Nat) : (violate s b).ends = s.ends := rfl
@[simp] theorem violate_now (s : State) (b : Option Nat) : (violate s b).now = s.now := rfl
@[simp] theorem violate_time (s : State) (b : Option Nat) : (violate s b).time = s.time := rfl
@[simp] theorem violate_clk (s : State) (b : Option Nat) : (violate s b).clk = s.clk := rfl
@[simp] theorem violate_pwr (s : State) (b : Option Nat) : (violate s b).pwr = s.pwr := rfl
@[simp] theorem violate_boot (s : State) (b : Option Nat) : (violate s b).boot = s.boot := rfl
@[simp] theorem violate_vigil (s : State) (b : Option Nat) : (violate s b).vigil = s.vigil := rfl
@[simp] theorem violate_slate (s : State) (b : Option Nat) : (violate s b).slate = s.slate := rfl
@[simp] theorem violate_raised (s : State) (b : Option Nat) : (violate s b).raised = s.raised := rfl
@[simp] theorem violate_flowOk (s : State) (b : Option Nat) : (violate s b).flowOk = s.flowOk := rfl
@[simp] theorem violate_tap (s : State) (b : Option Nat) : (violate s b).tap = s.tap := rfl

/-! ### Reads after writes -/

@[simp] theorem getB_setB (s : State) (k j : Nat) (v : Brick) : getB (setB s k v) j = if j = k then v else getB s j := by
  simp [getB, setB]
@[simp] theorem getField_setB (s : State) (k j : Nat) (v : Brick) : getField (setB s k v) j = getField s j := rfl
@[simp] theorem getBd_setB (s : State) (k j : Nat) (v : Brick) : getBd (setB s k v) j = getBd s j := rfl
@[simp] theorem getTie_setB (s : State) (k j : Nat) (v : Brick) : getTie (setB s k v) j = getTie s j := rfl
@[simp] theorem getEdge_setB (s : State) (k j : Nat) (v : Brick) : getEdge (setB s k v) j = getEdge s j := rfl
@[simp] theorem getMed_setB (s : State) (k j : Nat) (v : Brick) : getMed (setB s k v) j = getMed s j := rfl
@[simp] theorem getHed_setB (s : State) (k j : Nat) (v : Brick) : getHed (setB s k v) j = getHed s j := rfl
@[simp] theorem getFn_setB (s : State) (k j : Nat) (v : Brick) : getFn (setB s k v) j = getFn s j := rfl
@[simp] theorem getEnd_setB (s : State) (k j : Nat) (v : Brick) : getEnd (setB s k v) j = getEnd s j := rfl
@[simp] theorem getSeg_setB (s : State) (k c y : Nat) (v : Brick) : getSeg (setB s k v) c y = getSeg s c y := rfl
@[simp] theorem physX_setB (s : State) (k x y : Nat) (v : Brick) : physX (setB s k v) x y = physX s x y := rfl
@[simp] theorem keyOf_setB (s : State) (k x y : Nat) (v : Brick) : keyOf (setB s k v) x y = keyOf s x y := rfl
@[simp] theorem boardAt_setB (s : State) (k x y : Nat) (v : Brick) : boardAt (setB s k v) x y = boardAt s x y := rfl

@[simp] theorem getField_setField (s : State) (f j : Nat) (v : FieldSt) : getField (setField s f v) j = if j = f then v else getField s j := by
  simp [getField, setField]
@[simp] theorem getB_setField (s : State) (f j : Nat) (v : FieldSt) : getB (setField s f v) j = getB s j := rfl
@[simp] theorem getBd_setField (s : State) (f j : Nat) (v : FieldSt) : getBd (setField s f v) j = getBd s j := rfl
@[simp] theorem getTie_setField (s : State) (f j : Nat) (v : FieldSt) : getTie (setField s f v) j = getTie s j := rfl
@[simp] theorem getEdge_setField (s : State) (f j : Nat) (v : FieldSt) : getEdge (setField s f v) j = getEdge s j := rfl
@[simp] theorem getMed_setField (s : State) (f j : Nat) (v : FieldSt) : getMed (setField s f v) j = getMed s j := rfl
@[simp] theorem getHed_setField (s : State) (f j : Nat) (v : FieldSt) : getHed (setField s f v) j = getHed s j := rfl
@[simp] theorem getFn_setField (s : State) (f j : Nat) (v : FieldSt) : getFn (setField s f v) j = getFn s j := rfl
@[simp] theorem getEnd_setField (s : State) (f j : Nat) (v : FieldSt) : getEnd (setField s f v) j = getEnd s j := rfl
@[simp] theorem getSeg_setField (s : State) (f c y : Nat) (v : FieldSt) : getSeg (setField s f v) c y = getSeg s c y := rfl
@[simp] theorem physX_setField (s : State) (f x y : Nat) (v : FieldSt) : physX (setField s f v) x y = physX s x y := rfl
@[simp] theorem keyOf_setField (s : State) (f x y : Nat) (v : FieldSt) : keyOf (setField s f v) x y = keyOf s x y := rfl
@[simp] theorem boardAt_setField (s : State) (f x y : Nat) (v : FieldSt) : boardAt (setField s f v) x y = boardAt s x y := rfl

@[simp] theorem getBd_setBd (s : State) (b j : Nat) (v : Board) : getBd (setBd s b v) j = if j = b then v else getBd s j := by
  simp [getBd, setBd]
@[simp] theorem getB_setBd (s : State) (b j : Nat) (v : Board) : getB (setBd s b v) j = getB s j := rfl
@[simp] theorem getField_setBd (s : State) (b j : Nat) (v : Board) : getField (setBd s b v) j = getField s j := rfl
@[simp] theorem getTie_setBd (s : State) (b j : Nat) (v : Board) : getTie (setBd s b v) j = getTie s j := rfl
@[simp] theorem getEdge_setBd (s : State) (b j : Nat) (v : Board) : getEdge (setBd s b v) j = getEdge s j := rfl
@[simp] theorem getMed_setBd (s : State) (b j : Nat) (v : Board) : getMed (setBd s b v) j = getMed s j := rfl
@[simp] theorem getHed_setBd (s : State) (b j : Nat) (v : Board) : getHed (setBd s b v) j = getHed s j := rfl
@[simp] theorem getFn_setBd (s : State) (b j : Nat) (v : Board) : getFn (setBd s b v) j = getFn s j := rfl
@[simp] theorem getEnd_setBd (s : State) (b j : Nat) (v : Board) : getEnd (setBd s b v) j = getEnd s j := rfl
@[simp] theorem getSeg_setBd (s : State) (b c y : Nat) (v : Board) : getSeg (setBd s b v) c y = getSeg s c y := rfl
@[simp] theorem physX_setBd (s : State) (b x y : Nat) (v : Board) : physX (setBd s b v) x y = physX s x y := rfl
@[simp] theorem keyOf_setBd (s : State) (b x y : Nat) (v : Board) : keyOf (setBd s b v) x y = keyOf s x y := rfl

@[simp] theorem getTie_setTie (s : State) (k j : Nat) (v : Tie) : getTie (setTie s k v) j = if j = k then v else getTie s j := by
  simp [getTie, setTie]
@[simp] theorem getB_setTie (s : State) (k j : Nat) (v : Tie) : getB (setTie s k v) j = getB s j := rfl
@[simp] theorem getField_setTie (s : State) (k j : Nat) (v : Tie) : getField (setTie s k v) j = getField s j := rfl
@[simp] theorem getBd_setTie (s : State) (k j : Nat) (v : Tie) : getBd (setTie s k v) j = getBd s j := rfl
@[simp] theorem getEdge_setTie (s : State) (k j : Nat) (v : Tie) : getEdge (setTie s k v) j = getEdge s j := rfl
@[simp] theorem getMed_setTie (s : State) (k j : Nat) (v : Tie) : getMed (setTie s k v) j = getMed s j := rfl
@[simp] theorem getHed_setTie (s : State) (k j : Nat) (v : Tie) : getHed (setTie s k v) j = getHed s j := rfl
@[simp] theorem getFn_setTie (s : State) (k j : Nat) (v : Tie) : getFn (setTie s k v) j = getFn s j := rfl
@[simp] theorem getEnd_setTie (s : State) (k j : Nat) (v : Tie) : getEnd (setTie s k v) j = getEnd s j := rfl
@[simp] theorem getSeg_setTie (s : State) (k c y : Nat) (v : Tie) : getSeg (setTie s k v) c y = getSeg s c y := rfl
@[simp] theorem physX_setTie (s : State) (k x y : Nat) (v : Tie) : physX (setTie s k v) x y = physX s x y := rfl
@[simp] theorem keyOf_setTie (s : State) (k x y : Nat) (v : Tie) : keyOf (setTie s k v) x y = keyOf s x y := rfl
@[simp] theorem boardAt_setTie (s : State) (k x y : Nat) (v : Tie) : boardAt (setTie s k v) x y = boardAt s x y := rfl

@[simp] theorem getEdge_setEdge (s : State) (k j : Nat) (v : EdgeBr) : getEdge (setEdge s k v) j = if j = k then v else getEdge s j := by
  simp [getEdge, setEdge]
@[simp] theorem getB_setEdge (s : State) (k j : Nat) (v : EdgeBr) : getB (setEdge s k v) j = getB s j := rfl
@[simp] theorem getField_setEdge (s : State) (k j : Nat) (v : EdgeBr) : getField (setEdge s k v) j = getField s j := rfl
@[simp] theorem getBd_setEdge (s : State) (k j : Nat) (v : EdgeBr) : getBd (setEdge s k v) j = getBd s j := rfl
@[simp] theorem getTie_setEdge (s : State) (k j : Nat) (v : EdgeBr) : getTie (setEdge s k v) j = getTie s j := rfl
@[simp] theorem getMed_setEdge (s : State) (k j : Nat) (v : EdgeBr) : getMed (setEdge s k v) j = getMed s j := rfl
@[simp] theorem getHed_setEdge (s : State) (k j : Nat) (v : EdgeBr) : getHed (setEdge s k v) j = getHed s j := rfl
@[simp] theorem getFn_setEdge (s : State) (k j : Nat) (v : EdgeBr) : getFn (setEdge s k v) j = getFn s j := rfl
@[simp] theorem getEnd_setEdge (s : State) (k j : Nat) (v : EdgeBr) : getEnd (setEdge s k v) j = getEnd s j := rfl
@[simp] theorem getSeg_setEdge (s : State) (k c y : Nat) (v : EdgeBr) : getSeg (setEdge s k v) c y = getSeg s c y := rfl
@[simp] theorem physX_setEdge (s : State) (k x y : Nat) (v : EdgeBr) : physX (setEdge s k v) x y = physX s x y := rfl
@[simp] theorem keyOf_setEdge (s : State) (k x y : Nat) (v : EdgeBr) : keyOf (setEdge s k v) x y = keyOf s x y := rfl
@[simp] theorem boardAt_setEdge (s : State) (k x y : Nat) (v : EdgeBr) : boardAt (setEdge s k v) x y = boardAt s x y := rfl

@[simp] theorem getMed_setMed (s : State) (m j : Nat) (v : Med) : getMed (setMed s m v) j = if j = m then v else getMed s j := by
  simp [getMed, setMed]
@[simp] theorem getB_setMed (s : State) (m j : Nat) (v : Med) : getB (setMed s m v) j = getB s j := rfl
@[simp] theorem getField_setMed (s : State) (m j : Nat) (v : Med) : getField (setMed s m v) j = getField s j := rfl
@[simp] theorem getBd_setMed (s : State) (m j : Nat) (v : Med) : getBd (setMed s m v) j = getBd s j := rfl
@[simp] theorem getTie_setMed (s : State) (m j : Nat) (v : Med) : getTie (setMed s m v) j = getTie s j := rfl
@[simp] theorem getEdge_setMed (s : State) (m j : Nat) (v : Med) : getEdge (setMed s m v) j = getEdge s j := rfl
@[simp] theorem getHed_setMed (s : State) (m j : Nat) (v : Med) : getHed (setMed s m v) j = getHed s j := rfl
@[simp] theorem getFn_setMed (s : State) (m j : Nat) (v : Med) : getFn (setMed s m v) j = getFn s j := rfl
@[simp] theorem getEnd_setMed (s : State) (m j : Nat) (v : Med) : getEnd (setMed s m v) j = getEnd s j := rfl
@[simp] theorem getSeg_setMed (s : State) (m c y : Nat) (v : Med) : getSeg (setMed s m v) c y = getSeg s c y := rfl
@[simp] theorem physX_setMed (s : State) (m x y : Nat) (v : Med) : physX (setMed s m v) x y = physX s x y := rfl
@[simp] theorem keyOf_setMed (s : State) (m x y : Nat) (v : Med) : keyOf (setMed s m v) x y = keyOf s x y := rfl
@[simp] theorem boardAt_setMed (s : State) (m x y : Nat) (v : Med) : boardAt (setMed s m v) x y = boardAt s x y := rfl

@[simp] theorem getHed_setHed (s : State) (h j : Nat) (v : Hed) : getHed (setHed s h v) j = if j = h then v else getHed s j := by
  simp [getHed, setHed]
@[simp] theorem getB_setHed (s : State) (h j : Nat) (v : Hed) : getB (setHed s h v) j = getB s j := rfl
@[simp] theorem getField_setHed (s : State) (h j : Nat) (v : Hed) : getField (setHed s h v) j = getField s j := rfl
@[simp] theorem getBd_setHed (s : State) (h j : Nat) (v : Hed) : getBd (setHed s h v) j = getBd s j := rfl
@[simp] theorem getTie_setHed (s : State) (h j : Nat) (v : Hed) : getTie (setHed s h v) j = getTie s j := rfl
@[simp] theorem getEdge_setHed (s : State) (h j : Nat) (v : Hed) : getEdge (setHed s h v) j = getEdge s j := rfl
@[simp] theorem getMed_setHed (s : State) (h j : Nat) (v : Hed) : getMed (setHed s h v) j = getMed s j := rfl
@[simp] theorem getFn_setHed (s : State) (h j : Nat) (v : Hed) : getFn (setHed s h v) j = getFn s j := rfl
@[simp] theorem getEnd_setHed (s : State) (h j : Nat) (v : Hed) : getEnd (setHed s h v) j = getEnd s j := rfl
@[simp] theorem getSeg_setHed (s : State) (h c y : Nat) (v : Hed) : getSeg (setHed s h v) c y = getSeg s c y := rfl
@[simp] theorem physX_setHed (s : State) (h x y : Nat) (v : Hed) : physX (setHed s h v) x y = physX s x y := rfl
@[simp] theorem keyOf_setHed (s : State) (h x y : Nat) (v : Hed) : keyOf (setHed s h v) x y = keyOf s x y := rfl
@[simp] theorem boardAt_setHed (s : State) (h x y : Nat) (v : Hed) : boardAt (setHed s h v) x y = boardAt s x y := rfl

@[simp] theorem getFn_setFn (s : State) (i j : Nat) (v : FnSt) : getFn (setFn s i v) j = if j = i then v else getFn s j := by
  simp [getFn, setFn]
@[simp] theorem getB_setFn (s : State) (i j : Nat) (v : FnSt) : getB (setFn s i v) j = getB s j := rfl
@[simp] theorem getField_setFn (s : State) (i j : Nat) (v : FnSt) : getField (setFn s i v) j = getField s j := rfl
@[simp] theorem getBd_setFn (s : State) (i j : Nat) (v : FnSt) : getBd (setFn s i v) j = getBd s j := rfl
@[simp] theorem getTie_setFn (s : State) (i j : Nat) (v : FnSt) : getTie (setFn s i v) j = getTie s j := rfl
@[simp] theorem getEdge_setFn (s : State) (i j : Nat) (v : FnSt) : getEdge (setFn s i v) j = getEdge s j := rfl
@[simp] theorem getMed_setFn (s : State) (i j : Nat) (v : FnSt) : getMed (setFn s i v) j = getMed s j := rfl
@[simp] theorem getHed_setFn (s : State) (i j : Nat) (v : FnSt) : getHed (setFn s i v) j = getHed s j := rfl
@[simp] theorem getEnd_setFn (s : State) (i j : Nat) (v : FnSt) : getEnd (setFn s i v) j = getEnd s j := rfl
@[simp] theorem getSeg_setFn (s : State) (i c y : Nat) (v : FnSt) : getSeg (setFn s i v) c y = getSeg s c y := rfl
@[simp] theorem physX_setFn (s : State) (i x y : Nat) (v : FnSt) : physX (setFn s i v) x y = physX s x y := rfl
@[simp] theorem keyOf_setFn (s : State) (i x y : Nat) (v : FnSt) : keyOf (setFn s i v) x y = keyOf s x y := rfl
@[simp] theorem boardAt_setFn (s : State) (i x y : Nat) (v : FnSt) : boardAt (setFn s i v) x y = boardAt s x y := rfl

@[simp] theorem getEnd_setEnd (s : State) (h j : Nat) (v : EndSt) : getEnd (setEnd s h v) j = if j = h then v else getEnd s j := by
  simp [getEnd, setEnd]
@[simp] theorem getB_setEnd (s : State) (h j : Nat) (v : EndSt) : getB (setEnd s h v) j = getB s j := rfl
@[simp] theorem getField_setEnd (s : State) (h j : Nat) (v : EndSt) : getField (setEnd s h v) j = getField s j := rfl
@[simp] theorem getBd_setEnd (s : State) (h j : Nat) (v : EndSt) : getBd (setEnd s h v) j = getBd s j := rfl
@[simp] theorem getTie_setEnd (s : State) (h j : Nat) (v : EndSt) : getTie (setEnd s h v) j = getTie s j := rfl
@[simp] theorem getEdge_setEnd (s : State) (h j : Nat) (v : EndSt) : getEdge (setEnd s h v) j = getEdge s j := rfl
@[simp] theorem getMed_setEnd (s : State) (h j : Nat) (v : EndSt) : getMed (setEnd s h v) j = getMed s j := rfl
@[simp] theorem getHed_setEnd (s : State) (h j : Nat) (v : EndSt) : getHed (setEnd s h v) j = getHed s j := rfl
@[simp] theorem getFn_setEnd (s : State) (h j : Nat) (v : EndSt) : getFn (setEnd s h v) j = getFn s j := rfl
@[simp] theorem getSeg_setEnd (s : State) (h c y : Nat) (v : EndSt) : getSeg (setEnd s h v) c y = getSeg s c y := rfl
@[simp] theorem physX_setEnd (s : State) (h x y : Nat) (v : EndSt) : physX (setEnd s h v) x y = physX s x y := rfl
@[simp] theorem keyOf_setEnd (s : State) (h x y : Nat) (v : EndSt) : keyOf (setEnd s h v) x y = keyOf s x y := rfl
@[simp] theorem boardAt_setEnd (s : State) (h x y : Nat) (v : EndSt) : boardAt (setEnd s h v) x y = boardAt s x y := rfl

/-- The answer touches nothing but itself. -/
@[simp] theorem getB_resp (s : State) (r : Resp) (k : Nat) : getB { s with resp := r } k = getB s k := rfl
@[simp] theorem getBd_resp (s : State) (r : Resp) (k : Nat) : getBd { s with resp := r } k = getBd s k := rfl
@[simp] theorem getHed_resp (s : State) (r : Resp) (k : Nat) : getHed { s with resp := r } k = getHed s k := rfl
@[simp] theorem getMed_resp (s : State) (r : Resp) (k : Nat) : getMed { s with resp := r } k = getMed s k := rfl
@[simp] theorem getField_resp (s : State) (r : Resp) (k : Nat) : getField { s with resp := r } k = getField s k := rfl
@[simp] theorem getFn_resp (s : State) (r : Resp) (k : Nat) : getFn { s with resp := r } k = getFn s k := rfl
@[simp] theorem getTie_resp (s : State) (r : Resp) (k : Nat) : getTie { s with resp := r } k = getTie s k := rfl
@[simp] theorem getEdge_resp (s : State) (r : Resp) (k : Nat) : getEdge { s with resp := r } k = getEdge s k := rfl

/-- A command whose own guard is met answers `done`; else it waits. -/
@[simp] theorem answer_some (s t : State) : answer s (some t) = .next { t with resp := .done } := rfl
@[simp] theorem answer_none (s : State) : answer s none = .next { s with resp := .held } := rfl
@[simp] theorem reply_some (s t : State) : reply s (some t) = .next t := rfl
@[simp] theorem reply_none (s : State) : reply s none = .next { s with resp := .held } := rfl

/-- Everything `answer` can do: the effect, answering `done`, or nothing but the answer `held`. -/
theorem answer_next {s t : State} {o : Option State} (h : answer s o = .next t) :
    (∃ u, o = some u ∧ t = { u with resp := .done }) ∨ (o = none ∧ t = { s with resp := .held }) := by
  cases o with
  | none => right; simp only [answer_none] at h; cases h; exact ⟨rfl, rfl⟩
  | some u => left; simp only [answer_some] at h; cases h; exact ⟨u, rfl, rfl⟩

/-- Everything `reply` can do. -/
theorem reply_next {s t : State} {o : Option State} (h : reply s o = .next t) :
    o = some t ∨ (o = none ∧ t = { s with resp := .held }) := by
  cases o with
  | none => right; simp only [reply_none] at h; cases h; exact ⟨rfl, rfl⟩
  | some u => left; simp only [reply_some] at h; cases h; rfl

end Sys2Proof.Machine
end

