-- ==== Sys2Proof/Laws/Access.lean ====
section
/-! SUPPORT. An access of a function in each of its outcomes, and a signalled vector. -/
namespace Sys2Proof.Machine

/-! ### Accesses of functions (R621, R622) -/

/-- An access that arrives at a served block and is permitted has its effect. -/
theorem access_done {s r : State} {f : Fn} {blk : Blk} {rd served : Bool} {target : Nat} (c : CanAccess s f blk rd) (hs : served = true) :
    access s f blk rd true served target r = some r := by
  unfold access; simp [c.1, c.2, hs]

/-- The same for a block that is always up where the function is the one the register is of. -/
theorem access_pf {s r : State} {f : Fn} {blk : Blk} {rd : Bool} {target : Nat} (c : CanAccess s f blk rd) (hp : isPf f = true) :
    access s f blk rd (isPf f) true target r = some r := by
  rw [hp]; exact access_done c rfl

/-- An access that is not permitted is a violation, counted, whatever its block is. -/
theorem access_violation {s r : State} {f : Fn} {blk : Blk} {rd served : Bool} {target : Nat} (h : linkOk s f = true) :
    access s f blk rd false served target r = some { violate s (fnCtx f) with resp := .violation } := by
  unfold access; simp [h]

/-- A permitted access to what is not served is a bus error. -/
theorem access_busError {s r : State} {f : Fn} {blk : Blk} {rd served : Bool} {target : Nat} (h : linkOk s f = true)
    (hb : (blkServed s f blk rd && served) = false) : access s f blk rd true served target r = some (busError s f target) := by
  unfold access; simp only [h, hb]; rfl

/-- An access whose link is down does not arrive. -/
theorem access_held {s r : State} {f : Fn} {blk : Blk} {rd ok served : Bool} {target : Nat} (h : linkOk s f = false) :
    access s f blk rd ok served target r = none := by
  unfold access; simp [h]

/-- Everything an access can come to. -/
theorem access_cases {s r u : State} {f : Fn} {blk : Blk} {rd ok served : Bool} {target : Nat}
    (h : access s f blk rd ok served target r = some u) :
    linkOk s f = true ∧ ((ok = false ∧ u = { violate s (fnCtx f) with resp := .violation })
      ∨ (ok = true ∧ (blkServed s f blk rd && served) = false ∧ u = busError s f target)
      ∨ (ok = true ∧ blkServed s f blk rd = true ∧ served = true ∧ u = r)) := by
  unfold access at h
  cases hl : linkOk s f <;> simp only [hl, Bool.not_true, Bool.not_false, if_true, Bool.false_eq_true, if_false, reduceCtorEq] at h
  refine ⟨rfl, ?_⟩
  cases ok <;> simp only [Bool.not_true, Bool.not_false, if_true, Bool.false_eq_true, if_false] at h
  · exact .inl ⟨rfl, (Option.some.inj h).symm⟩
  · cases hb : (blkServed s f blk rd && served) <;> simp only [hb, Bool.not_true, Bool.not_false, if_true, Bool.false_eq_true, if_false] at h
    · exact .inr (.inl ⟨rfl, rfl, (Option.some.inj h).symm⟩)
    · simp only [Bool.and_eq_true] at hb
      exact .inr (.inr ⟨rfl, hb.1, hb.2, (Option.some.inj h).symm⟩)

/-! ### MSI-X (R558, R574) -/

/-- A signal is the message or the pending bit. -/
theorem signal_signalled (s : State) (fn vec : Nat) : Signalled s (signal s fn vec) fn vec := by
  have hset : ∀ v, (∀ j, j ≠ fn → getFn (setFn s fn v) j = getFn s j) ∧ getFn (setFn s fn v) fn = v := by
    intro v; exact ⟨fun j hj => by rw [getFn_setFn, if_neg hj], by rw [getFn_setFn, if_pos rfl]⟩
  by_cases h : bitAt (sget 0 (getFn s fn).msix (16 * vec + 12)) 0 = false ∨ (getFn s fn).bme = false
  · have hs : signal s fn vec = setFn s fn { getFn s fn with pba := sset 0 (getFn s fn).pba vec 1 } := by
      unfold signal; rcases h with h | h
      · rw [if_pos (by rw [h]; rfl)]
      · rw [if_pos (by rw [h]; exact Bool.or_true _)]
    unfold Signalled; rw [if_pos h, hs]
    refine ⟨rfl, (hset _).1, ?_, fun v => ?_⟩
    · rw [(hset _).2]
    · rw [(hset _).2]; simp
  · have hs : signal s fn vec = { s with toHost := s.toHost ++ [.irq fn vec] } := by
      simp only [not_or, Bool.not_eq_false] at h
      unfold signal; rw [if_neg (by rw [h.1, h.2]; decide)]
    unfold Signalled; rw [if_neg h, hs]; exact ⟨rfl, rfl⟩

/-- A signal touches the functions and what waits for the host alone. -/
theorem signal_frame (s : State) (fn vec : Nat) : { signal s fn vec with fns := s.fns, toHost := s.toHost } = s := by
  unfold signal; dsimp only; split <;> rfl

end Sys2Proof.Machine
end

