-- ==== Sys2Proof/Laws/Issue.lean ====
section
/-! SUPPORT. Issue of an instruction: what it leaves of the state, and its one equation under CanIssue. -/
namespace Sys2Proof.Machine

theorem BoardButMoved.refl (b : Board) : BoardButMoved b b := by exact rfl
theorem BoardButMoved.trans {a b c : Board} (h : BoardButMoved a b) (g : BoardButMoved b c) : BoardButMoved a c := by
  unfold BoardButMoved at *; rw [← g, ← h]
theorem boardButMoved_moved (b : Board) (m : Bool) : BoardButMoved { b with moved := m } b := by exact rfl
theorem boardButMoved_arrivals (b : Board) (l : List Arrival) (m : Bool) : BoardButMoved { b with arrivals := l, moved := m } b := by exact rfl
theorem FieldButAct.refl (f : FieldSt) : FieldButAct f f := by exact rfl
theorem FieldButAct.trans {a b c : FieldSt} (h : FieldButAct a b) (g : FieldButAct b c) : FieldButAct a c := by
  unfold FieldButAct at *; rw [← g, ← h]
theorem fieldButAct_act (f : FieldSt) (m : SMap Nat) : FieldButAct { f with act := m } f := by exact rfl
theorem ButWafer.refl (s : State) : ButWafer s s := by exact rfl
theorem ButWafer.trans {a b c : State} (h : ButWafer a b) (g : ButWafer b c) : ButWafer a c := by
  unfold ButWafer at *; rw [← g, ← h]
theorem butWafer_setB (s : State) (k : Nat) (b : Brick) : ButWafer (setB s k b) s := by exact rfl
theorem butWafer_setBd (s : State) (k : Nat) (b : Board) : ButWafer (setBd s k b) s := by exact rfl
theorem butWafer_setField (s : State) (k : Nat) (b : FieldSt) : ButWafer (setField s k b) s := by exact rfl
theorem butWafer_resp (s : State) (r : Resp) : ButWafer { s with resp := r } s := by exact rfl

/-- IssueFrame composes, and holds of every write of brick k and of what touches no brick. -/
theorem IssueFrame.trans {s u v : State} {k : Nat} (h : IssueFrame s u k) (g : IssueFrame u v k) : IssueFrame s v k :=
  ⟨fun j hj => (g.1 j hj).trans (h.1 j hj), fun n => (g.2.1 n).trans (h.2.1 n), fun f => (g.2.2.1 f).trans (h.2.2.1 f),
    g.2.2.2.trans h.2.2.2⟩

theorem issueFrame_refl (s : State) (k : Nat) : IssueFrame s s k :=
  ⟨fun _ _ => rfl, fun _ => .refl _, fun _ => .refl _, .refl _⟩

theorem issueFrame_resp (s : State) (r : Resp) (k : Nat) : IssueFrame s { s with resp := r } k :=
  ⟨fun _ _ => rfl, fun _ => .refl _, fun _ => .refl _, butWafer_resp s r⟩

theorem issueFrame_setB (s : State) (k : Nat) (b : Brick) : IssueFrame s (setB s k b) k :=
  ⟨fun j hj => by simp [hj], fun _ => .refl _, fun _ => .refl _, butWafer_setB s k b⟩

theorem issueFrame_modBd (s : State) (n : Nat) (f : Board → Board) (hf : ∀ b, BoardButMoved (f b) b) (k : Nat) :
    IssueFrame s (modBd s n f) k := by
  refine ⟨fun _ _ => rfl, fun m => ?_, fun _ => .refl _, butWafer_setBd s n _⟩
  simp only [modBd, getBd_setBd]
  split
  · next h => subst h; exact hf _
  · exact .refl _

theorem issueFrame_touch (s : State) (x y k : Nat) : IssueFrame s (touch s x y) k := by
  unfold touch
  split
  · exact issueFrame_modBd _ _ _ (fun b => boardButMoved_moved b true) k
  · exact issueFrame_refl s k

theorem issueFrame_activity (s : State) (x y c n k : Nat) : IssueFrame s (activity s x y c n) k := by
  unfold activity
  split
  · refine ⟨fun _ _ => rfl, fun _ => .refl _, fun f => ?_, butWafer_setField s _ _⟩
    simp only [getField_setField]
    split
    · next h => subst h; exact fieldButAct_act _ _
    · exact .refl _
  · exact issueFrame_refl s k

theorem issueFrame_countMarks (s : State) (x y j : Nat) (b : Brick) (k : Nat) : IssueFrame s (countMarks s x y j b) k :=
  ((issueFrame_activity s x y _ _ k).trans (issueFrame_activity _ x y _ _ k)).trans (issueFrame_activity _ x y _ _ k)

theorem issueFrame_sendArrival (s : State) (x y n p t k : Nat) : IssueFrame s (sendArrival s x y n p t) k := by
  unfold sendArrival
  split
  · exact issueFrame_modBd _ _ _ (fun b => boardButMoved_arrivals b _ true) k
  · exact issueFrame_refl s k

@[simp] theorem getB_touch (s : State) (x y j : Nat) : getB (touch s x y) j = getB s j := by unfold touch; split <;> rfl
@[simp] theorem getB_activity (s : State) (x y c n j : Nat) : getB (activity s x y c n) j = getB s j := by
  unfold activity; split <;> rfl
@[simp] theorem getB_countMarks (s : State) (x y k : Nat) (b : Brick) (j : Nat) : getB (countMarks s x y k b) j = getB s j := by
  simp [countMarks]
@[simp] theorem getB_sendArrival (s : State) (x y n p t j : Nat) : getB (sendArrival s x y n p t) j = getB s j := by
  unfold sendArrival; split <;> rfl

/-- A head under CanIssue is the one headReady finds. -/
theorem headReady_of {op : BOp} {s : State} {x : Fin 1104} {y : Fin 560} {t k : Nat} {b : Brick} {h : QEntry} {rest : List QEntry}
    (c : CanIssue op s x y t k b h rest) : headReady op s x y b t = some (queOp op, h, rest) := by
  obtain ⟨_, _, hst, _, hq, hop, hd, hm, hc⟩ := c
  simp only [headReady, hq]
  rcases hst with hst | hst <;> simp [hop, hst, hd, hm, hc]

/-- The issue of a head under CanIssue whose effect raises no fault: it completes, and the brick is what issueB makes of it. -/
theorem issues_of {op : BOp} {s : State} {x : Fin 1104} {y : Fin 560} {t k : Nat} {b : Brick} {h : QEntry} {rest : List QEntry}
    (c : CanIssue op s x y t k b h rest) (hf : (issueB op s x y b (queOp op) h rest t).2 = none) :
    ∃ u, issueOp op x y t s = some u ∧ getB u k = (issueB op s x y b (queOp op) h rest t).1 ∧ IssueFrame s u k := by
  have hh := headReady_of c
  obtain ⟨hk, hr, hst, hb, _⟩ := c
  unfold issueOp brickAct tcycAct
  have hg : (b.st == .stopped || b.st == .quarantined) = false := by rcases hst with h | h <;> simp [h]
  simp only [hk, hr, hg, hb, hh, hf, finishB, Bool.not_true, Bool.false_eq_true, if_false, Option.map_some]
  refine ⟨_, rfl, ?_, ?_⟩
  · simp only [getB_countMarks]
    split <;> split <;> simp
  · refine IssueFrame.trans ?_ (issueFrame_countMarks _ _ _ _ _ _)
    have h0 := (issueFrame_setB s k (issueB op s x y b (queOp op) h rest t).1).trans (issueFrame_touch _ x y k)
    split
    · refine IssueFrame.trans ?_ (issueFrame_sendArrival _ _ _ _ _ _ _)
      split
      · exact h0
      · exact h0.trans (issueFrame_activity _ _ _ _ _ _)
    · split
      · exact h0
      · exact h0.trans (issueFrame_activity _ _ _ _ _ _)

/-! ### What issue leaves of a brick -/

theorem IssueKeeps.refl (b : Brick) : IssueKeeps b b := by exact rfl
theorem IssueKeeps.trans {a b c : Brick} (h : IssueKeeps a b) (g : IssueKeeps b c) : IssueKeeps a c := by
  unfold IssueKeeps at *; rw [← h, ← g]
theorem issueKeeps_used (b : Brick) (l : List Nat) : IssueKeeps b { b with used := l } := by exact rfl
theorem issueKeeps_cnt (b : Brick) (m : SMap Nat) : IssueKeeps b { b with cnt := m } := by exact rfl
theorem issueKeeps_ports (b : Brick) (m : SMap (List Flit)) : IssueKeeps b { b with ports := m } := by exact rfl
theorem issueKeeps_credFly (b : Brick) (l : List CredFly) : IssueKeeps b { b with credFly := l } := by exact rfl
theorem issueKeeps_nf (b : Brick) (v : BitVec 8) : IssueKeeps b { b with nf := v } := by exact rfl
theorem issueKeeps_flights (b : Brick) (l : List Flight) : IssueKeeps b { b with flights := l } := by exact rfl
theorem issueKeeps_causeS (b : Brick) (n : Nat) : IssueKeeps b { b with causeS := n } := by exact rfl
theorem issueKeeps_causeV (b : Brick) (n : Nat) : IssueKeeps b { b with causeV := n } := by exact rfl
theorem issueKeeps_causeT (b : Brick) (n : Nat) : IssueKeeps b { b with causeT := n } := by exact rfl
theorem issueKeeps_queSet (b : Brick) (q : Que) (l : List QEntry) : IssueKeeps b (queSet b q l) := by cases q <;> exact rfl

theorem issueKeeps_bumpC (on : Bool) (b : Brick) (i n : Nat) : IssueKeeps b (bumpC on b i n) := by
  unfold bumpC; split
  · exact issueKeeps_cnt _ _
  · exact .refl b

theorem issueKeeps_popRaw (on : Bool) (b : Brick) (n t : Nat) : IssueKeeps b (popRaw on b n t).1 := by
  unfold popRaw; split
  · exact .refl b
  · exact (((issueKeeps_ports _ _).trans (issueKeeps_credFly _ _)).trans (issueKeeps_bumpC _ _ _ _)).trans (issueKeeps_nf _ _)

theorem issueKeeps_popAll (on : Bool) (t : Nat) (l : List Nat) (b : Brick) (acc : List Flit) :
    IssueKeeps b (popAll on t l b acc).1 := by
  induction l generalizing b acc with
  | nil => exact .refl b
  | cons n r ih => exact (issueKeeps_popRaw on b n t).trans (ih _ _)

/-- The entries popped depend on the ports alone. -/
theorem popAll_entries (l : List Nat) : ∀ (on on' : Bool) (t t' : Nat) (b c : Brick) (acc : List Flit), b.ports = c.ports →
    (popAll on t l b acc).2 = (popAll on' t' l c acc).2 := by
  induction l with
  | nil => intros; rfl
  | cons n r ih =>
    intro on on' t t' b c acc hp
    have hq : portQ b n = portQ c n := by simp [portQ, hp]
    simp only [popAll, popRaw, hq]
    split
    · exact ih _ _ _ _ _ _ _ hp
    · refine ih _ _ _ _ _ _ _ ?_
      simp only [setNF, bumpC, bump, freePort, setPort]
      split <;> split <;> simp [hp]

/-- The queues and pending results survive pops. -/
theorem popRaw_rest (on : Bool) (b : Brick) (n t : Nat) :
    (popRaw on b n t).1.qS = b.qS ∧ (popRaw on b n t).1.qV = b.qV ∧ (popRaw on b n t).1.qT = b.qT
      ∧ (popRaw on b n t).1.flights = b.flights := by
  unfold popRaw; split
  · simp
  · unfold bumpC bump freePort setPort setNF; split <;> simp

theorem popAll_rest (on : Bool) (t : Nat) (l : List Nat) (b : Brick) (acc : List Flit) :
    (popAll on t l b acc).1.qS = b.qS ∧ (popAll on t l b acc).1.qV = b.qV ∧ (popAll on t l b acc).1.qT = b.qT
      ∧ (popAll on t l b acc).1.flights = b.flights := by
  induction l generalizing b acc with
  | nil => simp [popAll]
  | cons n r ih =>
    have h := ih (popRaw on b n t).1 ((popRaw on b n t).2 :: acc)
    have g := popRaw_rest on b n t
    simp only [popAll]
    exact ⟨h.1.trans g.1, h.2.1.trans g.2.1, h.2.2.1.trans g.2.2.1, h.2.2.2.trans g.2.2.2⟩

theorem issueStart_keeps (op : BOp) (s : State) (x y : Nat) (b : Brick) (q : Que) (h : QEntry) (rest : List QEntry) (t : Nat) :
    IssueKeeps b (issueStart op s x y b q h rest t).1 := by
  unfold issueStart
  refine IssueKeeps.trans ?_ (issueKeeps_popAll _ _ _ _ _)
  have h0 := ((issueKeeps_queSet b q rest).trans (issueKeeps_used _ (queIx q :: (queSet b q rest).used))).trans
    (issueKeeps_bumpC (counting s x y) _ (queIx q) 1)
  split
  · exact h0.trans (issueKeeps_used _ _)
  · exact h0

theorem issueStart_entries (op : BOp) (s : State) (x y : Nat) (b : Brick) (q : Que) (h : QEntry) (rest : List QEntry) (t : Nat) :
    (issueStart op s x y b q h rest t).2 = poppedBy op b h := by
  unfold issueStart poppedBy
  refine popAll_entries _ _ _ _ _ _ _ _ ?_
  split <;> unfold bumpC bump mark queSet <;> split <;> cases q <;> rfl

theorem issueStart_rest (op : BOp) (s : State) (x y : Nat) (b : Brick) (q : Que) (h : QEntry) (rest : List QEntry) (t : Nat) :
    queGet (issueStart op s x y b q h rest t).1 q = rest ∧ (issueStart op s x y b q h rest t).1.flights = b.flights := by
  unfold issueStart
  have g := popAll_rest (counting s x y) t (popsOf op h.word)
  refine ⟨?_, ?_⟩
  · cases q <;> simp only [queGet, g] <;> split <;> unfold bumpC bump mark queSet <;> split <;> rfl
  · rw [(g _ _).2.2.2]; split <;> unfold bumpC bump mark queSet <;> split <;> cases q <;> rfl

theorem issueKeeps_clearCause (b : Brick) (q : Que) : IssueKeeps b (clearCause b q) := by cases q <;> exact rfl
theorem clearCause_queGet (b : Brick) (q : Que) : queGet (clearCause b q) q = queGet b q := by cases q <;> rfl
theorem clearCause_flights (b : Brick) (q : Que) : (clearCause b q).flights = b.flights := by cases q <;> rfl

/-- The end of an issue that sends nothing, holds no unit and does not halt. -/
theorem issueEnd_plain (on : Bool) {op : BOp} (q : Que) {w : DWord} (t : Nat) (pred : Bool) (f : Eff)
    (ha : arrayHold op w = 0) (hs : sendsOf op w = none) (ht : isTrans op = false) (hh : op ≠ .halt) :
    issueEnd on op q w t pred f
      = clearCause (issueFlight op w t (if pred && f.fault.isNone then f.writes else []) f.b) q := by
  simp [issueEnd, issueSend, issueHold, ha, hs, ht, hh]

/-- An instruction that only writes registers: it completes, its destinations are reserved, and nothing else changes. -/
theorem issues_reg {op : BOp} {s : State} {x : Fin 1104} {y : Fin 560} {t k : Nat} {b : Brick} {h : QEntry} {rest : List QEntry}
    (c : CanIssue op s x y t k b h rest) (ws : List RW)
    (he : ∀ b1 fs, fs = poppedBy op b h →
      effOf op b b1 (opCtx s x y b h) h fs (predOf b h.word) t = { writes := ws, b := b1 })
    (ha : arrayHold op h.word = 0) (hs : sendsOf op h.word = none) (ht : isTrans op = false) (hh : op ≠ .halt)
    (hd : dstsOf op h.word ≠ []) :
    ∃ u, issueOp op x y t s = some u ∧ queGet (getB u k) (queOp op) = rest ∧ IssueKeeps b (getB u k)
      ∧ (getB u k).flights = b.flights ++ [⟨t + latOf op h.word, dstsOf op h.word, if predOf b h.word then ws else []⟩]
      ∧ IssueFrame s u k := by
  have k0 := issueStart_keeps op s x y b (queOp op) h rest t
  have r0 := issueStart_rest op s x y b (queOp op) h rest t
  have e := he (issueStart op s x y b (queOp op) h rest t).1 _ (issueStart_entries op s x y b (queOp op) h rest t)
  obtain ⟨u, hu, hb, hf⟩ := issues_of c (by simp [issueB, e])
  have hde : (dstsOf op h.word).isEmpty = false := by simpa using hd
  simp only [issueB, e, issueEnd_plain _ _ _ _ _ ha hs ht hh, issueFlight, hde, Option.isNone_none, Bool.and_true,
    Bool.false_eq_true, if_false] at hb
  refine ⟨u, hu, ?_, ?_, ?_, hf⟩ <;> rw [hb]
  · rw [clearCause_queGet]; cases hq : queOp op <;> rw [hq] at r0 <;> exact r0.1
  · exact k0.trans ((issueKeeps_flights _ _).trans (issueKeeps_clearCause _ _))
  · simp [clearCause_flights, r0.2]

end Sys2Proof.Machine
end

