-- ==== Sys2Proof/Laws/Act.lean ====
section
/-! SUPPORT. A unit's step in a brick: its one equation under CanAct, and the shape of its outcome. -/
namespace Sys2Proof.Machine

/-- The first step of a brick in a tcyc leaves its state as it was. -/
theorem brickAt_st {b b' : Brick} {t : Nat} (h : brickAt b t = some b') : b.st = b'.st := by
  unfold brickAt at h; split at h
  · cases h
  · split at h <;> cases h <;> rfl

/-- Under CanAct the guard of a step is passed. -/
theorem brickAct_of {s : State} {x : Fin 1104} {y : Fin 560} {t k : Nat} {b : Brick} (c : CanAct s x y t k b)
    (f : Nat → Brick → Option State) : brickAct s x y t f = (f k b).map (fun s' => countMarks s' x y k b) := by
  obtain ⟨hk, hr, h1, h2, hb⟩ := c
  unfold brickAct tcycAct
  have hg : (b.st == .stopped || b.st == .quarantined) = false := by simp [h1, h2]
  simp only [hk, hr, hg, hb, Bool.not_true, Bool.false_eq_true, if_false]

@[simp] theorem countMarks_resp (s : State) (x y k : Nat) (b : Brick) : (countMarks s x y k b).resp = s.resp := by
  simp only [countMarks, activity]; repeat' split
  all_goals rfl
@[simp] theorem touch_resp (s : State) (x y : Nat) : (touch s x y).resp = s.resp := by unfold touch; split <;> rfl
@[simp] theorem countMarks_raised (s : State) (x y k : Nat) (b : Brick) : (countMarks s x y k b).raised = s.raised := by
  simp only [countMarks, activity]; repeat' split
  all_goals rfl
@[simp] theorem touch_raised (s : State) (x y : Nat) : (touch s x y).raised = s.raised := by unfold touch; split <;> rfl

/-- A step that writes brick k and touches its board. -/
theorem issueFrame_write (s : State) (x y k : Nat) (b b0 : Brick) :
    IssueFrame s (countMarks (touch (setB s k b) x y) x y k b0) k :=
  ((issueFrame_setB s k b).trans (issueFrame_touch _ x y k)).trans (issueFrame_countMarks _ _ _ _ _ _)

/-- A command answered by `answer` whose step writes brick k. -/
theorem acts_answer {ins : Instr} {s : State} {x : Fin 1104} {y : Fin 560} {t k : Nat} {b b' : Brick} (c : CanAct s x y t k b)
    {P : Brick → Prop} {f : Nat → Brick → Option State} (he : exec ins s = answer s (brickAct s x y t f))
    (hf : f k b = some (touch (setB s k b') x y)) (hp : P b') : Acts ins s k P := by
  refine ⟨_, by rw [he, brickAct_of c, hf]; rfl, rfl, ?_, (issueFrame_write s x y k b' b).trans (issueFrame_resp _ _ _)⟩
  change P (getB (countMarks (touch (setB s k b') x y) x y k b) k)
  simpa using hp

/-- A stream instruction whose step writes brick k. -/
theorem acts_stream {ins : Instr} {op : SOp} {s : State} {x : Fin 1104} {y : Fin 560} {t k : Nat} {b b' : Brick} {j : Nat}
    (c : StreamTurn op s x y t k b j) {P : Brick → Prop} (he : exec ins s = reply s (streamOp op x y t s))
    (hf : streamExec s k x y b j t op = touch (setB s k b') x y) (hp : P b') : Acts ins s k P := by
  obtain ⟨hc, hpick, hop, hbank⟩ := c
  have hu : streamOp op x y t s = some (countMarks { touch (setB s k b') x y with resp := .done } x y k b) := by
    rw [streamOp, brickAct_of hc]
    simp only [hpick, hop, hf, bne_self_eq_false, Bool.false_eq_true, if_false]
    cases hB : streamBankOf b (getCtx b j) op (stProg b (getCtx b j).pc) with
    | none => simp
    | some bank => simp [hbank bank hB]
  refine ⟨_, by rw [he, hu]; rfl, by simp, ?_, ?_⟩
  · rw [getB_countMarks]
    change P (getB (touch (setB s k b') x y) k)
    simpa using hp
  · refine IssueFrame.trans ?_ (issueFrame_countMarks _ _ _ _ _ _)
    exact ((issueFrame_setB s k b').trans (issueFrame_touch _ x y k)).trans (issueFrame_resp _ _ _)

end Sys2Proof.Machine
end

