-- ==== Sys2Proof/Laws/Kept.lean ====
section
/-! SUPPORT. What few commands write: the timestamp, the items of the Slate, boot and the maps' readiness, kept by each operation that does not
name them. -/
namespace Sys2Proof.Machine

set_option linter.unusedSimpArgs false

/-- What these lemmas are about. -/
def kept (s : State) : Nat × Nat × Nat × SMap Word × SMap Word × BootSt × Bool :=
  (s.now, s.wafer, s.pwr.capW, s.pwr.coef, s.clk.en, s.boot, s.mapsReady)

theorem kept_mk (pending resp freeCtr toHost bricks segs mapsReady gridSel grid ties edges boards fields meds rim heds wafer fns ends now time clk pwr boot
    vigil slate flt raised flowOk tap) :
    kept (State.mk pending resp freeCtr toHost bricks segs mapsReady gridSel grid ties edges boards fields meds rim heds wafer fns ends now time clk pwr boot
      vigil slate flt raised flowOk tap) = (now, wafer, pwr.capW, pwr.coef, clk.en, boot, mapsReady) := rfl

theorem kept_fold (s : State) : (s.now, s.wafer, s.pwr.capW, s.pwr.coef, s.clk.en, s.boot, s.mapsReady) = kept s := rfl

theorem kept_resp (s : State) (r : Resp) : kept { s with resp := r } = kept s := rfl

theorem ite_some {c : Prop} [Decidable c] {x y : Option State} {u : State} {p : Prop} (h : (if c then x else y) = some u)
    (h1 : x = some u → p) (h2 : y = some u → p) : p := by
  split at h
  · exact h1 h
  · exact h2 h

theorem kept_foldl {β : Type} (f : State → β → State) (hf : ∀ s p, kept (f s p) = kept s) (l : List β) (s : State) :
    kept (l.foldl f s) = kept s := by
  induction l generalizing s with
  | nil => rfl
  | cons p r ih => rw [List.foldl_cons, ih, hf]

/-- A command answered through answer keeps them when its operation does. -/
theorem kept_answer {s t : State} {o : Option State} (h : answer s o = .next t) (ho : ∀ u, o = some u → kept u = kept s) : kept t = kept s := by
  cases o with
  | none => cases h; rfl
  | some u => cases h; exact ho u rfl

theorem kept_reply {s t : State} {o : Option State} (h : reply s o = .next t) (ho : ∀ u, o = some u → kept u = kept s) : kept t = kept s := by
  cases o with
  | none => cases h; rfl
  | some u => cases h; exact ho _ rfl

theorem kept_applyMaps (s : State) (a1 : Nat) : kept (applyMaps s a1) = kept s := by
  unfold applyMaps; simp only [kept_mk, kept_fold, apply_ite kept, ite_self]
theorem kept_applyPage (a0 : Bool) (a1 : Nat) (a2 : List Byte) (s : State) : kept (applyPage a0 a1 a2 s) = kept s := by
  unfold applyPage; simp only [kept_mk, kept_fold, apply_ite kept, ite_self]
theorem kept_breakSector (a0 : Nat) (s : State) : kept (breakSector a0 s) = kept s := by
  unfold breakSector; simp only [kept_mk, kept_fold]
theorem kept_calibration {a0 : List Nat} {s : State} {u : State} (h : calibration a0 s = some u) : kept u = kept s := by
  unfold calibration at h; (repeat' split at h) <;> first | (simp only [reduceCtorEq] at h; done) | (simp only [Option.some.injEq] at h; subst h; (repeat' split) <;> first | with_reducible rfl | (simp only [kept_mk, kept_fold, apply_ite kept, ite_self]; done))
theorem kept_cancelEntries (s : State) (a1 : Nat) (a2 : SchedEnt → Bool) : kept (cancelEntries s a1 a2) = kept s := by
  unfold cancelEntries; simp only [kept_mk, kept_fold, apply_ite kept, ite_self]
theorem kept_cardIn {a0 : List (Nat × Byte)} {a1 : Option Sfdp} {s : State} {u : State} (h : cardIn a0 a1 s = some u) : kept u = kept s := by
  unfold cardIn at h; (try dsimp only at h); (repeat' split at h) <;> first | (simp only [reduceCtorEq] at h; done) | (simp only [Option.some.injEq] at h; subst h; (repeat' split) <;> first | with_reducible rfl | (simp only [kept_mk, kept_fold, kept_foldl, implies_true, apply_ite kept, ite_self]; done))
theorem kept_cellCheck (a0 : Nat) (s : State) : kept (cellCheck a0 s) = kept s := by
  unfold cellCheck; simp only [kept_mk, kept_fold]
theorem kept_clearEdges (s : State) (a1 : Nat) : kept (clearEdges s a1) = kept s := by
  unfold clearEdges; simp only [kept_mk, kept_fold, apply_ite kept, ite_self]
theorem kept_clearTies (s : State) (a1 : Nat) : kept (clearTies s a1) = kept s := by
  unfold clearTies; simp only [kept_mk, kept_fold, apply_ite kept, ite_self]
theorem kept_clkFieldSel (a0 : Word) (s : State) : kept (clkFieldSel a0 s) = kept s := by
  unfold clkFieldSel; simp only [kept_mk, kept_fold, apply_ite kept, ite_self]
theorem kept_coolantRequest {a0 : Bool} {s : State} {u : State} (h : coolantRequest a0 s = some u) : kept u = kept s := by
  unfold coolantRequest at h; dsimp only at h; (repeat' split at h) <;> first | (simp only [reduceCtorEq] at h; done) | (simp only [Option.some.injEq] at h; subst h; (repeat' split) <;> first | with_reducible rfl | (simp only [kept_mk, kept_fold, apply_ite kept, ite_self]; done))
theorem kept_devBit (s : State) (a1 : Nat) : kept (devBit s a1) = kept s := by
  unfold devBit; simp only [kept_mk, kept_fold]
theorem kept_gridSel (a0 : Word) (s : State) : kept (gridSel a0 s) = kept s := by
  unfold gridSel; simp only [kept_mk, kept_fold, kept_foldl, implies_true]
theorem kept_helloSend {a0 : Nat} {a1 : Nat} {s : State} {u : State} (h : helloSend a0 a1 s = some u) : kept u = kept s := by
  unfold helloSend at h; (repeat' split at h) <;> first | (simp only [reduceCtorEq] at h; done) | (simp only [Option.some.injEq] at h; subst h; (repeat' split) <;> first | with_reducible rfl | (simp only [kept_mk, kept_fold, apply_ite kept, ite_self]; done))
theorem kept_holdIfNoRef (s : State) : kept (holdIfNoRef s) = kept s := by
  unfold holdIfNoRef; simp only [kept_mk, kept_fold, apply_ite kept, ite_self]
theorem kept_journalStep (s : State) : kept (journalStep s) = kept s := by
  unfold journalStep; simp only [kept_mk, kept_fold, kept_foldl, implies_true]
theorem kept_listQuar (a0 : Word) (a1 : Word) (s : State) : kept (listQuar a0 a1 s) = kept s := by
  unfold listQuar; simp only [kept_mk, kept_fold, apply_ite kept, ite_self]
theorem kept_pwrEvent (s : State) (a1 : Nat) : kept (pwrEvent s a1) = kept s := by
  unfold pwrEvent; simp only [kept_mk, kept_fold]
theorem kept_pwrFieldSel (a0 : Word) (s : State) : kept (pwrFieldSel a0 s) = kept s := by
  unfold pwrFieldSel; simp only [kept_mk, kept_fold, kept_foldl, implies_true]
theorem kept_quarSel (a0 : Word) (s : State) : kept (quarSel a0 s) = kept s := by
  unfold quarSel; simp only [kept_mk, kept_fold]
theorem kept_railsOn (s : State) : kept (railsOn s) = kept s := by
  unfold railsOn; simp only [kept_mk, kept_fold, kept_foldl, implies_true]
theorem kept_raiseAt (s : State) (a1 : Nat) (a2 : Option Nat) (a3 : Word) : kept (raiseAt s a1 a2 a3) = kept s := by
  unfold raiseAt; simp only [kept_mk, kept_fold]
theorem kept_recordStop (a0 : Nat) (s : State) : kept (recordStop a0 s) = kept s := by
  unfold recordStop; simp only [kept_mk, kept_fold, apply_ite kept, ite_self]
theorem kept_refSwitchRequest (a0 : Word) (s : State) : kept (refSwitchRequest a0 s) = kept s := by
  unfold refSwitchRequest; simp only [kept_mk, kept_fold, apply_ite kept, ite_self]
theorem kept_rimPathSel (a0 : Word) (s : State) : kept (rimPathSel a0 s) = kept s := by
  unfold rimPathSel; simp only [kept_mk, kept_fold, apply_ite kept, ite_self]
theorem kept_setB (s : State) (a1 : Nat) (a2 : Brick) : kept (setB s a1 a2) = kept s := by
  unfold setB; simp only [kept_mk, kept_fold]
theorem kept_setBd (s : State) (a1 : Nat) (a2 : Board) : kept (setBd s a1 a2) = kept s := by
  unfold setBd; simp only [kept_mk, kept_fold]
theorem kept_setEdge (s : State) (a1 : Nat) (a2 : EdgeBr) : kept (setEdge s a1 a2) = kept s := by
  unfold setEdge; simp only [kept_mk, kept_fold]
theorem kept_setEnd (s : State) (a1 : Nat) (a2 : EndSt) : kept (setEnd s a1 a2) = kept s := by
  unfold setEnd; simp only [kept_mk, kept_fold]
theorem kept_setEnt (s : State) (a1 : Nat) (a2 : SchedEnt) : kept (setEnt s a1 a2) = kept s := by
  unfold setEnt; simp only [kept_mk, kept_fold, apply_ite kept, ite_self]
theorem kept_setField (s : State) (a1 : Nat) (a2 : FieldSt) : kept (setField s a1 a2) = kept s := by
  unfold setField; simp only [kept_mk, kept_fold]
theorem kept_setFn (s : State) (a1 : Nat) (a2 : FnSt) : kept (setFn s a1 a2) = kept s := by
  unfold setFn; simp only [kept_mk, kept_fold]
theorem kept_setHed (s : State) (a1 : Nat) (a2 : Hed) : kept (setHed s a1 a2) = kept s := by
  unfold setHed; simp only [kept_mk, kept_fold]
theorem kept_setMed (s : State) (a1 : Nat) (a2 : Med) : kept (setMed s a1 a2) = kept s := by
  unfold setMed; simp only [kept_mk, kept_fold]
theorem kept_setSeg (s : State) (a1 : Nat) (a2 : Nat) (a3 : Seg) : kept (setSeg s a1 a2 a3) = kept s := by
  unfold setSeg; simp only [kept_mk, kept_fold]
theorem kept_setTie (s : State) (a1 : Nat) (a2 : Tie) : kept (setTie s a1 a2) = kept s := by
  unfold setTie; simp only [kept_mk, kept_fold]
theorem kept_startPage (s : State) (a1 : Nat) (a2 : List Byte) : kept (startPage s a1 a2) = kept s := by
  unfold startPage; simp only [kept_mk, kept_fold]
theorem kept_stewardReturn {s : State} {u : State} (h : stewardReturn s = some u) : kept u = kept s := by
  unfold stewardReturn at h; (repeat' split at h) <;> first | (simp only [reduceCtorEq] at h; done) | (simp only [Option.some.injEq] at h; subst h; (repeat' split) <;> first | with_reducible rfl | (simp only [kept_mk, kept_fold, apply_ite kept, ite_self]; done))
theorem kept_tapFall (s : State) : kept (tapFall s) = kept s := by
  unfold tapFall; dsimp only; (repeat' split) <;> first | with_reducible rfl | (simp only [kept_mk, kept_fold, kept_foldl, implies_true]; done)
theorem kept_tapRise (a0 : Bool) (a1 : Bool) (s : State) : kept (tapRise a0 a1 s) = kept s := by
  unfold tapRise; dsimp only; (repeat' split) <;> first | with_reducible rfl | (simp only [kept_mk, kept_fold]; done)
theorem kept_tieAct {s : State} {x y d : Nat} {f : Nat × Nat → Tie → Option State} {u : State} (h : tieAct s x y d f = some u)
    (hf : ∀ p v w, f p v = some w → kept w = kept s) : kept u = kept s := by
  unfold tieAct at h
  split at h
  · dsimp only at h; split at h
    · simp only [reduceCtorEq] at h
    · exact hf _ _ _ h
  · simp only [reduceCtorEq] at h
theorem kept_timeCtl (a0 : Word) (s : State) : kept (timeCtl a0 s) = kept s := by
  unfold timeCtl; simp only [kept_mk, kept_fold, apply_ite kept, ite_self]
theorem kept_trayRead {a0 : Option Nat} {a1 : Option Int} {s : State} {u : State} (h : trayRead a0 a1 s = some u) : kept u = kept s := by
  unfold trayRead at h; dsimp only at h; (repeat' split at h) <;> first | (simp only [reduceCtorEq] at h; done) | (simp only [Option.some.injEq] at h; subst h; (repeat' split) <;> first | with_reducible rfl | (simp only [kept_mk, kept_fold, apply_ite kept, ite_self]; done))
theorem kept_unwrote (s : State) : kept (unwrote s) = kept s := by
  unfold unwrote; simp only [kept_mk, kept_fold]
theorem kept_violate (s : State) (a1 : Option Nat) : kept (violate s a1) = kept s := by
  unfold violate; simp only [kept_mk, kept_fold]
theorem kept_vstbyReturn {s : State} {u : State} (h : vstbyReturn s = some u) : kept u = kept s := by
  unfold vstbyReturn at h; (repeat' split at h) <;> first | (simp only [reduceCtorEq] at h; done) | (simp only [Option.some.injEq] at h; subst h; (repeat' split) <;> first | with_reducible rfl | (simp only [kept_mk, kept_fold, apply_ite kept, ite_self]; done))
theorem kept_wrote (s : State) : kept (wrote s) = kept s := by
  unfold wrote; simp only [kept_mk, kept_fold]
theorem kept_activity (s : State) (a1 : Nat) (a2 : Nat) (a3 : Nat) (a4 : Nat) : kept (activity s a1 a2 a3 a4) = kept s := by
  unfold activity; (repeat' split) <;> first | with_reducible rfl | (simp only [kept_mk, kept_fold, kept_setField]; done)
theorem kept_barSel (a0 : Nat) (a1 : Word) (s : State) : kept (barSel a0 a1 s) = kept s := by
  unfold barSel; simp only [kept_mk, kept_fold, kept_foldl, implies_true, kept_setBd]
theorem kept_checkCmd (a0 : Fn) (a1 : Nat) (s : State) : kept (checkCmd a0 a1 s) = kept s := by
  unfold checkCmd; simp only [kept_mk, kept_fold, apply_ite kept, ite_self, kept_setBd]
theorem kept_signal (s : State) (a1 : Nat) (a2 : Nat) : kept (signal s a1 a2) = kept s := by
  unfold signal; simp only [kept_mk, kept_fold, apply_ite kept, ite_self, kept_setFn]
theorem kept_sigBoard (s : State) (a1 : Nat) : kept (sigBoard s a1) = kept s := by
  unfold sigBoard; simp only [kept_signal]
theorem kept_checkPassEnd {a0 : Nat} {a1 : Option (List Byte)} {a2 : List Byte} {a3 : Option (List Byte)} {s : State} {u : State} (h : checkPassEnd a0 a1 a2 a3 s = some u) : kept u = kept s := by
  unfold checkPassEnd at h; (try dsimp only at h); (repeat' split at h) <;> first | (simp only [reduceCtorEq] at h; done) | (simp only [Option.some.injEq] at h; subst h; (repeat' split) <;> first | with_reducible rfl | (simp only [kept_mk, kept_fold, kept_foldl, implies_true, apply_ite kept, ite_self, kept_sigBoard, kept_setBd]; done))
theorem kept_commitMark (a0 : DefectJob) (a1 : Bool) (s : State) : kept (commitMark a0 a1 s) = kept s := by
  unfold commitMark; simp only [kept_mk, kept_fold, apply_ite kept, ite_self, kept_setBd]
theorem kept_completeGo (s : State) (a1 : Nat) (a2 : Nat) (a3 : Nat) (a4 : Option Nat) : kept (completeGo s a1 a2 a3 a4) = kept s := by
  induction a3 generalizing s a4 with
  | zero => rfl
  | succ n ih => unfold completeGo; dsimp only; split <;> simp only [ih, kept_setBd]
theorem kept_confirmTimeout {a0 : Nat} {s : State} {u : State} (h : confirmTimeout a0 s = some u) : kept u = kept s := by
  unfold confirmTimeout at h; dsimp only at h; (repeat' split at h) <;> first | (simp only [reduceCtorEq] at h; done) | (simp only [Option.some.injEq] at h; subst h; (repeat' split) <;> first | with_reducible rfl | (simp only [kept_mk, kept_fold, apply_ite kept, ite_self, kept_pwrEvent, kept_setField]; done))
theorem kept_droopTrigger {a0 : Nat} {s : State} {u : State} (h : droopTrigger a0 s = some u) : kept u = kept s := by
  unfold droopTrigger at h; dsimp only at h; (repeat' split at h) <;> first | (simp only [reduceCtorEq] at h; done) | (simp only [Option.some.injEq] at h; subst h; (repeat' split) <;> first | with_reducible rfl | (simp only [kept_mk, kept_fold, apply_ite kept, ite_self, kept_setField]; done))
theorem kept_engineQuiescent {a0 : Nat} {a1 : Nat} {a2 : Nat} {s : State} {u : State} (h : engineQuiescent a0 a1 a2 s = some u) : kept u = kept s := by
  unfold engineQuiescent at h; dsimp only at h; (repeat' split at h) <;> first | (simp only [reduceCtorEq] at h; done) | (simp only [Option.some.injEq] at h; subst h; (repeat' split) <;> first | with_reducible rfl | (simp only [kept_mk, kept_fold, apply_ite kept, ite_self, kept_setMed]; done))
theorem kept_faultBrick (s : State) (a1 : Nat) (a2 : Nat) (a3 : Nat) (a4 : Brick) (a5 : Nat) (a6 : Nat) (a7 : Nat) (a8 : Word) : kept (faultBrick s a1 a2 a3 a4 a5 a6 a7 a8) = kept s := by
  unfold faultBrick; simp only [kept_mk, kept_fold, apply_ite kept, ite_self, kept_setB]
theorem kept_flowOkRise {s : State} {u : State} (h : flowOkRise s = some u) : kept u = kept s := by
  unfold flowOkRise at h; (repeat' split at h) <;> first | (simp only [reduceCtorEq] at h; done) | (simp only [Option.some.injEq] at h; subst h; (repeat' split) <;> first | with_reducible rfl | (simp only [kept_mk, kept_fold, apply_ite kept, ite_self, kept_railsOn]; done))
theorem kept_freshLinks (a0 : Nat) (s : State) : kept (freshLinks a0 s) = kept s := by
  unfold freshLinks; simp only [kept_clearEdges, kept_clearTies]
theorem kept_holdFetch (s : State) (a1 : Nat) (a2 : Brick) : kept (holdFetch s a1 a2) = kept s := by
  unfold holdFetch; simp only [kept_mk, kept_fold, kept_setB]
theorem kept_linkTrained {a0 : Nat} {a1 : Nat} {s : State} {u : State} (h : linkTrained a0 a1 s = some u) : kept u = kept s := by
  unfold linkTrained at h; (repeat' split at h) <;> first | (simp only [reduceCtorEq] at h; done) | (simp only [Option.some.injEq] at h; subst h; (repeat' split) <;> first | with_reducible rfl | (simp only [kept_mk, kept_fold, apply_ite kept, ite_self, kept_setEnd]; done))
theorem kept_loadBarClass (a0 : Nat) (s : State) : kept (loadBarClass a0 s) = kept s := by
  unfold loadBarClass; simp only [kept_mk, kept_fold, kept_foldl, implies_true, apply_ite kept, ite_self, kept_setBd]
theorem kept_loadReadFailed {a0 : Nat} {s : State} {u : State} (h : loadReadFailed a0 s = some u) : kept u = kept s := by
  unfold loadReadFailed at h; (try dsimp only at h); (repeat' split at h) <;> first | (simp only [reduceCtorEq] at h; done) | (simp only [Option.some.injEq] at h; subst h; (repeat' split) <;> first | with_reducible rfl | (simp only [kept_mk, kept_fold, kept_foldl, implies_true, apply_ite kept, ite_self, kept_sigBoard, kept_setBd]; done))
theorem kept_mapMesh (a0 : FieldSt → FieldSt) (s : State) : kept (mapMesh a0 s) = kept s := by
  unfold mapMesh; simp only [kept_foldl, implies_true, kept_setField]
theorem kept_medCplRead (a0 : Nat) (a1 : Nat) (s : State) : kept (medCplRead a0 a1 s) = kept s := by
  unfold medCplRead; simp only [kept_mk, kept_fold, kept_setMed]
theorem kept_medFltSel (a0 : Nat) (a1 : Nat) (a2 : Word) (s : State) : kept (medFltSel a0 a1 a2 s) = kept s := by
  unfold medFltSel; simp only [kept_mk, kept_fold, kept_foldl, implies_true, apply_ite kept, ite_self, kept_setMed]
theorem kept_modBd (s : State) (a1 : Nat) (a2 : Board → Board) : kept (modBd s a1 a2) = kept s := by
  unfold modBd; simp only [kept_setBd]
theorem kept_medReset (a0 : Nat) (a1 : Nat) (s : State) : kept (medReset a0 a1 s) = kept s := by
  unfold medReset; (try dsimp only); (repeat' split) <;> first | with_reducible rfl | (simp only [kept_mk, kept_fold, kept_foldl, implies_true, apply_ite kept, ite_self, kept_setMed, kept_modBd, kept_sigBoard]; done)
theorem kept_sigClock (s : State) : kept (sigClock s) = kept s := by
  unfold sigClock; simp only [kept_signal]
theorem kept_modHed (s : State) (a1 : Nat) (a2 : Hed → Hed) : kept (modHed s a1 a2) = kept s := by
  unfold modHed; simp only [kept_setHed]
theorem kept_setPortP (s : State) (a1 : Nat) (a2 : Nat) (a3 : Port) : kept (setPortP s a1 a2 a3) = kept s := by
  unfold setPortP; simp only [kept_mk, kept_fold, kept_modHed]
theorem kept_setSlot (s : State) (a1 : Nat) (a2 : Nat) (a3 : Slot) : kept (setSlot s a1 a2 a3) = kept s := by
  unfold setSlot; simp only [kept_mk, kept_fold, kept_modHed]
theorem kept_dropStale (s : State) (a1 : Nat) : kept (dropStale s a1) = kept s := by
  unfold dropStale; simp only [kept_mk, kept_fold, kept_modHed]
theorem kept_deliverNotice (s : State) (a1 : Nat) (a2 : DUnit) : kept (deliverNotice s a1 a2) = kept s := by
  unfold deliverNotice; simp only [kept_mk, kept_fold, apply_ite kept, ite_self, kept_dropStale, kept_modHed]
theorem kept_deliver (s : State) (a1 : Nat) (a2 : DUnit) : kept (deliver s a1 a2) = kept s := by
  unfold deliver; (repeat' split) <;> first | with_reducible rfl | (simp only [kept_mk, kept_fold, apply_ite kept, ite_self, kept_setSlot, kept_dropStale, kept_deliverNotice]; done)
theorem kept_sigStesy (s : State) (a1 : Nat) : kept (sigStesy s a1) = kept s := by
  unfold sigStesy; simp only [kept_signal]
theorem kept_dropNoroute (s : State) (a1 : Nat) (a2 : Nat) : kept (dropNoroute s a1 a2) = kept s := by
  unfold dropNoroute; simp only [kept_mk, kept_fold, apply_ite kept, ite_self, kept_sigStesy, kept_modHed]
theorem kept_dropTtl (s : State) (a1 : Nat) : kept (dropTtl s a1) = kept s := by
  unfold dropTtl; simp only [kept_mk, kept_fold, kept_sigStesy, kept_modHed]
theorem kept_forwardUnit (s : State) (a1 : Nat) (a2 : DUnit) (a3 : Bool) : kept (forwardUnit s a1 a2 a3) = kept s := by
  unfold forwardUnit; (repeat' split) <;> first | with_reducible rfl | (simp only [kept_mk, kept_fold, apply_ite kept, ite_self, kept_dropNoroute, kept_dropTtl, kept_setPortP]; done)
theorem kept_leaveBuffer (s : State) (a1 : Nat) (a2 : Nat) (a3 : DUnit) : kept (leaveBuffer s a1 a2 a3) = kept s := by
  unfold leaveBuffer; simp only [kept_mk, kept_fold, apply_ite kept, ite_self, kept_setPortP, kept_deliver, kept_forwardUnit]
theorem kept_drainRx (s : State) (a1 : Nat) (a2 : Nat) : kept (drainRx s a1 a2) = kept s := by
  unfold drainRx; simp only [kept_mk, kept_fold, kept_foldl, implies_true, kept_leaveBuffer, kept_setPortP]
theorem kept_drainAllRx (s : State) : kept (drainAllRx s) = kept s := by
  unfold drainAllRx; simp only [kept_foldl, implies_true, kept_drainRx]
theorem kept_resumeEnd (s : State) : kept (resumeEnd s) = kept s := by
  unfold resumeEnd; (try dsimp only); (repeat' split) <;> first | with_reducible rfl | (simp only [kept_mk, kept_fold, kept_foldl, implies_true, apply_ite kept, ite_self, kept_sigClock, kept_drainAllRx]; done)
theorem kept_meshLocked {a0 : Nat} {s : State} {u : State} (h : meshLocked a0 s = some u) : kept u = kept s := by
  unfold meshLocked at h; (try dsimp only at h); (repeat' split at h) <;> first | (simp only [reduceCtorEq] at h; done) | (simp only [Option.some.injEq] at h; subst h; (repeat' split) <;> first | with_reducible rfl | (simp only [kept_mk, kept_fold, kept_foldl, implies_true, apply_ite kept, ite_self, kept_resumeEnd, kept_setField]; done))
theorem kept_modB (s : State) (a1 : Nat) (a2 : Brick → Brick) : kept (modB s a1 a2) = kept s := by
  unfold modB; simp only [kept_setB]
theorem kept_modFn (s : State) (a1 : Nat) (a2 : FnSt → FnSt) : kept (modFn s a1 a2) = kept s := by
  unfold modFn; simp only [kept_setFn]
theorem kept_modMed (s : State) (a1 : Nat) (a2 : Med → Med) : kept (modMed s a1 a2) = kept s := by
  unfold modMed; simp only [kept_setMed]
theorem kept_onRefuse {a0 : Nat} {a1 : List Word} {s : State} {u : State} (h : onRefuse a0 a1 s = some u) : kept u = kept s := by
  unfold onRefuse at h; (repeat' split at h) <;> first | (simp only [reduceCtorEq] at h; done) | (simp only [Option.some.injEq] at h; subst h; (repeat' split) <;> first | with_reducible rfl | (simp only [kept_setBd]; done))
theorem kept_perstDeassert {a0 : Nat} {s : State} {u : State} (h : perstDeassert a0 s = some u) : kept u = kept s := by
  unfold perstDeassert at h; (repeat' split at h) <;> first | (simp only [reduceCtorEq] at h; done) | (simp only [Option.some.injEq] at h; subst h; (repeat' split) <;> first | with_reducible rfl | (simp only [apply_ite kept, ite_self, kept_setEnd]; done))
theorem kept_pmemHiRead (s : State) (a1 : Nat) (a2 : Brick) : kept (pmemHiRead s a1 a2) = kept s := by
  unfold pmemHiRead; simp only [kept_mk, kept_fold, kept_setB]
theorem kept_pmemLoRead (s : State) (a1 : Nat) (a2 : Brick) : kept (pmemLoRead s a1 a2) = kept s := by
  unfold pmemLoRead pmemRead; dsimp only; split <;> simp only [kept_mk, kept_fold, kept_setB]
theorem kept_ptCommit (a0 : Nat) (a1 : Nat) (a2 : Word) (s : State) : kept (ptCommit a0 a1 a2 s) = kept s := by
  unfold ptCommit; dsimp only; split
  · rfl
  · rw [kept_resp, kept_setMed]
theorem kept_raiseBoard (s : State) (a1 : Nat) (a2 : Nat) (a3 : Word) : kept (raiseBoard s a1 a2 a3) = kept s := by
  unfold raiseBoard; simp only [kept_raiseAt]
theorem kept_rephaseEnd {a0 : Nat} {s : State} {u : State} (h : rephaseEnd a0 s = some u) : kept u = kept s := by
  unfold rephaseEnd at h; dsimp only at h; (repeat' split at h) <;> first | (simp only [reduceCtorEq] at h; done) | (simp only [Option.some.injEq] at h; subst h; (repeat' split) <;> first | with_reducible rfl | (simp only [kept_mk, kept_fold, apply_ite kept, ite_self, kept_setField]; done))
theorem kept_resume (a0 : Nat) (a1 : Nat) (a2 : Nat) (s : State) : kept (resume a0 a1 a2 s) = kept s := by
  unfold resume; dsimp only; (repeat' split) <;> first | with_reducible rfl | (simp only [kept_mk, kept_fold, apply_ite kept, ite_self, kept_setMed]; done)
theorem kept_rptPosRead (a0 : Nat) (s : State) (a2 : Nat) (a3 : Brick) : kept (rptPosRead a0 s a2 a3) = kept s := by
  unfold rptPosRead; simp only [kept_mk, kept_fold, kept_setB]
theorem kept_schedArm (a0 : Nat) (a1 : Word) (s : State) : kept (schedArm a0 a1 s) = kept s := by
  unfold schedArm; simp only [kept_mk, kept_fold, apply_ite kept, ite_self, kept_setEnt]
theorem kept_schedCancel {a0 : Nat} {a1 : Word} {s : State} {u : State} (h : schedCancel a0 a1 s = some u) : kept u = kept s := by
  unfold schedCancel at h; (repeat' split at h) <;> first | (simp only [reduceCtorEq] at h; done) | (simp only [Option.some.injEq] at h; subst h; (repeat' split) <;> first | with_reducible rfl | (simp only [kept_mk, kept_fold, apply_ite kept, ite_self, kept_setEnt]; done))
theorem kept_scrub {a0 : Nat} {a1 : Nat} {s : State} {u : State} (h : scrub a0 a1 s = some u) : kept u = kept s := by
  unfold scrub at h; dsimp only at h; (repeat' split at h) <;> first | (simp only [reduceCtorEq] at h; done) | (simp only [Option.some.injEq] at h; subst h; (repeat' split) <;> first | with_reducible rfl | (simp only [kept_mk, kept_fold, apply_ite kept, ite_self, kept_setMed]; done))
theorem kept_seenFlags (old s : State) : kept (seenFlags old s) = kept s := by
  unfold seenFlags; dsimp only; (repeat' split) <;> simp only [kept_pwrEvent]
theorem kept_seqStart (a0 : Nat) (s : State) : kept (seqStart a0 s) = kept s := by
  unfold seqStart; simp only [kept_mk, kept_fold, apply_ite kept, ite_self, kept_setField]
theorem kept_sramDataRead {s : State} {a1 : Nat} {a2 : Nat} {a3 : Brick} {u : State} (h : sramDataRead s a1 a2 a3 = some u) : kept u = kept s := by
  unfold sramDataRead at h; dsimp only at h; (repeat' split at h) <;> first | (simp only [reduceCtorEq] at h; done) | (simp only [Option.some.injEq] at h; subst h; (repeat' split) <;> first | with_reducible rfl | (simp only [kept_mk, kept_fold, apply_ite kept, ite_self, kept_setB]; done))
theorem kept_stalemateListReady {a0 : Nat} {s : State} {u : State} (h : stalemateListReady a0 s = some u) : kept u = kept s := by
  unfold stalemateListReady at h; dsimp only at h; (repeat' split at h) <;> first | (simp only [reduceCtorEq] at h; done) | (simp only [Option.some.injEq] at h; subst h; (repeat' split) <;> first | with_reducible rfl | (simp only [kept_mk, kept_fold, apply_ite kept, ite_self, kept_setBd]; done))
theorem kept_stretchStep {a0 : Nat} {s : State} {u : State} (h : stretchStep a0 s = some u) : kept u = kept s := by
  unfold stretchStep at h; dsimp only at h; (repeat' split at h) <;> first | (simp only [reduceCtorEq] at h; done) | (simp only [Option.some.injEq] at h; subst h; (repeat' split) <;> first | with_reducible rfl | (simp only [kept_mk, kept_fold, apply_ite kept, ite_self, kept_setField]; done))
theorem kept_tckEdge (a0 : Bool) (a1 : Bool) (a2 : Bool) (a3 : Bool) (s : State) : kept (tckEdge a0 a1 a2 a3 s) = kept s := by
  unfold tckEdge; simp only [kept_mk, kept_fold, apply_ite kept, ite_self, kept_tapRise, kept_tapFall]
theorem kept_touch (s : State) (a1 : Nat) (a2 : Nat) : kept (touch s a1 a2) = kept s := by
  unfold touch; (repeat' split) <;> first | with_reducible rfl | (simp only [kept_mk, kept_fold, kept_modBd]; done)
theorem kept_tieSend {a0 : Nat} {a1 : Nat} {a2 : Nat} {a3 : Nat} {s : State} {u : State} (h : tieSend a0 a1 a2 a3 s = some u) : kept u = kept s := by
  unfold tieSend at h; refine kept_tieAct h (fun _ _ u h => ?_); (try dsimp only at h); (repeat' split at h) <;> first | (simp only [reduceCtorEq] at h; done) | (simp only [Option.some.injEq] at h; subst h; (repeat' split) <;> first | with_reducible rfl | (simp only [kept_mk, kept_fold, kept_foldl, implies_true, apply_ite kept, ite_self, kept_touch, kept_setTie]; done))
theorem kept_trEnd (s : State) (a1 : TSrc) (a2 : TR) (a3 : Nat) : kept (trEnd s a1 a2 a3) = kept s := by
  unfold trEnd; (repeat' split) <;> first | with_reducible rfl | (simp only [kept_mk, kept_fold, apply_ite kept, ite_self, kept_setMed]; done)
theorem kept_vigilLoss {s : State} {u : State} (h : vigilLoss s = some u) : kept u = kept s := by
  unfold vigilLoss at h; (repeat' split at h) <;> first | (simp only [reduceCtorEq] at h; done) | (simp only [Option.some.injEq] at h; subst h; (repeat' split) <;> first | with_reducible rfl | (simp only [kept_mk, kept_fold, apply_ite kept, ite_self, kept_applyPage]; done))
theorem kept_waferCeilings (a0 : Nat) (s : State) : kept (waferCeilings a0 s) = kept s := by
  unfold waferCeilings; simp only [kept_mk, kept_fold, kept_foldl, implies_true, apply_ite kept, ite_self, kept_setField]
theorem kept_wrRefused (s : State) (a1 : Nat) (a2 : Brick) : kept (wrRefused s a1 a2) = kept s := by
  unfold wrRefused; simp only [kept_mk, kept_fold, kept_setB]
theorem kept_addCred (s : State) (a1 : Nat) (a2 : Nat) (a3 : Nat) : kept (addCred s a1 a2 a3) = kept s := by
  unfold addCred; simp only [kept_mk, kept_fold, kept_modB]
theorem kept_arrivalCounted {a0 : Nat} {a1 : Nat} {a2 : Nat} {s : State} {u : State} (h : arrivalCounted a0 a1 a2 s = some u) : kept u = kept s := by
  unfold arrivalCounted at h; dsimp only at h; (repeat' split at h) <;> first | (simp only [reduceCtorEq] at h; done) | (simp only [Option.some.injEq] at h; subst h; (repeat' split) <;> first | with_reducible rfl | (simp only [kept_mk, kept_fold, apply_ite kept, ite_self, kept_setBd, kept_completeGo]; done))
theorem kept_beatDone (s : State) (a1 : Nat) (a2 : Nat) (a3 : Nat) (a4 : Nat) (a5 : Desc) (a6 : Bool) : kept (beatDone s a1 a2 a3 a4 a5 a6) = kept s := by
  unfold beatDone; simp only [kept_mk, kept_fold, apply_ite kept, ite_self, kept_modMed, kept_setField, kept_modBd]
theorem kept_boardRecord (a0 : Nat) (a1 : Raised) (a2 : Bool) (a3 : Bool) (s : State) : kept (boardRecord a0 a1 a2 a3 s) = kept s := by
  unfold boardRecord; simp only [kept_mk, kept_fold, apply_ite kept, ite_self, kept_modBd]
theorem kept_clearRings (s : State) (a1 : Nat) : kept (clearRings s a1) = kept s := by
  unfold clearRings; simp only [kept_mk, kept_fold, apply_ite kept, ite_self, kept_modHed]
theorem kept_closeSlots (s : State) (a1 : Nat) (a2 : Bool) : kept (closeSlots s a1 a2) = kept s := by
  unfold closeSlots; simp only [kept_mk, kept_fold, apply_ite kept, ite_self, kept_modHed]
theorem kept_countMarks (s : State) (a1 : Nat) (a2 : Nat) (a3 : Nat) (a4 : Brick) : kept (countMarks s a1 a2 a3 a4) = kept s := by
  unfold countMarks; simp only [kept_activity]
theorem kept_cselWrite (a0 : Nat) (a1 : Word) (s : State) : kept (cselWrite a0 a1 s) = kept s := by
  unfold cselWrite; simp only [kept_mk, kept_fold, apply_ite kept, ite_self, kept_modHed]
theorem kept_descGo (a0 : Nat) (a1 : Nat) (a2 : Nat) (s : State) : kept (descGo a0 a1 a2 s) = kept s := by
  unfold descGo; dsimp only; (repeat' split) <;> first | with_reducible rfl | (simp only [kept_mk, kept_fold, apply_ite kept, ite_self, kept_setMed, kept_modBd]; done)
theorem kept_dramStep (s : State) : kept (dramStep s) = kept s := by
  unfold dramStep; simp only [kept_mk, kept_fold, kept_foldl, implies_true, kept_modMed, kept_modHed]
theorem kept_energyPublish {a0 : List Nat} {a1 : Nat} {s : State} {u : State} (h : energyPublish a0 a1 s = some u) : kept u = kept s := by
  unfold energyPublish at h; dsimp only at h
  split at h
  · simp only [reduceCtorEq] at h
  · simp only [Option.some.injEq] at h; subst h
    rw [kept_mk, kept_fold, kept_foldl, kept_foldl]
    · intro s p; rw [kept_setField]
    · intro s p; rw [kept_modBd]
theorem kept_expertFault (s : State) (a1 : Nat) (a2 : Nat) (a3 : Nat) (a4 : Nat) (a5 : Brick) (a6 : Nat) (a7 : Nat) (a8 : Nat) (a9 : Nat) : kept (expertFault s a1 a2 a3 a4 a5 a6 a7 a8 a9) = kept s := by
  unfold expertFault; simp only [apply_ite kept, ite_self, kept_faultBrick]
theorem kept_faultBoardReset {a0 : Nat} {s : State} {u : State} (h : faultBoardReset a0 s = some u) : kept u = kept s := by
  unfold faultBoardReset at h; dsimp only at h; (repeat' split at h) <;> first | (simp only [reduceCtorEq] at h; done) | (simp only [Option.some.injEq] at h; subst h; (repeat' split) <;> first | with_reducible rfl | (simp only [kept_mk, kept_fold, apply_ite kept, ite_self, kept_raiseBoard, kept_setBd]; done))
theorem kept_fetchFault (s : State) (a1 : Nat) (a2 : Nat) (a3 : Nat) (a4 : Brick) (a5 : Nat) (a6 : Nat) (a7 : Word) : kept (fetchFault s a1 a2 a3 a4 a5 a6 a7) = kept s := by
  unfold fetchFault; simp only [kept_mk, kept_fold, kept_faultBrick]
theorem kept_setCh (s : State) (a1 : Nat) (a2 : Nat) (a3 : Chan) : kept (setCh s a1 a2 a3) = kept s := by
  unfold setCh; simp only [kept_mk, kept_fold, kept_modHed]
theorem kept_abandonWords (s : State) (a1 : Nat) (a2 : Nat) : kept (abandonWords s a1 a2) = kept s := by
  unfold abandonWords; dsimp only; (repeat' split) <;> first | with_reducible rfl | (simp only [kept_mk, kept_fold, kept_setCh, kept_modBd]; done)
theorem kept_seqMasks (a0 : Nat) (a1 : Nat) (a2 : Option Nat) (s : State) : kept (seqMasks a0 a1 a2 s) = kept s := by
  unfold seqMasks; (try dsimp only); (repeat' split) <;> first | with_reducible rfl | (simp only [kept_mk, kept_fold, kept_foldl, implies_true, apply_ite kept, ite_self, kept_modBd]; done)
theorem kept_endCur (s : State) (a1 : Nat) (a2 : Nat) (a3 : Nat) : kept (endCur s a1 a2 a3) = kept s := by
  unfold endCur; (try dsimp only); (repeat' split) <;> first | with_reducible rfl | (simp only [kept_mk, kept_fold, kept_foldl, implies_true, apply_ite kept, ite_self, kept_seqMasks, kept_setCh]; done)
theorem kept_originate (s : State) (a1 : Nat) (a2 : DUnit) : kept (originate s a1 a2) = kept s := by
  unfold originate; simp only [apply_ite kept, ite_self, kept_deliver, kept_forwardUnit]
theorem kept_sendNotice (s : State) (a1 : Nat) (a2 : Nat) (a3 : Nat) (a4 : Nat) (a5 : Word) (a6 : Word) (a7 : Word) : kept (sendNotice s a1 a2 a3 a4 a5 a6 a7) = kept s := by
  unfold sendNotice; simp only [kept_originate]
theorem kept_sendAll (s : State) (a1 : Nat) (a2 : Nat) (a3 : Nat) (a4 : Word) (a5 : Word) (a6 : Word) : kept (sendAll s a1 a2 a3 a4 a5 a6) = kept s := by
  unfold sendAll; simp only [kept_foldl, implies_true, apply_ite kept, ite_self, kept_sendNotice]
theorem kept_armNotice (a0 : Bool) (a1 : Nat) (s : State) : kept (armNotice a0 a1 s) = kept s := by
  unfold armNotice; simp only [apply_ite kept, ite_self, kept_sendAll]
theorem kept_abortBoard (s : State) (a1 : Nat) : kept (abortBoard s a1) = kept s := by
  unfold abortBoard; (try dsimp only); (repeat' split) <;> first | with_reducible rfl | (simp only [kept_mk, kept_fold, kept_foldl, implies_true, apply_ite kept, ite_self, kept_armNotice, kept_abandonWords, kept_endCur]; done)
theorem kept_hardEnd (a0 : Bool) (a1 : Nat) (s : State) : kept (hardEnd a0 a1 s) = kept s := by
  unfold hardEnd; simp only [kept_foldl, implies_true, apply_ite kept, ite_self, kept_abortBoard, kept_endCur]
theorem kept_startDrain (a0 : Nat) (a1 : Bool) (a2 : Bool) (s : State) : kept (startDrain a0 a1 a2 s) = kept s := by
  unfold startDrain; dsimp only; (repeat' split) <;> first | with_reducible rfl | (simp only [kept_mk, kept_fold, apply_ite kept, ite_self, kept_setBd, kept_hardEnd, kept_sendAll, kept_closeSlots]; done)
theorem kept_fieldStart {a0 : Nat} {a1 : Nat} {a2 : Nat} {s : State} {u : State} (h : fieldStart a0 a1 a2 s = some u) : kept u = kept s := by
  unfold fieldStart at h; (try dsimp only at h); (repeat' split at h) <;> first | (simp only [reduceCtorEq] at h; done) | (simp only [Option.some.injEq] at h; subst h; (repeat' split) <;> first | with_reducible rfl | (simp only [kept_mk, kept_fold, kept_foldl, implies_true, apply_ite kept, ite_self, kept_modB, kept_setBd, kept_startDrain]; done))
theorem kept_finishB (s : State) (a1 : Nat) (a2 : Nat) (a3 : Nat) (a4 : Brick) (a5 : Nat) (a6 : Nat) (a7 : Option (Nat × Word)) : kept (finishB s a1 a2 a3 a4 a5 a6 a7) = kept s := by
  unfold finishB; (repeat' split) <;> first | with_reducible rfl | (simp only [kept_setB, kept_faultBrick]; done)
theorem kept_freeRx (s : State) (a1 : Nat) (a2 : Nat) (a3 : Nat) (a4 : Nat) : kept (freeRx s a1 a2 a3 a4) = kept s := by
  unfold freeRx; (repeat' split) <;> first | with_reducible rfl | (simp only [kept_mk, kept_fold, kept_modB]; done)
theorem kept_freqDone (a0 : Nat) (s : State) : kept (freqDone a0 s) = kept s := by
  unfold freqDone; simp only [kept_mk, kept_fold, apply_ite kept, ite_self, kept_seqStart, kept_setField]
theorem kept_fselWrite (a0 : Nat) (a1 : Word) (s : State) : kept (fselWrite a0 a1 s) = kept s := by
  unfold fselWrite; simp only [kept_mk, kept_fold, kept_modHed]
theorem kept_governorLoop {a0 : Nat} {a1 : List Nat} {s : State} {u : State} (h : governorLoop a0 a1 s = some u) : kept u = kept s := by
  unfold governorLoop at h; (repeat' split at h) <;> first | (simp only [reduceCtorEq] at h; done) | (simp only [Option.some.injEq] at h; subst h; (repeat' split) <;> first | with_reducible rfl | (simp only [kept_mk, kept_fold, kept_foldl, implies_true, apply_ite kept, ite_self, kept_setField, kept_waferCeilings, kept_seqStart, kept_seenFlags]; done))
theorem kept_ignoreCmd (s : State) (a1 : Nat) : kept (ignoreCmd s a1) = kept s := by
  unfold ignoreCmd; simp only [kept_mk, kept_fold, kept_modBd]
theorem kept_linkDed (s : State) (a1 : Nat) (a2 : Nat) (a3 : Nat) (a4 : Nat) (a5 : Nat) : kept (linkDed s a1 a2 a3 a4 a5) = kept s := by
  unfold linkDed; simp only [kept_mk, kept_fold, kept_faultBrick]
theorem kept_loadBricks (a0 : List Byte) (a1 : Board) (a2 : Img) (s : State) : kept (loadBricks a0 a1 a2 s) = kept s := by
  unfold loadBricks; dsimp only
  rw [kept_foldl]
  intro s p; split
  · rfl
  · rw [kept_modB]
theorem kept_loadBytes (a0 : Nat) (a1 : Nat) (a2 : List (Nat × Nat × Nat)) (a3 : Nat) (a4 : Nat) (a5 : List Byte) (s : State) : kept (loadBytes a0 a1 a2 a3 a4 a5 s) = kept s := by
  induction a3 generalizing s a4 a5 with
  | zero => rfl
  | succ n ih => unfold loadBytes; dsimp only; (repeat' split) <;> simp only [ih, kept_setMed, kept_raiseBoard]
theorem kept_loadClasses (a0 : Board) (a1 : Img) (a2 : List REnt) (s : State) : kept (loadClasses a0 a1 a2 s) = kept s := by
  unfold loadClasses; dsimp only
  rw [kept_foldl]
  intro s p; split
  · rfl
  · rw [kept_modB]
theorem kept_loadRoles (a0 : List Byte) (a1 : Board) (a2 : Img) (s : State) : kept (loadRoles a0 a1 a2 s) = kept s := by
  unfold loadRoles; simp only [kept_mk, kept_fold, kept_foldl, implies_true, apply_ite kept, ite_self, kept_modMed]
theorem kept_markLink (s : State) (a1 : Nat) (a2 : Nat) (a3 : Nat) : kept (markLink s a1 a2 a3) = kept s := by
  unfold markLink; dsimp only; (repeat' split) <;> first | with_reducible rfl | (simp only [kept_mk, kept_fold, kept_modB]; done)
theorem kept_noteHist (a0 : Raised) (s : State) : kept (noteHist a0 s) = kept s := by
  unfold noteHist; simp only [kept_mk, kept_fold, apply_ite kept, ite_self, kept_modB]
theorem kept_onArm {a0 : Nat} {a1 : List Word} {s : State} {u : State} (h : onArm a0 a1 s = some u) : kept u = kept s := by
  unfold onArm at h; (repeat' split at h) <;> first | (simp only [reduceCtorEq] at h; done) | (simp only [Option.some.injEq] at h; subst h; (repeat' split) <;> first | with_reducible rfl | (simp only [kept_mk, kept_fold, kept_modBd]; done))
theorem kept_onQuiet {a0 : Nat} {a1 : List Word} {s : State} {u : State} (h : onQuiet a0 a1 s = some u) : kept u = kept s := by
  unfold onQuiet at h; (repeat' split at h) <;> first | (simp only [reduceCtorEq] at h; done) | (simp only [Option.some.injEq] at h; subst h; (repeat' split) <;> first | with_reducible rfl | (simp only [kept_mk, kept_fold, apply_ite kept, ite_self, kept_modBd]; done))
theorem kept_openOut (a0 : Nat) (s : State) : kept (openOut a0 s) = kept s := by
  unfold openOut; simp only [kept_mk, kept_fold, apply_ite kept, ite_self, kept_modHed]
theorem kept_pmemHiWrite (a0 : Word) (s : State) (a2 : Nat) (a3 : Brick) : kept (pmemHiWrite a0 s a2 a3) = kept s := by
  unfold pmemHiWrite; simp only [kept_mk, kept_fold, apply_ite kept, ite_self, kept_setB, kept_wrRefused]
theorem kept_pmemLoWrite (a0 : Word) (s : State) (a2 : Nat) (a3 : Brick) : kept (pmemLoWrite a0 s a2 a3) = kept s := by
  unfold pmemLoWrite; simp only [kept_mk, kept_fold, apply_ite kept, ite_self, kept_setB, kept_wrRefused]
theorem kept_pollBrick (a0 : List (Nat × Nat)) (s : State) (a2 : Nat) (a3 : Nat) : kept (pollBrick a0 s a2 a3) = kept s := by
  unfold pollBrick; (repeat' split) <;> first | with_reducible rfl | (simp only [kept_mk, kept_fold, apply_ite kept, ite_self, kept_setB, kept_faultBrick]; done)
theorem kept_pollEdge (a0 : Nat) (s : State) (a2 : Nat × EdgeBr) : kept (pollEdge a0 s a2) = kept s := by
  unfold pollEdge; dsimp only; (repeat' split) <;> first | with_reducible rfl | (simp only [kept_mk, kept_fold, apply_ite kept, ite_self, kept_setEdge, kept_faultBrick]; done)
theorem kept_refreshAll (a0 : Bool) (s : State) : kept (refreshAll a0 s) = kept s := by
  unfold refreshAll; simp only [kept_mk, kept_fold, kept_foldl, implies_true, kept_modMed]
theorem kept_sendArrival (s : State) (a1 : Nat) (a2 : Nat) (a3 : Nat) (a4 : Nat) (a5 : Nat) : kept (sendArrival s a1 a2 a3 a4 a5) = kept s := by
  unfold sendArrival; (repeat' split) <;> first | with_reducible rfl | (simp only [kept_mk, kept_fold, kept_modBd]; done)
theorem kept_sendPending (a0 : Nat) (s : State) : kept (sendPending a0 s) = kept s := by
  unfold sendPending; simp only [kept_mk, kept_fold, kept_foldl, implies_true, apply_ite kept, ite_self, kept_signal, kept_setFn]
theorem kept_setTargets (a0 : Word) (s : State) : kept (setTargets a0 s) = kept s := by
  unfold setTargets; simp only [kept_mk, kept_fold, kept_foldl, implies_true, kept_seenFlags, kept_setField]
theorem kept_sigDev (s : State) : kept (sigDev s) = kept s := by
  unfold sigDev; simp only [kept_signal]
theorem kept_sigFault (s : State) (a1 : Nat) : kept (sigFault s a1) = kept s := by
  unfold sigFault; simp only [kept_signal]
theorem kept_sigPower (s : State) : kept (sigPower s) = kept s := by
  unfold sigPower; simp only [kept_signal]
theorem kept_sigSlate (s : State) : kept (sigSlate s) = kept s := by
  unfold sigSlate; simp only [kept_signal]
theorem kept_sramDataWrite {a0 : Word} {s : State} {a2 : Nat} {a3 : Nat} {a4 : Brick} {u : State} (h : sramDataWrite a0 s a2 a3 a4 = some u) : kept u = kept s := by
  unfold sramDataWrite at h; dsimp only at h; (repeat' split at h) <;> first | (simp only [reduceCtorEq] at h; done) | (simp only [Option.some.injEq] at h; subst h; (repeat' split) <;> first | with_reducible rfl | (simp only [kept_mk, kept_fold, apply_ite kept, ite_self, kept_wrRefused, kept_setB]; done))
theorem kept_stillTcyc (a0 : Nat) (s : State) : kept (stillTcyc a0 s) = kept s := by
  unfold stillTcyc; simp only [kept_mk, kept_fold, apply_ite kept, ite_self, kept_modBd]
theorem kept_streamFault (s : State) (a1 : Nat) (a2 : Nat) (a3 : Nat) (a4 : Brick) (a5 : Nat) (a6 : Nat) (a7 : Nat) (a8 : Nat) : kept (streamFault s a1 a2 a3 a4 a5 a6 a7 a8) = kept s := by
  unfold streamFault; simp only [kept_faultBrick]
theorem kept_streamsBegin (a0 : Nat) (s : State) : kept (streamsBegin a0 s) = kept s := by
  unfold streamsBegin; simp only [kept_foldl, implies_true, apply_ite kept, ite_self, kept_modB]
theorem kept_subField (a0 : Nat) (s : State) : kept (subField a0 s) = kept s := by
  unfold subField; simp only [kept_mk, kept_fold, kept_foldl, implies_true, kept_modBd, kept_setField]
theorem kept_switched (s : State) : kept (switched s) = kept s := by
  unfold switched; simp only [kept_mk, kept_fold, apply_ite kept, ite_self, kept_mapMesh]
theorem kept_tieDies (s : State) (a1 : Nat) (a2 : Nat) (a3 : Nat) (a4 : Nat) (a5 : Tie) (a6 : optParam Nat uRouter) : kept (tieDies s a1 a2 a3 a4 a5 a6) = kept s := by
  unfold tieDies; dsimp only; (repeat' split) <;> first | with_reducible rfl | (simp only [kept_mk, kept_fold, kept_setTie, kept_faultBrick]; done)
theorem kept_tileBind (a0 : Fn) (a1 : Word) (s : State) : kept (tileBind a0 a1 s) = kept s := by
  unfold tileBind; simp only [kept_mk, kept_fold, apply_ite kept, ite_self, kept_modFn]
theorem kept_unsupported {a0 : Fn} {s : State} {u : State} (h : unsupported a0 s = some u) : kept u = kept s := by
  unfold unsupported at h; (repeat' split at h) <;> first | (simp only [reduceCtorEq] at h; done) | (simp only [Option.some.injEq] at h; subst h; (repeat' split) <;> first | with_reducible rfl | (simp only [kept_mk, kept_fold, apply_ite kept, ite_self, kept_modFn]; done))
theorem kept_voltageRead {a0 : Nat} {a1 : Nat} {s : State} {u : State} (h : voltageRead a0 a1 s = some u) : kept u = kept s := by
  unfold voltageRead at h; dsimp only at h
  (repeat' split at h) <;> first | (simp only [reduceCtorEq] at h; done) | (simp only [Option.some.injEq] at h; subst h; (repeat' split) <;> first | (simp only [kept_setField, kept_seqStart]; done) | rfl)
theorem kept_wrCfg (s : State) (a1 : Nat) (a2 : Nat) (a3 : Word) (a4 : Brick) : kept (wrCfg s a1 a2 a3 a4) = kept s := by
  unfold wrCfg; simp only [apply_ite kept, ite_self, kept_wrote, kept_setB, kept_wrRefused]
theorem kept_tcycAct {s : State} {x y t : Nat} {f : Nat → Brick → Option State} {u : State} (h : tcycAct s x y t f = some u)
    (hf : ∀ k b v, f k b = some v → kept v = kept s) : kept u = kept s := by
  unfold tcycAct at h
  split at h
  · simp only [reduceCtorEq] at h
  · split at h
    · simp only [reduceCtorEq] at h
    · split at h
      · simp only [reduceCtorEq] at h
      · simp only [Option.map_eq_some_iff] at h
        obtain ⟨v, hv, rfl⟩ := h
        rw [kept_countMarks, hf _ _ _ hv]
theorem kept_brickAct {s : State} {x y t : Nat} {f : Nat → Brick → Option State} {u : State} (h : brickAct s x y t f = some u)
    (hf : ∀ k b v, f k b = some v → kept v = kept s) : kept u = kept s := by
  refine kept_tcycAct h (fun k b v hv => ?_)
  exact ite_some hv (fun h => by simp only [reduceCtorEq] at h) (fun h => hf _ _ _ h)
theorem kept_busError (s : State) (a1 : Fn) (a2 : Nat) : kept (busError s a1 a2) = kept s := by
  unfold busError; (repeat' split) <;> first | with_reducible rfl | (simp only [kept_mk, kept_fold, kept_sigDev, kept_modFn]; done)
theorem kept_clearFns (s : State) (a1 : Nat) : kept (clearFns s a1) = kept s := by
  unfold clearFns; simp only [kept_foldl, implies_true, kept_setFn, kept_clearRings]
theorem kept_completionIssue {a0 : Nat} {a1 : Nat} {a2 : Nat} {a3 : Nat} {s : State} {u : State} (h : completionIssue a0 a1 a2 a3 s = some u) : kept u = kept s := by
  unfold completionIssue at h; dsimp only at h; (repeat' split at h) <;> first | (simp only [reduceCtorEq] at h; done) | (simp only [Option.some.injEq] at h; subst h; (repeat' split) <;> first | with_reducible rfl | (simp only [kept_mk, kept_fold, apply_ite kept, ite_self, kept_setMed, kept_modBd, kept_sigBoard]; done))
theorem kept_deliverBranch (s : State) (a1 : Nat) (a2 : Nat) (a3 : Nat) (a4 : Nat) (a5 : Flit) (a6 : Branch) (a7 : Nat) : kept (deliverBranch s a1 a2 a3 a4 a5 a6 a7) = kept s := by
  unfold deliverBranch; (repeat' split) <;> first | with_reducible rfl | (simp only [kept_mk, kept_fold, apply_ite kept, ite_self, kept_modB, kept_setEdge, kept_setTie, kept_linkDed]; done)
theorem kept_edgeMove {a0 : Nat} {a1 : Bool} {a2 : Nat} {a3 : Nat} {s : State} {u : State} (h : edgeMove a0 a1 a2 a3 s = some u) : kept u = kept s := by
  unfold edgeMove at h; (try dsimp only at h); (repeat' split at h) <;> first | (simp only [reduceCtorEq] at h; done) | (simp only [Option.some.injEq] at h; subst h; (repeat' split) <;> first | with_reducible rfl | (simp only [kept_mk, kept_fold, kept_foldl, implies_true, apply_ite kept, ite_self, kept_setEdge, kept_touch, kept_modB]; done))
theorem kept_holdStill (s : State) : kept (holdStill s) = kept s := by
  unfold holdStill; (try dsimp only); (repeat' split) <;> first | with_reducible rfl | (simp only [kept_mk, kept_fold, kept_foldl, implies_true, apply_ite kept, ite_self, kept_modBd]; done)
theorem kept_enterWait (s : State) : kept (enterWait s) = kept s := by
  unfold enterWait; (try dsimp only); (repeat' split) <;> first | with_reducible rfl | (simp only [kept_mk, kept_fold, kept_foldl, implies_true, apply_ite kept, ite_self, kept_refreshAll, kept_mapMesh, kept_sigClock, kept_holdStill]; done)
theorem kept_floorGo (s : State) : kept (floorGo s) = kept s := by
  unfold floorGo; simp only [kept_mk, kept_fold, kept_foldl, implies_true, apply_ite kept, ite_self, kept_pwrEvent, kept_sigPower, kept_setField]
theorem kept_freeRxN (s : State) (a1 : Nat) (a2 : Nat) (a3 : Nat) (a4 : Nat) (a5 : Nat) : kept (freeRxN s a1 a2 a3 a4 a5) = kept s := by
  induction a5 generalizing s with
  | zero => rfl
  | succ n ih => unfold freeRxN; simp only [ih, kept_freeRx]
theorem kept_gwSsel (a0 : Nat) (a1 : Nat) (a2 : Word) (s : State) : kept (gwSsel a0 a1 a2 s) = kept s := by
  unfold gwSsel; simp only [kept_mk, kept_fold, apply_ite kept, ite_self, kept_setCh]
theorem kept_holdoffExpiry {a0 : Nat} {a1 : Nat} {s : State} {u : State} (h : holdoffExpiry a0 a1 s = some u) : kept u = kept s := by
  unfold holdoffExpiry at h; dsimp only at h; (repeat' split at h) <;> first | (simp only [reduceCtorEq] at h; done) | (simp only [Option.some.injEq] at h; subst h; (repeat' split) <;> first | with_reducible rfl | (simp only [kept_mk, kept_fold, apply_ite kept, ite_self, kept_signal, kept_setCh]; done))
theorem kept_injectInto (m key b : Nat) (fs : List Flit) (s : State) : kept (injectInto m key b fs s).1 = kept s := by
  unfold injectInto; dsimp only; split
  · rfl
  · rw [kept_touch, kept_setMed]
theorem kept_injectRelease {a0 : Nat} {a1 : Bool} {a2 : Nat} {a3 : Nat} {s : State} {u : State} (h : injectRelease a0 a1 a2 a3 s = some u) : kept u = kept s := by
  unfold injectRelease at h; dsimp only at h; (repeat' split at h) <;> first | (simp only [reduceCtorEq] at h; done) | (simp only [Option.some.injEq] at h; subst h; (repeat' split) <;> first | with_reducible rfl | (simp only [kept_mk, kept_fold, apply_ite kept, ite_self, kept_setEdge, kept_touch, kept_setMed]; done))
theorem kept_loadCmd (a0 : Fn) (a1 : Nat) (s : State) : kept (loadCmd a0 a1 s) = kept s := by
  unfold loadCmd; dsimp only; (repeat' split) <;> first | with_reducible rfl | (simp only [kept_mk, kept_fold, kept_ignoreCmd, kept_applyMaps, kept_setBd]; done)
theorem kept_loadLex (a0 : Nat) (a1 : List Byte) (a2 : Board) (a3 : List GramRec) (s : State) (a5 : LexRec) : kept (loadLex a0 a1 a2 a3 s a5) = kept s := by
  unfold loadLex; simp only [kept_mk, kept_fold, apply_ite kept, ite_self, kept_modHed, kept_setCh]
theorem kept_loadSpan (a0 : Nat) (a1 : List Byte) (a2 : List (Nat × Nat × Nat)) (s : State) (a4 : Nat × Nat × Nat × Nat × Nat × Nat) : kept (loadSpan a0 a1 a2 s a4) = kept s := by
  unfold loadSpan; simp only [kept_loadBytes]
theorem kept_loadStesy (a0 : Nat) (a1 : List Byte) (a2 : Board) (s : State) (a4 : Nat × Nat) : kept (loadStesy a0 a1 a2 s a4) = kept s := by
  unfold loadStesy; dsimp only; (repeat' split) <;> first | with_reducible rfl | (simp only [kept_mk, kept_fold, apply_ite kept, ite_self, kept_setSlot, kept_modMed]; done)
theorem kept_lselWrite (a0 : Nat) (a1 : Nat) (a2 : Word) (s : State) : kept (lselWrite a0 a1 a2 s) = kept s := by
  unfold lselWrite; simp only [kept_mk, kept_fold, apply_ite kept, ite_self, kept_setPortP]
theorem kept_mStep {a0 : Nat} {s : State} {u : State} (h : mStep a0 s = some u) : kept u = kept s := by
  unfold mStep at h; dsimp only at h; (repeat' split at h) <;> first | (simp only [reduceCtorEq] at h; done) | (simp only [Option.some.injEq] at h; subst h; (repeat' split) <;> first | with_reducible rfl | (simp only [kept_mk, kept_fold, apply_ite kept, ite_self, kept_setField, kept_freqDone]; done))
theorem kept_modCh (s : State) (a1 : Nat) (a2 : Nat) (a3 : Chan → Chan) : kept (modCh s a1 a2 a3) = kept s := by
  unfold modCh; simp only [kept_setCh]
theorem kept_pollTie (a0 : Nat) (s : State) (a2 : Nat × Tie) : kept (pollTie a0 s a2) = kept s := by
  unfold pollTie; simp only [kept_mk, kept_fold, apply_ite kept, ite_self, kept_tieDies, kept_setTie]
theorem kept_portEvent (s : State) (a1 : Nat) (a2 : Nat) (a3 : Nat) : kept (portEvent s a1 a2 a3) = kept s := by
  unfold portEvent; simp only [kept_mk, kept_fold, apply_ite kept, ite_self, kept_sigStesy, kept_setPortP]
theorem kept_publish (a0 : Nat) (a1 : Nat) (a2 : List (Nat × Nat × List Nat)) (a3 : Nat) (a4 : Bool) (s : State) : kept (publish a0 a1 a2 a3 a4 s) = kept s := by
  unfold publish; dsimp only
  split
  all_goals simp only [kept_raiseBoard, kept_sigBoard, kept_setBd]
  all_goals
    rw [kept_foldl]; intro s p; split
    · rw [kept_modB]
    · rfl
theorem kept_resetComplete {a0 : Nat} {s : State} {u : State} (h : resetComplete a0 s = some u) : kept u = kept s := by
  unfold resetComplete at h; dsimp only at h; (repeat' split at h) <;> first | (simp only [reduceCtorEq] at h; done) | (simp only [Option.some.injEq] at h; subst h; (repeat' split) <;> first | with_reducible rfl | (simp only [kept_mk, kept_fold, apply_ite kept, ite_self, kept_sigBoard, kept_closeSlots, kept_setBd]; done))
theorem kept_returnCredit (s : State) (a1 : Nat) (a2 : Nat) (a3 : Nat) (a4 : Nat) (a5 : Nat) (a6 : Nat) : kept (returnCredit s a1 a2 a3 a4 a5 a6) = kept s := by
  unfold returnCredit; dsimp only; (repeat' split) <;> first | with_reducible rfl | (simp only [kept_mk, kept_fold, apply_ite kept, ite_self, kept_setEdge, kept_addCred, kept_modB, kept_setTie, kept_linkDed]; done)
theorem kept_ringDisable (a0 : Nat) (a1 : Nat) (a2 : Word) (s : State) : kept (ringDisable a0 a1 a2 s) = kept s := by
  unfold ringDisable; simp only [kept_mk, kept_fold, apply_ite kept, ite_self, kept_setCh]
theorem kept_ringEnable (a0 : Nat) (a1 : Nat) (a2 : Word) (s : State) : kept (ringEnable a0 a1 a2 s) = kept s := by
  unfold ringEnable; simp only [kept_mk, kept_fold, apply_ite kept, ite_self, kept_setCh]
theorem kept_sendLink (a0 : Nat) (a1 : Nat) (s : State) : kept (sendLink a0 a1 s) = kept s := by
  unfold sendLink; simp only [kept_mk, kept_fold, kept_foldl, implies_true, apply_ite kept, ite_self, kept_setPortP]
theorem kept_sendNew (a0 : Nat) (a1 : Nat) (a2 : Nat) (a3 : DUnit) (s : State) : kept (sendNew a0 a1 a2 a3 s) = kept s := by
  unfold sendNew; simp only [kept_mk, kept_fold, apply_ite kept, ite_self, kept_setPortP]
theorem kept_sigText (s : State) (a1 : Nat) (a2 : Nat) (a3 : Bool) : kept (sigText s a1 a2 a3) = kept s := by
  unfold sigText; simp only [kept_mk, kept_fold, apply_ite kept, ite_self, kept_signal, kept_setCh]
theorem kept_slateEnd (s : State) (a1 : Nat) : kept (slateEnd s a1) = kept s := by
  unfold slateEnd; simp only [kept_mk, kept_fold, kept_sigSlate]
theorem kept_splitView (a0 : Word) (a1 : Nat) (a2 : Bool) (s : State) : kept (splitView a0 a1 a2 s) = kept s := by
  unfold splitView; simp only [kept_mk, kept_fold, apply_ite kept, ite_self, kept_sigDev, kept_devBit]
theorem kept_stewardReset (s : State) : kept (stewardReset s) = kept s := by
  unfold stewardReset; simp only [kept_mk, kept_fold, kept_foldl, implies_true, apply_ite kept, ite_self, kept_pwrEvent, kept_sigPower,
      kept_setField]
theorem kept_abandonDesc (a0 : Nat) (a1 : Nat) (s : State) : kept (abandonDesc a0 a1 s) = kept s := by
  unfold abandonDesc; dsimp only; split
  · rfl
  · split
    · rfl
    · simp only [apply_ite kept, kept_sigBoard, ite_self, kept_modBd, kept_freeRxN, kept_setMed]
theorem kept_stopDesc (s : State) (a1 : Nat) (a2 : Nat) (a3 : Nat) (a4 : Nat) (a5 : Desc) (a6 : TFault) (a7 : Option Nat) : kept (stopDesc s a1 a2 a3 a4 a5 a6 a7) = kept s := by
  unfold stopDesc; (try dsimp only); (repeat' split) <;> first | with_reducible rfl | (simp only [kept_mk, kept_fold, kept_foldl, implies_true, apply_ite kept, ite_self, kept_raiseBoard, kept_setMed, kept_sigBoard, kept_abandonDesc]; done)
theorem kept_streamExec (s : State) (a1 : Nat) (a2 : Nat) (a3 : Nat) (a4 : Brick) (a5 : Nat) (a6 : Nat) (a7 : SOp) : kept (streamExec s a1 a2 a3 a4 a5 a6 a7) = kept s := by
  unfold streamExec; dsimp only; (repeat' split) <;> first | with_reducible rfl | (simp only [kept_mk, kept_fold, apply_ite kept, ite_self, kept_touch, kept_setB, kept_faultBrick, kept_streamFault]; done)
theorem kept_subIntervalEnd {s : State} {u : State} (h : subIntervalEnd s = some u) : kept u = kept s := by
  unfold subIntervalEnd at h; (repeat' split at h) <;> first | (simp only [reduceCtorEq] at h; done) | (simp only [Option.some.injEq] at h; subst h; (repeat' split) <;> first | with_reducible rfl | (simp only [kept_foldl, implies_true, apply_ite kept, ite_self, kept_subField]; done))
theorem kept_switchClean {s : State} {u : State} (h : switchClean s = some u) : kept u = kept s := by
  unfold switchClean at h; (repeat' split at h) <;> first | (simp only [reduceCtorEq] at h; done) | (simp only [Option.some.injEq] at h; subst h; (repeat' split) <;> first | with_reducible rfl | (simp only [apply_ite kept, ite_self, kept_switched]; done))
theorem kept_takeNotice {b kind : Nat} {act : List Word → State → Option State} {s u : State} (h : takeNotice b kind act s = some u)
    (hf : ∀ l v w, act l v = some w → kept w = kept v) : kept u = kept s := by
  unfold takeNotice at h; dsimp only at h
  split at h
  · simp only [reduceCtorEq] at h
  · split at h
    · simp only [reduceCtorEq] at h
    · split at h
      · simp only [Option.some.injEq] at h; subst h; rw [kept_dropStale, kept_modHed]
      · rw [hf _ _ _ h, kept_modHed]
theorem kept_takeRx (a0 : Nat) (a1 : Nat) (a2 : Nat) (a3 : Nat) (s : State) : kept (takeRx a0 a1 a2 a3 s) = kept s := by
  unfold takeRx; simp only [kept_mk, kept_fold, kept_freeRx, kept_modMed]
theorem kept_targetWrite (a0 : Word) (s : State) : kept (targetWrite a0 s) = kept s := by
  unfold targetWrite; simp only [kept_mk, kept_fold, apply_ite kept, ite_self, kept_setTargets, kept_pwrEvent]
theorem kept_tieMove {a0 : Nat} {a1 : Nat} {a2 : Nat} {a3 : Nat} {a4 : Nat} {s : State} {u : State} (h : tieMove a0 a1 a2 a3 a4 s = some u) : kept u = kept s := by
  unfold tieMove at h; refine kept_tieAct h (fun p v u h => ?_); (try dsimp only at h); (repeat' split at h) <;> first | (simp only [reduceCtorEq] at h; done) | (simp only [Option.some.injEq] at h; subst h; (repeat' split) <;> first | with_reducible rfl | (simp only [kept_mk, kept_fold, apply_ite kept, ite_self, kept_setTie, kept_touch, kept_modB]; done))
theorem kept_edgeDies (s : State) (a1 : Nat) (a2 : Bool) (a3 : EdgeBr) (a4 : Nat) : kept (edgeDies s a1 a2 a3 a4) = kept s := by
  unfold edgeDies; (try dsimp only); (repeat' split) <;> first | with_reducible rfl | (simp only [kept_mk, kept_fold, kept_foldl, implies_true, apply_ite kept, ite_self, kept_setEdge, kept_faultBrick]; done)
theorem kept_bumpAt (s : State) (a1 : Nat) (a2 : Nat) (a3 : Nat) (a4 : Nat) : kept (bumpAt s a1 a2 a3 a4) = kept s := by
  unfold bumpAt; (try dsimp only); (repeat' split) <;> first | with_reducible rfl | (simp only [kept_mk, kept_fold, kept_foldl, implies_true, apply_ite kept, ite_self, kept_modB]; done)
theorem kept_edgeReceive {a0 : Nat} {a1 : Nat} {a2 : BitVec 50} {s : State} {u : State} (h : edgeReceive a0 a1 a2 s = some u) : kept u = kept s := by
  unfold edgeReceive at h; (try dsimp only at h); (repeat' split at h) <;> first | (simp only [reduceCtorEq] at h; done) | (simp only [Option.some.injEq] at h; subst h; (repeat' split) <;> first | with_reducible rfl | (simp only [kept_mk, kept_fold, kept_foldl, implies_true, apply_ite kept, ite_self, kept_touch, kept_setEdge, kept_edgeDies, kept_bumpAt]; done))
theorem kept_tieReceive {a0 : Nat} {a1 : Nat} {a2 : Nat} {a3 : BitVec 50} {s : State} {u : State} (h : tieReceive a0 a1 a2 a3 s = some u) : kept u = kept s := by
  unfold tieReceive at h
  refine ite_some h (fun h => kept_edgeReceive h) (fun h => kept_tieAct h (fun _ _ u h => ?_))
  dsimp only at h; (repeat' split at h) <;> first | (simp only [reduceCtorEq] at h; done) | (simp only [Option.some.injEq] at h; subst h; simp only [kept_activity, kept_touch, kept_setTie, kept_tieDies, kept_bumpAt]; done)
theorem kept_tieReturn {a0 : Nat} {a1 : Nat} {a2 : Nat} {a3 : Bool} {a4 : Nat} {a5 : Nat} {s : State} {u : State} (h : tieReturn a0 a1 a2 a3 a4 a5 s = some u) : kept u = kept s := by
  unfold tieReturn at h
  refine ite_some h (fun h => ?_) (fun h => kept_tieAct h (fun _ _ u h => ?_))
  all_goals
    dsimp only at h; (repeat' split at h) <;> first | (simp only [reduceCtorEq] at h; done) | (simp only [Option.some.injEq] at h; subst h; (repeat' split) <;> simp only [kept_setEdge, kept_setTie, kept_tieDies, kept_edgeDies, kept_bumpAt, kept_addCred, kept_modB]; done)
theorem kept_txtDb (a0 : Nat) (a1 : Nat) (a2 : Word) (s : State) : kept (txtDb a0 a1 a2 s) = kept s := by
  unfold txtDb; simp only [kept_mk, kept_fold, apply_ite kept, ite_self, kept_setCh]
theorem kept_access {s r u : State} {f : Fn} {blk : Blk} {rd ok served : Bool} {target : Nat}
    (h : access s f blk rd ok served target r = some u) (hr : kept r = kept s) : kept u = kept s := by
  unfold access at h
  (repeat' split at h) <;> first | (simp only [reduceCtorEq] at h; done) | (simp only [Option.some.injEq] at h; subst h)
  · simp only [kept_mk, kept_fold, kept_violate]
  · exact kept_busError _ _ _
  · exact hr
theorem kept_accumComplete {a0 : Nat} {a1 : Nat} {a2 : Nat} {s : State} {u : State} (h : accumComplete a0 a1 a2 s = some u) : kept u = kept s := by
  unfold accumComplete at h; refine kept_brickAct h (fun k b u h => ?_); (try dsimp only at h); (repeat' split at h) <;> first | (simp only [reduceCtorEq] at h; done) | (simp only [Option.some.injEq] at h; subst h; (repeat' split) <;> first | with_reducible rfl | (simp only [kept_mk, kept_fold, apply_ite kept, ite_self, kept_setB]; done))
theorem kept_alignLock {a0 : Nat} {a1 : Nat} {s : State} {u : State} (h : alignLock a0 a1 s = some u) : kept u = kept s := by
  unfold alignLock at h; dsimp only at h; (repeat' split at h) <;> first | (simp only [reduceCtorEq] at h; done) | (simp only [Option.some.injEq] at h; subst h; (repeat' split) <;> first | with_reducible rfl | (simp only [kept_mk, kept_fold, apply_ite kept, ite_self, kept_portEvent, kept_setPortP]; done))
theorem kept_assemble (a0 : Nat) (a1 : Nat) (a2 : Nat) (s : State) : kept (assemble a0 a1 a2 s) = kept s := by
  induction a2 generalizing s with
  | zero => rfl
  | succ n ih =>
    unfold assemble; dsimp only
    (repeat' split) <;> first | with_reducible rfl | (simp only [ih, kept_freeRx, kept_freeRxN, kept_setMed, kept_modMed, kept_raiseBoard, kept_foldl, implies_true]; done)
theorem kept_backstop {a0 : Nat} {s : State} {u : State} (h : backstop a0 s = some u) : kept u = kept s := by
  unfold backstop at h; (repeat' split at h) <;> first | (simp only [reduceCtorEq] at h; done) | (simp only [Option.some.injEq] at h; subst h; (repeat' split) <;> first | with_reducible rfl | (simp only [apply_ite kept, ite_self, kept_floorGo, kept_pwrEvent]; done))
theorem kept_cancel (a0 : Nat) (a1 : Nat) (a2 : Word) (s : State) : kept (cancel a0 a1 a2 s) = kept s := by
  unfold cancel; simp only [kept_mk, kept_fold, kept_endCur, kept_modCh]
theorem kept_cardOut {s : State} {u : State} (h : cardOut s = some u) : kept u = kept s := by
  unfold cardOut at h; (repeat' split at h) <;> first | (simp only [reduceCtorEq] at h; done) | (simp only [Option.some.injEq] at h; subst h; (repeat' split) <;> first | with_reducible rfl | (simp only [kept_mk, kept_fold, apply_ite kept, ite_self, kept_commitMark, kept_slateEnd]; done))
theorem kept_checkEnd {a0 : Nat} {a1 : List Byte} {s : State} {u : State} (h : checkEnd a0 a1 s = some u) : kept u = kept s := by
  unfold checkEnd at h; dsimp only at h; (repeat' split at h) <;> first | (simp only [reduceCtorEq] at h; done) | (simp only [Option.some.injEq] at h; subst h; (repeat' split) <;> first | with_reducible rfl | (simp only [kept_mk, kept_fold, kept_foldl, implies_true, apply_ite kept, ite_self, kept_publish]; done))
theorem kept_checkUnread {a0 : Nat} {s : State} {u : State} (h : checkUnread a0 s = some u) : kept u = kept s := by
  unfold checkUnread at h; dsimp only at h; (repeat' split at h) <;> first | (simp only [reduceCtorEq] at h; done) | (simp only [Option.some.injEq] at h; subst h; (repeat' split) <;> first | with_reducible rfl | (simp only [apply_ite kept, ite_self, kept_publish]; done))
theorem kept_countReturn (s : State) (a1 : Nat) (a2 : Nat) : kept (countReturn s a1 a2) = kept s := by
  unfold countReturn; simp only [kept_mk, kept_fold, kept_modCh]
theorem kept_creditReturn {a0 : Nat} {a1 : Nat} {a2 : Nat} {a3 : Nat} {s : State} {u : State} (h : creditReturn a0 a1 a2 a3 s = some u) : kept u = kept s := by
  unfold creditReturn at h; refine kept_brickAct h (fun k b u h => ?_); (try dsimp only at h); (repeat' split at h) <;> first | (simp only [reduceCtorEq] at h; done) | (simp only [Option.some.injEq] at h; subst h; (repeat' split) <;> first | with_reducible rfl | (simp only [kept_mk, kept_fold, kept_touch, kept_returnCredit, kept_setB]; done))
theorem kept_dispatchOp {a0 : Option BOp} {a1 : Nat} {a2 : Nat} {a3 : Nat} {s : State} {u : State} (h : dispatchOp a0 a1 a2 a3 s = some u) : kept u = kept s := by
  unfold dispatchOp at h; refine kept_brickAct h (fun k b u h => ?_); (try dsimp only at h); (repeat' split at h) <;> first | (simp only [reduceCtorEq] at h; done) | (simp only [Option.some.injEq] at h; subst h; (repeat' split) <;> first | with_reducible rfl | (simp only [kept_mk, kept_fold, apply_ite kept, ite_self, kept_fetchFault, kept_holdFetch, kept_setB]; done))
theorem kept_egressForward {a0 : Nat} {a1 : Bool} {a2 : Nat} {a3 : Nat} {s : State} {u : State} (h : egressForward a0 a1 a2 a3 s = some u) : kept u = kept s := by
  unfold egressForward at h; dsimp only at h; (repeat' split at h) <;> first | (simp only [reduceCtorEq] at h; done) | (simp only [Option.some.injEq] at h; subst h; (repeat' split) <;> first | with_reducible rfl | (simp only [kept_mk, kept_fold, apply_ite kept, ite_self, kept_touch, kept_takeRx, kept_setHed]; done))
theorem kept_emptyCheck (a0 : Nat) (a1 : Nat) (s : State) : kept (emptyCheck a0 a1 s) = kept s := by
  unfold emptyCheck; dsimp only; (repeat' split) <;> first | with_reducible rfl | (simp only [kept_mk, kept_fold, apply_ite kept, ite_self, kept_modCh, kept_endCur]; done)
theorem kept_engineBeat {a0 : Nat} {a1 : Nat} {s : State} {u : State} (h : engineBeat a0 a1 s = some u) : kept u = kept s := by
  unfold engineBeat at h; dsimp only at h; (repeat' split at h) <;> first | (simp only [reduceCtorEq] at h; done) | (simp only [Option.some.injEq] at h; subst h; (repeat' split) <;> first | with_reducible rfl | (simp only [kept_mk, kept_fold, apply_ite kept, ite_self, kept_stopDesc, kept_setMed, kept_beatDone, kept_freeRxN, kept_modHed]; done))
theorem kept_eqNotice {a0 : Nat} {a1 : Nat} {a2 : Nat} {a3 : Nat} {s : State} {u : State} (h : eqNotice a0 a1 a2 a3 s = some u) : kept u = kept s := by
  unfold eqNotice at h; refine kept_brickAct h (fun k b u h => ?_); (try dsimp only at h); (repeat' split at h) <;> first | (simp only [reduceCtorEq] at h; done) | (simp only [Option.some.injEq] at h; subst h; (repeat' split) <;> first | with_reducible rfl | (simp only [kept_mk, kept_fold, apply_ite kept, ite_self, kept_touch, kept_setB]; done))
theorem kept_eqTake {a0 : Nat} {a1 : Nat} {a2 : Nat} {s : State} {u : State} (h : eqTake a0 a1 a2 s = some u) : kept u = kept s := by
  unfold eqTake at h; refine kept_brickAct h (fun k b u h => ?_); (try dsimp only at h); (repeat' split at h) <;> first | (simp only [reduceCtorEq] at h; done) | (simp only [Option.some.injEq] at h; subst h; (repeat' split) <;> first | with_reducible rfl | (simp only [kept_mk, kept_fold, apply_ite kept, ite_self, kept_touch, kept_expertFault, kept_setB, kept_faultBrick]; done))
theorem kept_faultSteward {s : State} {u : State} (h : faultSteward s = some u) : kept u = kept s := by
  unfold faultSteward at h; (repeat' split at h) <;> first | (simp only [reduceCtorEq] at h; done) | (simp only [Option.some.injEq] at h; subst h; (repeat' split) <;> first | with_reducible rfl | (simp only [apply_ite kept, ite_self, kept_stewardReset, kept_sigDev, kept_devBit]; done))
theorem kept_fillAction {a0 : Nat} {a1 : Nat} {a2 : Nat} {a3 : Nat} {s : State} {u : State} (h : fillAction a0 a1 a2 a3 s = some u) : kept u = kept s := by
  unfold fillAction at h; refine kept_brickAct h (fun k b u h => ?_); (try dsimp only at h); (repeat' split at h) <;> first | (simp only [reduceCtorEq] at h; done) | (simp only [Option.some.injEq] at h; subst h; (repeat' split) <;> first | with_reducible rfl | (simp only [kept_mk, kept_fold, apply_ite kept, ite_self, kept_touch, kept_setB]; done))
theorem kept_flitForward {a0 : Nat} {a1 : Nat} {a2 : Nat} {a3 : Nat} {a4 : Nat} {s : State} {u : State} (h : flitForward a0 a1 a2 a3 a4 s = some u) : kept u = kept s := by
  unfold flitForward at h; refine kept_tcycAct h (fun _ _ u h => ?_); (try dsimp only at h); (repeat' split at h) <;> first | (simp only [reduceCtorEq] at h; done) | (simp only [Option.some.injEq] at h; subst h; (repeat' split) <;> first | with_reducible rfl | (simp only [kept_mk, kept_fold, kept_foldl, implies_true, apply_ite kept, ite_self, kept_touch, kept_faultBrick, kept_deliverBranch, kept_setB]; done))
theorem kept_floorEngage {s : State} {u : State} (h : floorEngage s = some u) : kept u = kept s := by
  unfold floorEngage at h; (repeat' split at h) <;> first | (simp only [reduceCtorEq] at h; done) | (simp only [Option.some.injEq] at h; subst h; (repeat' split) <;> first | with_reducible rfl | (simp only [apply_ite kept, ite_self, kept_floorGo]; done))
theorem kept_goActive (a0 : Nat) (a1 : Nat) (s : State) : kept (goActive a0 a1 s) = kept s := by
  unfold goActive; simp only [kept_mk, kept_fold, kept_foldl, implies_true, apply_ite kept, ite_self, kept_portEvent, kept_setPortP]
theorem kept_goDead (a0 : Nat) (a1 : Nat) (s : State) : kept (goDead a0 a1 s) = kept s := by
  unfold goDead; simp only [kept_mk, kept_fold, kept_foldl, implies_true, kept_dropNoroute, kept_portEvent, kept_setPortP]
theorem kept_goRetrain (a0 : Nat) (a1 : Nat) (s : State) : kept (goRetrain a0 a1 s) = kept s := by
  unfold goRetrain; simp only [kept_mk, kept_fold, kept_portEvent, kept_setPortP]
theorem kept_injectorWrite {a0 : Nat} {a1 : Nat} {s : State} {u : State} (h : injectorWrite a0 a1 s = some u) : kept u = kept s := by
  unfold injectorWrite at h; dsimp only at h
  split at h
  · simp only [reduceCtorEq] at h
  · simp only [Option.some.injEq] at h; subst h
    rw [kept_setSlot, kept_injectInto]
theorem kept_issueOp {a0 : BOp} {a1 : Nat} {a2 : Nat} {a3 : Nat} {s : State} {u : State} (h : issueOp a0 a1 a2 a3 s = some u) : kept u = kept s := by
  unfold issueOp at h; refine kept_brickAct h (fun k b u h => ?_); (try dsimp only at h); (repeat' split at h) <;> first | (simp only [reduceCtorEq] at h; done) | (simp only [Option.some.injEq] at h; subst h; (repeat' split) <;> first | with_reducible rfl | (simp only [kept_mk, kept_fold, apply_ite kept, ite_self, kept_touch, kept_finishB, kept_activity, kept_sendArrival]; done))
theorem kept_lexFault (a0 : Nat) (a1 : Nat) (a2 : Nat) (s : State) : kept (lexFault a0 a1 a2 s) = kept s := by
  unfold lexFault; simp only [kept_raiseBoard, kept_endCur]
theorem kept_loadGram (a0 : Nat) (s : State) (a2 : GramRec) : kept (loadGram a0 s a2) = kept s := by
  unfold loadGram; simp only [kept_mk, kept_fold, kept_modCh]
theorem kept_maskBegin (a0 : Nat) (a1 : Nat) (a2 : Option Nat) (s : State) : kept (maskBegin a0 a1 a2 s) = kept s := by
  unfold maskBegin; simp only [kept_mk, kept_fold, kept_foldl, implies_true, apply_ite kept, ite_self, kept_trEnd, kept_raiseBoard,
      kept_endCur, kept_modCh, kept_modBd]
theorem kept_maskWrite {a0 : Nat} {a1 : Nat} {s : State} {u : State} (h : maskWrite a0 a1 s = some u) : kept u = kept s := by
  unfold maskWrite at h; dsimp only at h
  (repeat' split at h) <;> first | (simp only [reduceCtorEq] at h; done) | (simp only [Option.some.injEq] at h; subst h; simp only [kept_modCh, kept_modBd, kept_injectInto]; done)
theorem kept_mismatch (s : State) (a1 : Nat) (a2 : Nat) (a3 : Nat) (a4 : Word) : kept (mismatch s a1 a2 a3 a4) = kept s := by
  unfold mismatch; simp only [kept_raiseBoard, kept_endCur]
theorem kept_quarBrick (a0 : Raised) (a1 : Nat) (a2 : Nat) (s : State) : kept (quarBrick a0 a1 a2 s) = kept s := by
  unfold quarBrick; simp only [kept_mk, kept_fold, apply_ite kept, ite_self, kept_setB, kept_setSeg, kept_listQuar, kept_splitView]
theorem kept_quarLink (a0 : Raised) (a1 : Nat) (a2 : Nat) (a3 : Nat) (s : State) : kept (quarLink a0 a1 a2 a3 s) = kept s := by
  unfold quarLink; simp only [apply_ite kept, ite_self, kept_listQuar, kept_markLink, kept_splitView]
theorem kept_refLost {a0 : Nat} {s : State} {u : State} (h : refLost a0 s = some u) : kept u = kept s := by
  unfold refLost at h; dsimp only at h; (repeat' split at h) <;> first | (simp only [reduceCtorEq] at h; done) | (simp only [Option.some.injEq] at h; subst h; (repeat' split) <;> first | with_reducible rfl | (simp only [kept_mk, kept_fold, apply_ite kept, ite_self, kept_enterWait]; done))
theorem kept_releaseReceived {a0 : Nat} {a1 : Nat} {a2 : Nat} {a3 : Nat} {s : State} {u : State} (h : releaseReceived a0 a1 a2 a3 s = some u) : kept u = kept s := by
  unfold releaseReceived at h; (repeat' split at h) <;> first | (simp only [reduceCtorEq] at h; done) | (refine kept_brickAct h (fun k b u h => ?_); (try dsimp only at h); (repeat' split at h) <;> first | (simp only [reduceCtorEq] at h; done) | (simp only [Option.some.injEq] at h; subst h; (repeat' split) <;> first | with_reducible rfl | (simp only [kept_mk, kept_fold, kept_modBd, kept_setB]; done)))
theorem kept_resultRelease {a0 : Nat} {a1 : Nat} {a2 : Nat} {s : State} {u : State} (h : resultRelease a0 a1 a2 s = some u) : kept u = kept s := by
  unfold resultRelease at h; refine kept_brickAct h (fun k b u h => ?_); (try dsimp only at h); (repeat' split at h) <;> first | (simp only [reduceCtorEq] at h; done) | (simp only [Option.some.injEq] at h; subst h; (repeat' split) <;> first | with_reducible rfl | (simp only [kept_mk, kept_fold, kept_foldl, implies_true, kept_setB]; done))
theorem kept_rimBusError (s : State) (mst : RimMaster) (tgt : Nat) : kept (rimBusError s mst tgt) = kept s := by
  unfold rimBusError; split <;> first | rfl | exact kept_busError _ _ _
theorem kept_rimFault (s : State) (a1 : Nat) (a2 : Nat) (a3 : Option Nat) (a4 : Bool) : kept (rimFault s a1 a2 a3 a4) = kept s := by
  unfold rimFault; (try dsimp only); (repeat' split) <;> first | with_reducible rfl | (simp only [kept_mk, kept_fold, kept_foldl, implies_true, apply_ite kept, ite_self, kept_raiseBoard, kept_lexFault, kept_sigDev, kept_devBit, kept_busError]; done)
theorem kept_ringReplay {a0 : Nat} {a1 : Nat} {a2 : Nat} {a3 : Nat} {s : State} {u : State} (h : ringReplay a0 a1 a2 a3 s = some u) : kept u = kept s := by
  unfold ringReplay at h; refine kept_brickAct h (fun k b u h => ?_); (try dsimp only at h); (repeat' split at h) <;> first | (simp only [reduceCtorEq] at h; done) | (simp only [Option.some.injEq] at h; subst h; (repeat' split) <;> first | with_reducible rfl | (simp only [kept_mk, kept_fold, apply_ite kept, ite_self, kept_touch, kept_faultBrick, kept_setB]; done))
theorem kept_scFault (s : State) (a1 : Nat) (a2 : Nat) (a3 : Nat) (a4 : Nat) (a5 : Brick) (a6 : ScPacket) (a7 : Nat) (a8 : Nat) : kept (scFault s a1 a2 a3 a4 a5 a6 a7 a8) = kept s := by
  unfold scFault; (try dsimp only); (repeat' split) <;> first | with_reducible rfl | (simp only [kept_mk, kept_fold, kept_foldl, implies_true, apply_ite kept, ite_self, kept_touch, kept_expertFault]; done)
theorem kept_scLook (s : State) (a1 : Nat) (a2 : Nat) (a3 : Nat) (a4 : Nat) (a5 : Brick) (a6 : ScPacket) (a7 : Nat) : kept (scLook s a1 a2 a3 a4 a5 a6 a7) = kept s := by
  unfold scLook; (try dsimp only); (repeat' split) <;> first | with_reducible rfl | (simp only [kept_mk, kept_fold, kept_foldl, implies_true, apply_ite kept, ite_self, kept_scFault, kept_setB, kept_touch, kept_faultBrick]; done)
theorem kept_scatterBegin {a0 : Nat} {a1 : Nat} {a2 : Nat} {s : State} {u : State} (h : scatterBegin a0 a1 a2 s = some u) : kept u = kept s := by
  unfold scatterBegin at h; refine kept_brickAct h (fun _ _ u h => ?_); (try dsimp only at h); (repeat' split at h) <;> first | (simp only [reduceCtorEq] at h; done) | (simp only [Option.some.injEq] at h; subst h; (repeat' split) <;> first | with_reducible rfl | (simp only [kept_mk, kept_fold, kept_foldl, implies_true, apply_ite kept, ite_self, kept_scLook, kept_touch, kept_setB, kept_faultBrick]; done))
theorem kept_scatterFlit {a0 : Nat} {a1 : Nat} {a2 : Nat} {s : State} {u : State} (h : scatterFlit a0 a1 a2 s = some u) : kept u = kept s := by
  unfold scatterFlit at h; refine kept_brickAct h (fun k b u h => ?_); (try dsimp only at h); (repeat' split at h) <;> first | (simp only [reduceCtorEq] at h; done) | (simp only [Option.some.injEq] at h; subst h; (repeat' split) <;> first | with_reducible rfl | (simp only [kept_mk, kept_fold, apply_ite kept, ite_self, kept_touch, kept_faultBrick, kept_setB]; done))
theorem kept_sfarFlit {a0 : Nat} {a1 : Nat} {a2 : Nat} {a3 : Nat} {s : State} {u : State} (h : sfarFlit a0 a1 a2 a3 s = some u) : kept u = kept s := by
  unfold sfarFlit at h; refine kept_brickAct h (fun k b u h => ?_); (try dsimp only at h); (repeat' split at h) <;> first | (simp only [reduceCtorEq] at h; done) | (simp only [Option.some.injEq] at h; subst h; (repeat' split) <;> first | with_reducible rfl | (simp only [kept_mk, kept_fold, apply_ite kept, ite_self, kept_touch, kept_setB]; done))
theorem kept_sidebandPoll {a0 : Nat} {a1 : List (Nat × Nat)} {s : State} {u : State} (h : sidebandPoll a0 a1 s = some u) : kept u = kept s := by
  unfold sidebandPoll at h; (repeat' split at h) <;> first | (simp only [reduceCtorEq] at h; done) | (simp only [Option.some.injEq] at h; subst h; (repeat' split) <;> first | with_reducible rfl | (simp only [kept_foldl, implies_true, apply_ite kept, ite_self, kept_pollBrick, kept_pollEdge, kept_pollTie]; done))
theorem kept_slateGo (s : State) : kept (slateGo s) = kept s := by
  unfold slateGo; dsimp only; (repeat' split) <;> first | with_reducible rfl | (simp only [kept_mk, kept_fold, apply_ite kept, ite_self, kept_slateEnd, kept_startPage]; done)
theorem kept_slateReadFailed {s : State} {u : State} (h : slateReadFailed s = some u) : kept u = kept s := by
  unfold slateReadFailed at h; (repeat' split at h) <;> first | (simp only [reduceCtorEq] at h; done) | (simp only [Option.some.injEq] at h; subst h; (repeat' split) <;> first | with_reducible rfl | (simp only [kept_mk, kept_fold, apply_ite kept, ite_self, kept_slateEnd]; done))
theorem kept_spoilLast (s : State) (a1 : Nat) (a2 : Nat) : kept (spoilLast s a1 a2) = kept s := by
  unfold spoilLast; dsimp only; (repeat' split) <;> first | with_reducible rfl | (simp only [kept_mk, kept_fold, apply_ite kept, ite_self, kept_setCh, kept_endCur]; done)
theorem kept_stallTcyc {a0 : Nat} {a1 : Nat} {a2 : Nat} {a3 : Nat} {s : State} {u : State} (h : stallTcyc a0 a1 a2 a3 s = some u) : kept u = kept s := by
  unfold stallTcyc at h; refine kept_brickAct h (fun k b u h => ?_); (try dsimp only at h); (repeat' split at h) <;> first | (simp only [reduceCtorEq] at h; done) | (simp only [Option.some.injEq] at h; subst h; (repeat' split) <;> first | with_reducible rfl | (simp only [kept_mk, kept_fold, apply_ite kept, ite_self, kept_setB]; done))
theorem kept_stesyEgressForward {a0 : Nat} {a1 : Bool} {a2 : Nat} {a3 : Nat} {s : State} {u : State} (h : stesyEgressForward a0 a1 a2 a3 s = some u) : kept u = kept s := by
  unfold stesyEgressForward at h; dsimp only at h; (repeat' split at h) <;> first | (simp only [reduceCtorEq] at h; done) | (simp only [Option.some.injEq] at h; subst h; (repeat' split) <;> first | with_reducible rfl | (simp only [kept_mk, kept_fold, apply_ite kept, ite_self, kept_touch, kept_takeRx, kept_setSlot]; done))
theorem kept_stewardGo (a0 : Word) (s : State) : kept (stewardGo a0 s) = kept s := by
  unfold stewardGo; simp only [kept_mk, kept_fold, apply_ite kept, ite_self, kept_stewardReset]
theorem kept_streamOp {a0 : SOp} {a1 : Nat} {a2 : Nat} {a3 : Nat} {s : State} {u : State} (h : streamOp a0 a1 a2 a3 s = some u) : kept u = kept s := by
  unfold streamOp at h; refine kept_brickAct h (fun k b u h => ?_); (try dsimp only at h); (repeat' split at h) <;> first | (simp only [reduceCtorEq] at h; done) | (simp only [Option.some.injEq] at h; subst h; (repeat' split) <;> first | with_reducible rfl | (simp only [kept_mk, kept_fold, apply_ite kept, ite_self, kept_setB, kept_streamExec]; done))
theorem kept_unitSend {a0 : Nat} {a1 : Nat} {s : State} {u : State} (h : unitSend a0 a1 s = some u) : kept u = kept s := by
  unfold unitSend at h; dsimp only at h; (repeat' split at h) <;> first | (simp only [reduceCtorEq] at h; done) | (simp only [Option.some.injEq] at h; subst h; (repeat' split) <;> first | with_reducible rfl | (simp only [kept_mk, kept_fold, apply_ite kept, ite_self, kept_sendLink, kept_setPortP, kept_sendNew]; done))
theorem kept_injectParts (m : Nat) (l : List (Nat × List Flit)) (s : State) : kept (injectParts m l s).1 = kept s := by
  induction l generalizing s with
  | nil => rfl
  | cons p r ih =>
    unfold injectParts; dsimp only; split
    · exact kept_injectInto _ _ _ _ _
    · rw [ih, kept_injectInto]
theorem kept_waferWrite {a0 : RimMaster} {a1 : Nat} {a2 : Nat} {a3 : List (BitVec 64)} {s : State} {u : State} (h : waferWrite a0 a1 a2 a3 s = some u) : kept u = kept s := by
  unfold waferWrite at h; dsimp only at h
  (repeat' split at h) <;> first | (simp only [reduceCtorEq] at h; done) | (simp only [Option.some.injEq] at h; subst h; simp only [kept_mk, kept_fold, kept_violate, kept_injectParts]; done)
theorem kept_watchdogExpiry {s : State} {u : State} (h : watchdogExpiry s = some u) : kept u = kept s := by
  unfold watchdogExpiry at h; (repeat' split at h) <;> first | (simp only [reduceCtorEq] at h; done) | (simp only [Option.some.injEq] at h; subst h; (repeat' split) <;> first | with_reducible rfl | (simp only [apply_ite kept, ite_self, kept_stewardReset]; done))
theorem kept_writeCpl (s : State) (a1 : Nat) (a2 : Nat) (a3 : Nat) (a4 : Nat) (a5 : Nat) (a6 : Nat) (a7 : Nat) (a8 : List Byte) : kept (writeCpl s a1 a2 a3 a4 a5 a6 a7 a8) = kept s := by
  unfold writeCpl; simp only [kept_mk, kept_fold, apply_ite kept, ite_self, kept_setCh, kept_sigText]
theorem kept_abandonAll (a0 : Nat) (s : State) : kept (abandonAll a0 s) = kept s := by
  unfold abandonAll; simp only [kept_foldl, implies_true, apply_ite kept, ite_self, kept_abandonDesc]
theorem kept_admitReq {a0 : Nat} {a1 : Nat} {s : State} {u : State} (h : admitReq a0 a1 s = some u) : kept u = kept s := by
  unfold admitReq at h; dsimp only at h; (repeat' split at h) <;> first | (simp only [reduceCtorEq] at h; done) | (simp only [Option.some.injEq] at h; subst h; (repeat' split) <;> first | with_reducible rfl | (simp only [kept_mk, kept_fold, apply_ite kept, ite_self, kept_setCh, kept_trEnd, kept_raiseBoard, kept_endCur, kept_modCh, kept_emptyCheck]; done))
theorem kept_brdCommand {s : State} {f : Fn} {b : Nat} {r u : State} (h : brdCommand s f b r = some u) (hr : kept r = kept s) :
    kept u = kept s := by
  unfold brdCommand at h
  refine kept_access h ?_
  split
  · rfl
  · exact hr
theorem kept_chosenAct (a0 : Nat) (a1 : Nat) (a2 : Nat) (a3 : Nat) (a4 : Cur) (a5 : Bool) (a6 : Bool) (s : State) : kept (chosenAct a0 a1 a2 a3 a4 a5 a6 s) = kept s := by
  unfold chosenAct; simp only [kept_mk, kept_fold, apply_ite kept, ite_self, kept_endCur, kept_modCh, kept_maskBegin]
theorem kept_commitLost (a0 : DefectJob) (a1 : Nat) (s : State) : kept (commitLost a0 a1 s) = kept s := by
  unfold commitLost; simp only [kept_mk, kept_fold, apply_ite kept, ite_self, kept_commitMark, kept_slateGo, kept_slateEnd]
theorem kept_commitNext (a0 : DefectJob) (a1 : Nat) (a2 : Nat) (a3 : Nat) (s : State) : kept (commitNext a0 a1 a2 a3 s) = kept s := by
  unfold commitNext; (repeat' split) <;> first | with_reducible rfl | (simp only [kept_mk, kept_fold, apply_ite kept, ite_self, kept_startPage, kept_commitMark, kept_slateGo, kept_slateEnd]; done)
theorem kept_ctrHi {s : State} {a1 : Fn} {a2 : CtrRef} {u : State} (h : ctrHi s a1 a2 = some u) : kept u = kept s := by
  unfold ctrHi at h; (repeat' split at h) <;> first | (simp only [reduceCtorEq] at h; done) | (simp only [Option.some.injEq] at h; subst h; (repeat' split) <;> first | with_reducible rfl | (simp only [kept_mk, kept_fold, apply_ite kept, ite_self, kept_setFn]; done)) | exact kept_access h (by (repeat' split) <;> first | with_reducible rfl | (simp only [kept_mk, kept_fold, apply_ite kept, ite_self, kept_setFn]; done))
theorem kept_ctrLo {s : State} {a1 : Fn} {a2 : CtrRef} {u : State} (h : ctrLo s a1 a2 = some u) : kept u = kept s := by
  unfold ctrLo at h; (repeat' split at h) <;> first | (simp only [reduceCtorEq] at h; done) | (simp only [Option.some.injEq] at h; subst h; (repeat' split) <;> first | with_reducible rfl | (simp only [kept_mk, kept_fold, kept_modFn]; done)) | exact kept_access h (by (repeat' split) <;> first | with_reducible rfl | (simp only [kept_mk, kept_fold, kept_modFn]; done))
theorem kept_endDiscards (a0 : Nat) (s : State) : kept (endDiscards a0 s) = kept s := by
  unfold endDiscards; (try dsimp only); (repeat' split) <;> first | with_reducible rfl | (simp only [kept_mk, kept_fold, kept_foldl, implies_true, apply_ite kept, ite_self, kept_modMed]; done)
theorem kept_declare (a0 : Nat) (a1 : Nat) (s : State) : kept (declare a0 a1 s) = kept s := by
  unfold declare; (try dsimp only); (repeat' split) <;> first | with_reducible rfl | (simp only [kept_mk, kept_fold, kept_foldl, implies_true, apply_ite kept, ite_self, kept_setBd, kept_endDiscards, kept_armNotice, kept_abortBoard, kept_raiseBoard, kept_sigBoard]; done)
theorem kept_dramWindow {a0 : RimMaster} {a1 : Nat} {a2 : Nat} {a3 : Option (List Byte)} {a4 : Nat} {s : State} {u : State} (h : dramWindow a0 a1 a2 a3 a4 s = some u) : kept u = kept s := by
  unfold dramWindow at h; dsimp only at h; (repeat' split at h) <;> first | (simp only [reduceCtorEq] at h; done) | (simp only [Option.some.injEq] at h; subst h; (repeat' split) <;> first | with_reducible rfl | (simp only [kept_mk, kept_fold, apply_ite kept, ite_self, kept_violate, kept_setMed, kept_raiseBoard, kept_rimBusError]; done))
theorem kept_medTake (a0 : Nat) (a1 : Nat) (a2 : Nat) (a3 : Nat) (a4 : Nat) (a5 : Flit) (s : State) : kept (medTake a0 a1 a2 a3 a4 a5 s) = kept s := by
  unfold medTake; (try dsimp only); (repeat' split) <;> first | with_reducible rfl | (simp only [kept_mk, kept_fold, kept_foldl, implies_true, apply_ite kept, ite_self, kept_freeRx, kept_setMed, kept_assemble]; done)
theorem kept_edgeAccept {a0 : Nat} {a1 : Bool} {a2 : Nat} {a3 : BitVec 50} {a4 : Nat} {s : State} {u : State} (h : edgeAccept a0 a1 a2 a3 a4 s = some u) : kept u = kept s := by
  unfold edgeAccept at h; (try dsimp only at h); (repeat' split at h) <;> first | (simp only [reduceCtorEq] at h; done) | (simp only [Option.some.injEq] at h; subst h; (repeat' split) <;> first | with_reducible rfl | (simp only [kept_mk, kept_fold, kept_foldl, implies_true, apply_ite kept, ite_self, kept_medTake, kept_touch, kept_setEdge, kept_edgeDies]; done))
theorem kept_encodePretoken {a0 : Nat} {a1 : Nat} {s : State} {u : State} (h : encodePretoken a0 a1 s = some u) : kept u = kept s := by
  unfold encodePretoken at h; dsimp only at h; (repeat' split at h) <;> first | (simp only [reduceCtorEq] at h; done) | (simp only [Option.some.injEq] at h; subst h; (repeat' split) <;> first | with_reducible rfl | (simp only [kept_mk, kept_fold, apply_ite kept, ite_self, kept_emptyCheck, kept_modHed, kept_modCh, kept_trEnd, kept_endCur, kept_raiseBoard]; done))
theorem kept_entryFetched {a0 : Nat} {a1 : Nat} {a2 : List Byte} {a3 : List Byte} {s : State} {u : State} (h : entryFetched a0 a1 a2 a3 s = some u) : kept u = kept s := by
  unfold entryFetched at h; (try dsimp only at h); (repeat' split at h) <;> first | (simp only [reduceCtorEq] at h; done) | (simp only [Option.some.injEq] at h; subst h; (repeat' split) <;> first | with_reducible rfl | (simp only [kept_mk, kept_fold, kept_foldl, implies_true, apply_ite kept, ite_self, kept_modHed, kept_setCh, kept_emptyCheck, kept_modCh, kept_spoilLast, kept_raiseBoard, kept_trEnd]; done))
theorem kept_flushText (a0 : Nat) (a1 : Nat) (a2 : Nat) (s : State) : kept (flushText a0 a1 a2 s) = kept s := by
  induction a2 generalizing s with
  | zero => rfl
  | succ n ih => unfold flushText; dsimp only; (repeat' split) <;> simp only [ih, kept_modCh, kept_writeCpl]
theorem kept_helloReceive {a0 : Nat} {a1 : Nat} {a2 : List Byte} {a3 : Nat} {a4 : Bool} {s : State} {u : State} (h : helloReceive a0 a1 a2 a3 a4 s = some u) : kept u = kept s := by
  unfold helloReceive at h; (try dsimp only at h); (repeat' split at h) <;> first | (simp only [reduceCtorEq] at h; done) | (simp only [Option.some.injEq] at h; subst h; (repeat' split) <;> first | with_reducible rfl | (simp only [kept_mk, kept_fold, kept_foldl, implies_true, apply_ite kept, ite_self, kept_setPortP, kept_goDead, kept_goActive, kept_portEvent]; done))
theorem kept_linkUnitReceive {a0 : Nat} {a1 : Nat} {a2 : List Byte} {a3 : Nat} {a4 : Bool} {s : State} {u : State} (h : linkUnitReceive a0 a1 a2 a3 a4 s = some u) : kept u = kept s := by
  unfold linkUnitReceive at h; (try dsimp only at h); (repeat' split at h) <;> first | (simp only [reduceCtorEq] at h; done) | (simp only [Option.some.injEq] at h; subst h; (repeat' split) <;> first | with_reducible rfl | (simp only [kept_mk, kept_fold, kept_foldl, implies_true, apply_ite kept, ite_self, kept_setPortP, kept_goRetrain]; done))
theorem kept_recordAccept {a0 : Nat} {s : State} {u : State} (h : recordAccept a0 s = some u) : kept u = kept s := by
  unfold recordAccept at h; (try dsimp only at h); (repeat' split at h) <;> first | (simp only [reduceCtorEq] at h; done) | (simp only [Option.some.injEq] at h; subst h; (repeat' split) <;> first | with_reducible rfl | (simp only [kept_mk, kept_fold, kept_foldl, implies_true, apply_ite kept, ite_self, kept_setMed, kept_assemble, kept_touch]; done))
theorem kept_retrain {a0 : Nat} {a1 : Nat} {s : State} {u : State} (h : retrain a0 a1 s = some u) : kept u = kept s := by
  unfold retrain at h; (repeat' split at h) <;> first | (simp only [reduceCtorEq] at h; done) | (simp only [Option.some.injEq] at h; subst h; (repeat' split) <;> first | with_reducible rfl | (simp only [apply_ite kept, ite_self, kept_goRetrain]; done))
theorem kept_retrainTimeout {a0 : Nat} {a1 : Nat} {s : State} {u : State} (h : retrainTimeout a0 a1 s = some u) : kept u = kept s := by
  unfold retrainTimeout at h; (repeat' split at h) <;> first | (simp only [reduceCtorEq] at h; done) | (simp only [Option.some.injEq] at h; subst h; (repeat' split) <;> first | with_reducible rfl | (simp only [apply_ite kept, ite_self, kept_goDead]; done))
theorem kept_winRead {m b ofs : Nat} {s : State} {p : Bool × State} (h : winRead m b ofs s = some p) : kept p.2 = kept s := by
  unfold winRead at h; dsimp only at h; (repeat' split at h) <;> first | (simp only [reduceCtorEq] at h; done) | (simp only [Option.some.injEq] at h; subst h; first | with_reducible rfl | (simp only [kept_mk, kept_fold, kept_medCplRead]; done))
theorem kept_medRead {m ofs : Nat} {s : State} {p : Bool × State} (h : medRead m ofs s = some p) : kept p.2 = kept s := by
  unfold medRead at h; dsimp only at h; split at h
  · exact kept_winRead h
  · (repeat' split at h) <;> first | (simp only [reduceCtorEq] at h; done) | (simp only [Option.some.injEq] at h; rw [← h]; rfl)
theorem kept_winWrite {m b ofs : Nat} {v : Word} {s : State} {p : Bool × State} (h : winWrite m b ofs v s = some p) : kept p.2 = kept s := by
  unfold winWrite at h; dsimp only at h; (repeat' split at h) <;> first | (simp only [reduceCtorEq] at h; done) | (simp only [Option.some.injEq] at h; subst h; first | with_reducible rfl | (simp only [kept_mk, kept_fold, kept_unwrote, kept_wrote, kept_setMed, kept_ptCommit, kept_descGo, kept_medFltSel, kept_resume]; done))
theorem kept_medWrite {m ofs : Nat} {v : Word} {s : State} {p : Bool × State} (h : medWrite m ofs v s = some p) : kept p.2 = kept s := by
  unfold medWrite at h; split at h
  · exact kept_winWrite h
  · split at h
    · simp only [Option.some.injEq] at h; subst h; exact kept_unwrote _
    · simp only [reduceCtorEq] at h
theorem kept_rimViolation (s : State) (a1 : Option Nat) : kept (rimViolation s a1) = kept s := by
  unfold rimViolation; (try dsimp only); (repeat' split) <;> first | with_reducible rfl | (simp only [kept_mk, kept_fold, kept_foldl, implies_true, apply_ite kept, ite_self, kept_violate]; done)
theorem kept_medWord (mst m : Nat) (ctx : Option Nat) (ofs be : Nat) (wr : Option Word) (s : State) :
    kept (medWord mst m ctx ofs be wr s) = kept s := by
  unfold medWord; dsimp only
  split
  · next g s1 _ hr =>
    have hk : kept s1 = kept s := by
      cases wr with
      | none => exact kept_medRead hr
      | some v => exact kept_medWrite hr
    split
    · rfl
    · split
      · exact kept_rimBusError _ _ _
      · exact hk
  · exact kept_rimViolation _ _
theorem kept_medBeat (mst m : Nat) (ctx : Option Nat) (ofs : Nat) (be : BitVec 8) (n : Nat) (wr : Option (List Byte)) (s : State) :
    kept (medBeat mst m ctx ofs be n wr s) = kept s := by
  unfold medBeat; dsimp only
  split
  · rfl
  · split
    · exact kept_medWord _ _ _ _ _ _ _
    · rw [kept_resp, kept_medWord, kept_medWord]
theorem kept_medBurst {a0 : Nat} {a1 : Nat} {a2 : Option Nat} {a3 : Nat} {a4 : Nat} {a5 : BitVec 8} {a6 : Option (List Byte)} {s : State} {u : State} (h : medBurst a0 a1 a2 a3 a4 a5 a6 s = some u) : kept u = kept s := by
  unfold medBurst at h; (try dsimp only at h); (repeat' split at h) <;> first | (simp only [reduceCtorEq] at h; done) | exact kept_dramWindow h | exact kept_waferWrite h | (simp only [Option.some.injEq] at h; subst h; (repeat' split) <;> first | with_reducible rfl | (simp only [kept_mk, kept_fold, kept_foldl, implies_true, apply_ite kept, ite_self, kept_medBeat, kept_rimViolation]; done))
theorem kept_queueCmd (s : State) (a1 : Nat) (a2 : Nat) (a3 : RimCmd) : kept (queueCmd s a1 a2 a3) = kept s := by
  unfold queueCmd; (try dsimp only); (repeat' split) <;> first | with_reducible rfl | (simp only [kept_mk, kept_fold, kept_foldl, implies_true, apply_ite kept, ite_self]; done)
theorem kept_toPath (a0 : Nat) (a1 : Nat) (a2 : RimCmd) (s : State) : kept (toPath a0 a1 a2 s) = kept s := by
  unfold toPath; generalize s.resp = r; cases r <;> simp only [kept_queueCmd]
theorem kept_hedBurst (a0 : Nat) (a1 : Nat) (a2 : Option Nat) (a3 : Nat) (a4 : Nat) (a5 : Option (List Byte)) (s : State) : kept (hedBurst a0 a1 a2 a3 a4 a5 s) = kept s := by
  unfold hedBurst; (try dsimp only); (repeat' split) <;> first | with_reducible rfl | (simp only [kept_mk, kept_fold, kept_foldl, implies_true, apply_ite kept, ite_self, kept_rimViolation, kept_modHed]; done)
theorem kept_rimBurst {a0 : Nat} {a1 : Nat} {a2 : Option Nat} {a3 : Nat} {a4 : Nat} {a5 : BitVec 8} {a6 : Option (List Byte)} {a7 : List Nat} {a8 : Nat} {s : State} {u : State} (h : rimBurst a0 a1 a2 a3 a4 a5 a6 a7 a8 s = some u) : kept u = kept s := by
  unfold rimBurst at h; (try dsimp only at h); (repeat' split at h) <;> first | (simp only [reduceCtorEq] at h; done) | (simp only [Option.map_eq_some_iff] at h; obtain ⟨w, hw, rfl⟩ := h; rw [kept_toPath, kept_medBurst hw]; (repeat' split) <;> simp only [kept_mk, kept_fold]; done) | (simp only [Option.some.injEq] at h; subst h; (repeat' split) <;> first | with_reducible rfl | (simp only [kept_mk, kept_fold, kept_foldl, implies_true, apply_ite kept, ite_self, kept_rimFault, kept_busError, kept_toPath, kept_hedBurst, kept_queueCmd]; done))
theorem kept_rimResponse {a0 : Nat} {a1 : Nat} {a2 : Nat} {s : State} {u : State} (h : rimResponse a0 a1 a2 s = some u) : kept u = kept s := by
  unfold rimResponse at h; (try dsimp only at h); (repeat' split at h) <;> first | (simp only [reduceCtorEq] at h; done) | (simp only [Option.some.injEq] at h; subst h; (repeat' split) <;> first | with_reducible rfl | (simp only [kept_mk, kept_fold, kept_foldl, implies_true, apply_ite kept, ite_self, kept_rimFault]; done))
theorem kept_ringReadFailed {a0 : Nat} {a1 : Nat} {s : State} {u : State} (h : ringReadFailed a0 a1 s = some u) : kept u = kept s := by
  unfold ringReadFailed at h; (repeat' split at h) <;> first | (simp only [reduceCtorEq] at h; done) | (simp only [Option.some.injEq] at h; subst h; (repeat' split) <;> first | with_reducible rfl | (simp only [kept_mk, kept_fold, apply_ite kept, ite_self, kept_modCh, kept_spoilLast, kept_raiseBoard]; done))
theorem kept_sectorDone {a0 : Bool} {s : State} {u : State} (h : sectorDone a0 s = some u) : kept u = kept s := by
  unfold sectorDone at h; (try dsimp only at h); (repeat' split at h) <;> first | (simp only [reduceCtorEq] at h; done) | (simp only [Option.some.injEq] at h; subst h; (repeat' split) <;> first | with_reducible rfl | (simp only [kept_mk, kept_fold, kept_foldl, implies_true, apply_ite kept, ite_self, kept_slateEnd, kept_breakSector, kept_slateGo]; done))
theorem kept_slateRun (a0 : SlateJob) (s : State) : kept (slateRun a0 s) = kept s := by
  unfold slateRun; simp only [kept_mk, kept_fold, apply_ite kept, ite_self, kept_slateEnd, kept_slateGo]
theorem kept_viaAp {s : State} {f : Fn} {ap : Nat} {rd : Bool} {op : Nat → Brick → Option State} {u : State}
    (h : viaAp s f ap rd op = some u) (hf : ∀ k b v, op k b = some v → kept v = kept s) : kept u = kept s := by
  unfold viaAp at h
  split at h
  · exact kept_access h rfl
  · dsimp only at h; split at h
    · exact hf _ _ _ h
    · exact kept_access h rfl
theorem kept_wClk {a0 : Fn} {a1 : Nat} {a2 : Word} {s : State} {u : State} (h : wClk a0 a1 a2 s = some u) : kept u = kept s := by
  unfold wClk at h; (repeat' split at h) <;> first | (simp only [reduceCtorEq] at h; done) | (simp only [Option.some.injEq] at h; subst h; (repeat' split) <;> first | with_reducible rfl | (simp only [kept_mk, kept_fold, apply_ite kept, ite_self, kept_wrote, kept_refSwitchRequest, kept_clkFieldSel, kept_unwrote]; done)) | exact kept_access h (by (repeat' split) <;> first | with_reducible rfl | (simp only [kept_mk, kept_fold, apply_ite kept, ite_self, kept_wrote, kept_refSwitchRequest, kept_clkFieldSel, kept_unwrote]; done))
theorem kept_wFault {a0 : Fn} {a1 : Nat} {a2 : Word} {s : State} {u : State} (h : wFault a0 a1 a2 s = some u) : kept u = kept s := by
  unfold wFault at h; (repeat' split at h) <;> first | (simp only [reduceCtorEq] at h; done) | (simp only [Option.some.injEq] at h; subst h; (repeat' split) <;> first | with_reducible rfl | (simp only [kept_mk, kept_fold, apply_ite kept, ite_self, kept_wrote, kept_quarSel, kept_unwrote]; done)) | exact kept_access h (by (repeat' split) <;> first | with_reducible rfl | (simp only [kept_mk, kept_fold, apply_ite kept, ite_self, kept_wrote, kept_quarSel, kept_unwrote]; done))
theorem kept_wGw {a0 : Fn} {a1 : Nat} {a2 : Nat} {a3 : Nat} {a4 : Word} {s : State} {u : State} (h : wGw a0 a1 a2 a3 a4 s = some u) : kept u = kept s := by
  unfold wGw at h; (repeat' split at h) <;> first | (simp only [reduceCtorEq] at h; done) | (simp only [Option.some.injEq] at h; subst h; (repeat' split) <;> first | with_reducible rfl | (simp only [kept_mk, kept_fold, apply_ite kept, ite_self, kept_wrote, kept_setCh, kept_gwSsel, kept_unwrote]; done)) | exact kept_access h (by (repeat' split) <;> first | with_reducible rfl | (simp only [kept_mk, kept_fold, apply_ite kept, ite_self, kept_wrote, kept_setCh, kept_gwSsel, kept_unwrote]; done))
theorem kept_wIdent {f : Fn} {ofs : Nat} {v : Word} {s u : State} (h : wIdent f ofs v s = some u) (ho : ofs ≠ 0x608) :
    kept u = kept s := by
  unfold wIdent at h; dsimp only at h
  (repeat' split at h) <;> first | exact absurd ‹_› ho | exact kept_access h (by first | with_reducible rfl | simp only [kept_wrote, kept_unwrote, kept_gridSel, kept_mk, kept_fold])
theorem kept_wLx {a0 : Fn} {a1 : Nat} {a2 : Nat} {a3 : Nat} {a4 : Word} {s : State} {u : State} (h : wLx a0 a1 a2 a3 a4 s = some u) : kept u = kept s := by
  unfold wLx at h; (repeat' split at h) <;> first | (simp only [reduceCtorEq] at h; done) | (simp only [Option.some.injEq] at h; subst h; (repeat' split) <;> first | with_reducible rfl | (simp only [kept_mk, kept_fold, apply_ite kept, ite_self, kept_unwrote, kept_cancel, kept_wrote, kept_setCh]; done)) | exact kept_access h (by (repeat' split) <;> first | with_reducible rfl | (simp only [kept_mk, kept_fold, apply_ite kept, ite_self, kept_unwrote, kept_cancel, kept_wrote, kept_setCh]; done))
theorem kept_wMsix {a0 : Fn} {a1 : Nat} {a2 : Nat} {a3 : Word} {s : State} {u : State} (h : wMsix a0 a1 a2 a3 s = some u) : kept u = kept s := by
  unfold wMsix at h; (repeat' split at h) <;> first | (simp only [reduceCtorEq] at h; done) | (simp only [Option.some.injEq] at h; subst h; (repeat' split) <;> first | with_reducible rfl | (simp only [kept_mk, kept_fold, apply_ite kept, ite_self, kept_modFn, kept_sendPending, kept_wrote]; done)) | exact kept_access h (by (repeat' split) <;> first | with_reducible rfl | (simp only [kept_mk, kept_fold, apply_ite kept, ite_self, kept_modFn, kept_sendPending, kept_wrote]; done))
theorem kept_wPwr {a0 : Fn} {a1 : Nat} {a2 : Word} {s : State} {u : State} (h : wPwr a0 a1 a2 s = some u) : kept u = kept s := by
  unfold wPwr at h; (repeat' split at h) <;> first | (simp only [reduceCtorEq] at h; done) | (simp only [Option.some.injEq] at h; subst h; (repeat' split) <;> first | with_reducible rfl | (simp only [kept_mk, kept_fold, apply_ite kept, ite_self, kept_wrote, kept_unwrote, kept_targetWrite, kept_stewardGo, kept_pwrFieldSel]; done)) | exact kept_access h (by (repeat' split) <;> first | with_reducible rfl | (simp only [kept_mk, kept_fold, apply_ite kept, ite_self, kept_wrote, kept_unwrote, kept_targetWrite, kept_stewardGo, kept_pwrFieldSel]; done))
theorem kept_wRim {a0 : Fn} {a1 : Nat} {a2 : Word} {s : State} {u : State} (h : wRim a0 a1 a2 s = some u) : kept u = kept s := by
  unfold wRim at h; (repeat' split at h) <;> first | (simp only [reduceCtorEq] at h; done) | (simp only [Option.some.injEq] at h; subst h; (repeat' split) <;> first | with_reducible rfl | (simp only [apply_ite kept, ite_self, kept_rimPathSel, kept_unwrote]; done)) | exact kept_access h (by (repeat' split) <;> first | with_reducible rfl | (simp only [apply_ite kept, ite_self, kept_rimPathSel, kept_unwrote]; done))
theorem kept_wRing {a0 : Fn} {a1 : Nat} {a2 : Nat} {a3 : Nat} {a4 : Word} {s : State} {u : State} (h : wRing a0 a1 a2 a3 a4 s = some u) : kept u = kept s := by
  unfold wRing at h; (repeat' split at h) <;> first | (simp only [reduceCtorEq] at h; done) | (simp only [Option.some.injEq] at h; subst h; (repeat' split) <;> first | with_reducible rfl | (simp only [kept_mk, kept_fold, apply_ite kept, ite_self, kept_ringEnable, kept_ringDisable, kept_wrote, kept_setCh, kept_unwrote]; done)) | exact kept_access h (by (repeat' split) <;> first | with_reducible rfl | (simp only [kept_mk, kept_fold, apply_ite kept, ite_self, kept_ringEnable, kept_ringDisable, kept_wrote, kept_setCh, kept_unwrote]; done))
theorem kept_wSched {f : Fn} {e : SchedEntry} {ofs : Nat} {v : Word} {s u : State} (h : wSched f e ofs v s = some u) : kept u = kept s := by
  have hc : kept ((schedCancel (entKey e) v s).getD s) = kept s := by
    cases hs : schedCancel (entKey e) v s with | none => rfl | some w => exact kept_schedCancel hs
  unfold wSched at h; dsimp only at h
  (repeat' split at h) <;> first | (simp only [reduceCtorEq] at h; done) | exact kept_access h (by first | exact hc | (simp only [kept_schedArm, kept_unwrote, apply_ite kept, kept_wrote, kept_setEnt, ite_self]; done))
theorem kept_wStesy {a0 : Fn} {a1 : Nat} {a2 : Nat} {a3 : Word} {s : State} {u : State} (h : wStesy a0 a1 a2 a3 s = some u) : kept u = kept s := by
  unfold wStesy at h; dsimp only at h; (repeat' split at h) <;> first | (simp only [reduceCtorEq] at h; done) | (simp only [Option.some.injEq] at h; subst h; (repeat' split) <;> first | with_reducible rfl | (simp only [kept_mk, kept_fold, apply_ite kept, ite_self, kept_wrote, kept_setPortP, kept_lselWrite, kept_unwrote, kept_cselWrite, kept_fselWrite]; done)) | exact kept_access h (by (repeat' split) <;> first | with_reducible rfl | (simp only [kept_mk, kept_fold, apply_ite kept, ite_self, kept_wrote, kept_setPortP, kept_lselWrite, kept_unwrote, kept_cselWrite, kept_fselWrite]; done))
theorem kept_wTile {a0 : Fn} {a1 : Nat} {a2 : Word} {s : State} {u : State} (h : wTile a0 a1 a2 s = some u) : kept u = kept s := by
  unfold wTile at h; (repeat' split at h) <;> first | (simp only [reduceCtorEq] at h; done) | (simp only [Option.some.injEq] at h; subst h; (repeat' split) <;> first | with_reducible rfl | (simp only [kept_mk, kept_fold, kept_wrote, kept_modFn, kept_tileBind]; done)) | exact kept_access h (by (repeat' split) <;> first | with_reducible rfl | (simp only [kept_mk, kept_fold, kept_wrote, kept_modFn, kept_tileBind]; done))
theorem kept_winAccess {f : Fn} {m b : Nat} {rd : Bool} {r s u : State} (h : winAccess f m b rd r s = some u) (hr : kept r = kept s) :
    kept u = kept s := by
  exact kept_access h hr
theorem kept_windowRead {a0 : Fn} {a1 : Nat} {s : State} {u : State} (h : windowRead a0 a1 s = some u) : kept u = kept s := by
  unfold windowRead at h; dsimp only at h; (repeat' split at h) <;> first | (simp only [reduceCtorEq] at h; done) | (simp only [Option.some.injEq] at h; subst h; (repeat' split) <;> first | with_reducible rfl | (simp only [kept_mk, kept_fold, apply_ite kept, ite_self]; done)) | exact kept_access h (by (repeat' split) <;> first | with_reducible rfl | (simp only [kept_mk, kept_fold, apply_ite kept, ite_self]; done))
theorem kept_chosenEnd (a0 : Nat) (a1 : Nat) (a2 : Nat) (a3 : Nat) (a4 : Chan) (a5 : Cur) (a6 : Bool) (a7 : Nat) (a8 : List Nat) (s : State) : kept (chosenEnd a0 a1 a2 a3 a4 a5 a6 a7 a8 s) = kept s := by
  unfold chosenEnd; simp only [apply_ite kept, ite_self, kept_trEnd, kept_lexFault, kept_chosenAct]
theorem kept_commitStart {s : State} {u : State} (h : commitStart s = some u) : kept u = kept s := by
  unfold commitStart at h; dsimp only at h; (repeat' split at h) <;> first | (simp only [reduceCtorEq] at h; done) | (simp only [Option.some.injEq] at h; subst h; (repeat' split) <;> first | with_reducible rfl | (simp only [kept_mk, kept_fold, apply_ite kept, ite_self, kept_commitLost, kept_startPage]; done))
theorem kept_creditUnitSend {a0 : Nat} {a1 : Nat} {s : State} {u : State} (h : creditUnitSend a0 a1 s = some u) : kept u = kept s := by
  unfold creditUnitSend at h; dsimp only at h; (repeat' split at h) <;> first | (simp only [reduceCtorEq] at h; done) | (simp only [Option.some.injEq] at h; subst h; (repeat' split) <;> first | with_reducible rfl | (simp only [kept_mk, kept_fold, apply_ite kept, ite_self, kept_originate, kept_setSlot]; done))
theorem kept_dataUnitReceive {a0 : Nat} {a1 : Nat} {a2 : List Byte} {a3 : Nat} {a4 : Bool} {s : State} {u : State} (h : dataUnitReceive a0 a1 a2 a3 a4 s = some u) : kept u = kept s := by
  unfold dataUnitReceive at h; (try dsimp only at h); (repeat' split at h) <;> first | (simp only [reduceCtorEq] at h; done) | (simp only [Option.some.injEq] at h; subst h; (repeat' split) <;> first | with_reducible rfl | (simp only [kept_mk, kept_fold, kept_foldl, implies_true, apply_ite kept, ite_self, kept_setPortP, kept_leaveBuffer]; done))
theorem kept_dmaReadFailed {a0 : DmaConsumer} {s : State} {u : State} (h : dmaReadFailed a0 s = some u) : kept u = kept s := by
  unfold dmaReadFailed at h; (repeat' split at h) <;> first | (simp only [reduceCtorEq] at h; done) | (simp only [Option.some.injEq] at h; subst h; (repeat' split) <;> first | with_reducible rfl | (simp only [kept_mk, kept_fold]; done) | (simp only [kept_mk, kept_fold]; exact kept_ringReadFailed ‹_›) | exact kept_ringReadFailed ‹_› | (simp only [kept_mk, kept_fold]; exact kept_loadReadFailed ‹_›) | exact kept_loadReadFailed ‹_› | (simp only [kept_mk, kept_fold]; exact kept_checkUnread ‹_›) | exact kept_checkUnread ‹_› | (simp only [kept_mk, kept_fold]; exact kept_slateReadFailed ‹_›) | exact kept_slateReadFailed ‹_›) | (rw [kept_ringReadFailed h]; simp only [kept_mk, kept_fold]; done) | exact kept_ringReadFailed h | (rw [kept_loadReadFailed h]; simp only [kept_mk, kept_fold]; done) | exact kept_loadReadFailed h | (rw [kept_checkUnread h]; simp only [kept_mk, kept_fold]; done) | exact kept_checkUnread h | (rw [kept_slateReadFailed h]; simp only [kept_mk, kept_fold]; done) | exact kept_slateReadFailed h
theorem kept_flitsSend {a0 : Nat} {a1 : Nat} {s : State} {u : State} (h : flitsSend a0 a1 s = some u) : kept u = kept s := by
  unfold flitsSend at h; dsimp only at h; (repeat' split at h) <;> first | (simp only [reduceCtorEq] at h; done) | (simp only [Option.some.injEq] at h; subst h; (repeat' split) <;> first | with_reducible rfl | (simp only [kept_mk, kept_fold, kept_foldl, implies_true, apply_ite kept, ite_self, kept_setSlot, kept_originate, kept_modHed]; done))
theorem kept_flushOut (a0 : Nat) (a1 : Nat) (s : State) : kept (flushOut a0 a1 s) = kept s := by
  unfold flushOut; simp only [kept_flushText]
theorem kept_onStalemate {a0 : Nat} {a1 : List Word} {s : State} {u : State} (h : onStalemate a0 a1 s = some u) : kept u = kept s := by
  unfold onStalemate at h; (repeat' split at h) <;> first | (simp only [reduceCtorEq] at h; done) | (simp only [Option.some.injEq] at h; subst h; (repeat' split) <;> first | with_reducible rfl | (simp only [apply_ite kept, ite_self, kept_declare]; done))
theorem kept_commitFail (a0 : DefectJob) (a1 : Nat) (s : State) : kept (commitFail a0 a1 s) = kept s := by
  unfold commitFail; (try dsimp only); (repeat' split) <;> first | with_reducible rfl | (simp only [kept_mk, kept_fold, kept_foldl, implies_true, apply_ite kept, ite_self, kept_commitMark, kept_slateGo, kept_slateEnd, kept_commitLost]; done)
theorem kept_jobNext (a0 : Bool) (a1 : Nat) (a2 : List Byte) (s : State) : kept (jobNext a0 a1 a2 s) = kept s := by
  unfold jobNext; (try dsimp only); (repeat' split) <;> first | with_reducible rfl | (simp only [kept_mk, kept_fold, kept_foldl, implies_true, apply_ite kept, ite_self, kept_slateEnd, kept_slateGo]; done)
theorem kept_pageDone {a0 : Bool} {s : State} {u : State} (h : pageDone a0 s = some u) : kept u = kept s := by
  unfold pageDone at h; (try dsimp only at h); (repeat' split at h) <;> first | (simp only [reduceCtorEq] at h; done) | (simp only [Option.some.injEq] at h; subst h; (repeat' split) <;> first | with_reducible rfl | (simp only [kept_mk, kept_fold, kept_foldl, implies_true, apply_ite kept, ite_self, kept_applyPage, kept_commitNext, kept_commitFail, kept_jobNext]; done))
theorem kept_selVia {s : State} {f : Fn} {ap : Nat} {op : Nat → Brick → Brick} {u : State} (h : selVia s f ap op = some u) :
    kept u = kept s := by
  refine kept_viaAp h (fun k b v h => ?_)
  simp only [Option.some.injEq] at h; subst h; simp only [kept_mk, kept_fold, kept_setB]
theorem kept_slateCmd {a0 : Fn} {a1 : Word} {a2 : Nat} {a3 : State → SlateJob} {s : State} {u : State} (h : slateCmd a0 a1 a2 a3 s = some u) : kept u = kept s := by
  unfold slateCmd at h; (repeat' split at h) <;> first | (simp only [reduceCtorEq] at h; done) | (simp only [Option.some.injEq] at h; subst h; (repeat' split) <;> first | with_reducible rfl | (simp only [apply_ite kept, ite_self, kept_slateRun]; done)) | exact kept_access h (by (repeat' split) <;> first | with_reducible rfl | (simp only [apply_ite kept, ite_self, kept_slateRun]; done))
theorem kept_stalemateDeclare {a0 : Nat} {s : State} {u : State} (h : stalemateDeclare a0 s = some u) : kept u = kept s := by
  unfold stalemateDeclare at h; dsimp only at h; (repeat' split at h) <;> first | (simp only [reduceCtorEq] at h; done) | (simp only [Option.some.injEq] at h; subst h; (repeat' split) <;> first | with_reducible rfl | (simp only [apply_ite kept, ite_self, kept_declare]; done))
theorem kept_wHed {a0 : Fn} {a1 : Nat} {a2 : Nat} {a3 : Word} {s : State} {u : State} (h : wHed a0 a1 a2 a3 s = some u) : kept u = kept s := by
  unfold wHed at h; dsimp only at h; (repeat' split at h) <;> first | (simp only [reduceCtorEq] at h; done) | (simp only [Option.some.injEq] at h; subst h; (repeat' split) <;> first | with_reducible rfl | (simp only [apply_ite kept, ite_self]; done) | (simp only [apply_ite kept, ite_self]; exact kept_wLx ‹_›) | exact kept_wLx ‹_› | (simp only [apply_ite kept, ite_self]; exact kept_wGw ‹_›) | exact kept_wGw ‹_› | (simp only [apply_ite kept, ite_self]; exact kept_wRing ‹_›) | exact kept_wRing ‹_› | (simp only [apply_ite kept, ite_self]; exact kept_wStesy ‹_›) | exact kept_wStesy ‹_›) | (rw [kept_wLx h]; simp only [apply_ite kept, ite_self]; done) | exact kept_wLx h | (rw [kept_wGw h]; simp only [apply_ite kept, ite_self]; done) | exact kept_wGw h | (rw [kept_wRing h]; simp only [apply_ite kept, ite_self]; done) | exact kept_wRing h | (rw [kept_wStesy h]; simp only [apply_ite kept, ite_self]; done) | exact kept_wStesy h | exact kept_access h (by (repeat' split) <;> first | with_reducible rfl | (simp only [apply_ite kept, ite_self]; done) | (simp only [apply_ite kept, ite_self]; exact kept_wLx ‹_›) | exact kept_wLx ‹_› | (simp only [apply_ite kept, ite_self]; exact kept_wGw ‹_›) | exact kept_wGw ‹_› | (simp only [apply_ite kept, ite_self]; exact kept_wRing ‹_›) | exact kept_wRing ‹_› | (simp only [apply_ite kept, ite_self]; exact kept_wStesy ‹_›) | exact kept_wStesy ‹_›)
theorem kept_wTime {a0 : Fn} {a1 : Nat} {a2 : Word} {s : State} {u : State} (h : wTime a0 a1 a2 s = some u) : kept u = kept s := by
  unfold wTime at h; (repeat' split at h) <;> first | (simp only [reduceCtorEq] at h; done) | (simp only [Option.some.injEq] at h; subst h; (repeat' split) <;> first | with_reducible rfl | (simp only [kept_mk, kept_fold, apply_ite kept, ite_self, kept_wrote, kept_timeCtl, kept_unwrote]; done) | (simp only [kept_mk, kept_fold, apply_ite kept, ite_self, kept_wrote, kept_timeCtl, kept_unwrote]; exact kept_wSched ‹_›) | exact kept_wSched ‹_›) | exact kept_access h (by (repeat' split) <;> first | with_reducible rfl | (simp only [kept_mk, kept_fold, apply_ite kept, ite_self, kept_wrote, kept_timeCtl, kept_unwrote]; done) | (simp only [kept_mk, kept_fold, apply_ite kept, ite_self, kept_wrote, kept_timeCtl, kept_unwrote]; exact kept_wSched ‹_›) | exact kept_wSched ‹_›) | (rw [kept_wSched h]; simp only [kept_mk, kept_fold, apply_ite kept, ite_self, kept_wrote, kept_timeCtl, kept_unwrote]; done) | exact kept_wSched h
theorem kept_gatedAccess {a0 : Fn} {a1 : Nat} {a2 : Bool} {a3 : Bool} {r : Option (Bool × State)} {s u : State}
    (h : gatedAccess a0 a1 a2 a3 r s = some u) (hr : ∀ p, r = some p → kept p.2 = kept s) : kept u = kept s := by
  unfold gatedAccess at h
  split at h
  · exact kept_access h (hr _ rfl)
  · exact kept_access h rfl
theorem kept_wWin {f : Fn} {m b ofs : Nat} {v : Word} {s u : State} (h : wWin f m b ofs v s = some u) : kept u = kept s :=
  kept_gatedAccess h (fun _ hp => kept_winWrite hp)
theorem kept_chosenText (a0 : Nat) (a1 : Nat) (a2 : Nat) (a3 : Nat) (a4 : Chan) (a5 : Cur) (a6 : Nat) (a7 : List Nat) (s : State) : kept (chosenText a0 a1 a2 a3 a4 a5 a6 a7 s) = kept s := by
  unfold chosenText; simp only [kept_mk, kept_fold, apply_ite kept, ite_self, kept_trEnd, kept_lexFault, kept_chosenEnd, kept_flushOut, kept_modCh]
theorem kept_cplDb (a0 : Nat) (a1 : Nat) (a2 : Word) (s : State) : kept (cplDb a0 a1 a2 s) = kept s := by
  unfold cplDb; simp only [kept_mk, kept_fold, apply_ite kept, ite_self, kept_setCh, kept_flushOut]
theorem kept_finalRecord {a0 : Nat} {a1 : Nat} {s : State} {u : State} (h : finalRecord a0 a1 s = some u) : kept u = kept s := by
  unfold finalRecord at h; dsimp only at h; (repeat' split at h) <;> first | (simp only [reduceCtorEq] at h; done) | (simp only [Option.some.injEq] at h; subst h; (repeat' split) <;> first | with_reducible rfl | (simp only [kept_mk, kept_fold, apply_ite kept, ite_self, kept_modCh, kept_flushOut, kept_writeCpl]; done))
theorem kept_flushBoard (a0 : Nat) (s : State) : kept (flushBoard a0 s) = kept s := by
  unfold flushBoard; simp only [kept_foldl, implies_true, apply_ite kept, ite_self, kept_flushOut]
theorem kept_quiescence {a0 : Nat} {s : State} {u : State} (h : quiescence a0 s = some u) : kept u = kept s := by
  unfold quiescence at h; (try dsimp only at h); (repeat' split at h) <;> first | (simp only [reduceCtorEq] at h; done) | (simp only [Option.some.injEq] at h; subst h; (repeat' split) <;> first | with_reducible rfl | (simp only [kept_mk, kept_fold, kept_foldl, implies_true, apply_ite kept, ite_self, kept_setBd, kept_sendNotice, kept_sigBoard, kept_armNotice, kept_endDiscards]; done))
theorem kept_sendLoaded (a0 : Nat) (s : State) : kept (sendLoaded a0 s) = kept s := by
  unfold sendLoaded; simp only [kept_foldl, implies_true, apply_ite kept, ite_self, kept_sendNotice]
theorem kept_wBrick {f : Fn} {ap ofs : Nat} {v : Word} {s u : State} (h : wBrick f ap ofs v s = some u) : kept u = kept s := by
  unfold wBrick at h; dsimp only at h
  iterate 2 refine ite_some h (fun h => kept_selVia h) (fun h => ?_)
  refine ite_some h (fun h => kept_selVia h) (fun h => ?_)
  refine ite_some h (fun h => kept_viaAp h (fun k b v h => ?_)) (fun h => ?_)
  · simp only [Option.some.injEq] at h; subst h; exact kept_pmemLoWrite _ _ _ _
  refine ite_some h (fun h => kept_viaAp h (fun k b v h => ?_)) (fun h => ?_)
  · simp only [Option.some.injEq] at h; subst h; exact kept_pmemHiWrite _ _ _ _
  refine ite_some h (fun h => kept_selVia h) (fun h => ?_)
  refine ite_some h (fun h => kept_viaAp h (fun k b v h => kept_sramDataWrite h)) (fun h => ?_)
  iterate 3 refine ite_some h (fun h => kept_selVia h) (fun h => ?_)
  refine ite_some h (fun h => kept_viaAp h (fun k b v h => ?_)) (fun h => ?_)
  · simp only [Option.some.injEq] at h; subst h; exact kept_wrCfg _ _ _ _ _
  split at h
  · exact kept_selVia h
  · refine ite_some h (fun h => kept_viaAp h (fun k b v h => ?_)) (fun h => kept_access h rfl)
    simp only [Option.some.injEq] at h; subst h; exact kept_unwrote _
theorem kept_wMed {f : Fn} {m ofs : Nat} {v : Word} {s u : State} (h : wMed f m ofs v s = some u) : kept u = kept s :=
  kept_gatedAccess h (fun _ hp => kept_medWrite hp)
theorem kept_wSlateCmd {a0 : Fn} {a1 : Word} {s : State} {u : State} (h : wSlateCmd a0 a1 s = some u) : kept u = kept s := by
  unfold wSlateCmd at h; (repeat' split at h) <;> first | (simp only [reduceCtorEq] at h; done) | (simp only [Option.some.injEq] at h; subst h; (repeat' split) <;> first | with_reducible rfl | (simp only [kept_mk, kept_fold, kept_unwrote]; done) | (simp only [kept_mk, kept_fold, kept_unwrote]; exact kept_slateCmd ‹_›) | exact kept_slateCmd ‹_›) | (rw [kept_slateCmd h]; simp only [kept_mk, kept_fold, kept_unwrote]; done) | exact kept_slateCmd h | exact kept_access h (by (repeat' split) <;> first | with_reducible rfl | (simp only [kept_mk, kept_fold, kept_unwrote]; done) | (simp only [kept_mk, kept_fold, kept_unwrote]; exact kept_slateCmd ‹_›) | exact kept_slateCmd ‹_›)
theorem kept_abortNow (s : State) (a1 : Nat) : kept (abortNow s a1) = kept s := by
  unfold abortNow; rw [kept_foldl, kept_abortBoard]
  intro s c
  cases hc : finalRecord (a1 / 4) c s with
  | none => rfl
  | some v => exact kept_finalRecord hc
theorem kept_resumeProgram (s : State) : kept (resumeProgram s) = kept s := by
  unfold resumeProgram; (try dsimp only); (repeat' split) <;> first | with_reducible rfl | (simp only [kept_mk, kept_fold, kept_foldl, implies_true, apply_ite kept, ite_self, kept_slateGo]; done)
theorem kept_busMaster {a0 : Fn} {a1 : Bool} {s : State} {u : State} (h : busMaster a0 a1 s = some u) : kept u = kept s := by
  unfold busMaster at h; (try dsimp only at h); (repeat' split at h) <;> first | (simp only [reduceCtorEq] at h; done) | (simp only [Option.some.injEq] at h; subst h; (repeat' split) <;> first | with_reducible rfl | (simp only [kept_mk, kept_fold, kept_foldl, implies_true, apply_ite kept, ite_self, kept_modFn, kept_resumeProgram, kept_sendPending, kept_setEnd, kept_flushBoard]; done))
theorem kept_chosen (a0 : Nat) (a1 : Nat) (a2 : Nat) (a3 : Nat) (s : State) : kept (chosen a0 a1 a2 a3 s) = kept s := by
  unfold chosen; dsimp only; (repeat' split) <;> first | with_reducible rfl | (simp only [kept_mk, kept_fold, apply_ite kept, ite_self, kept_trEnd, kept_lexFault, kept_modCh, kept_endCur, kept_raiseBoard, kept_chosenText]; done)
theorem kept_drainInputsEnd {a0 : Nat} {s : State} {u : State} (h : drainInputsEnd a0 s = some u) : kept u = kept s := by
  unfold drainInputsEnd at h; (try dsimp only at h); (repeat' split at h) <;> first | (simp only [reduceCtorEq] at h; done) | (simp only [Option.some.injEq] at h; subst h; (repeat' split) <;> first | with_reducible rfl | (simp only [kept_mk, kept_fold, kept_foldl, implies_true, apply_ite kept, ite_self, kept_setBd, kept_modB, kept_cancelEntries, kept_abandonAll, kept_closeSlots, kept_armNotice, kept_sendAll]; done))
theorem kept_drainLimit {a0 : Nat} {s : State} {u : State} (h : drainLimit a0 s = some u) : kept u = kept s := by
  unfold drainLimit at h; dsimp only at h; (repeat' split at h) <;> first | (simp only [reduceCtorEq] at h; done) | (simp only [Option.some.injEq] at h; subst h; (repeat' split) <;> first | with_reducible rfl | (simp only [apply_ite kept, ite_self, kept_declare, kept_sendAll]; done))
theorem kept_finalCompletion {a0 : Nat} {a1 : Nat} {s : State} {u : State} (h : finalCompletion a0 a1 s = some u) : kept u = kept s := by
  unfold finalCompletion at h; (repeat' split at h) <;> first | (simp only [reduceCtorEq] at h; done) | (simp only [Option.some.injEq] at h; subst h; (repeat' split) <;> first | with_reducible rfl | (simp only [kept_mk, kept_fold, apply_ite kept, ite_self]; done) | (simp only [kept_mk, kept_fold, apply_ite kept, ite_self]; exact kept_finalRecord ‹_›) | exact kept_finalRecord ‹_›) | (rw [kept_finalRecord h]; simp only [kept_mk, kept_fold, apply_ite kept, ite_self]; done) | exact kept_finalRecord h
theorem kept_resumeOn (a0 : Nat) (s : State) : kept (resumeOn a0 s) = kept s := by
  unfold resumeOn; (try dsimp only); (repeat' split) <;> first | with_reducible rfl | (simp only [kept_mk, kept_fold, kept_foldl, implies_true, apply_ite kept, ite_self, kept_resumeEnd, kept_mapMesh, kept_refreshAll]; done)
theorem kept_startGo (a0 : Nat) (a1 : Nat) (s : State) : kept (startGo a0 a1 s) = kept s := by
  unfold startGo; simp only [kept_mk, kept_fold, apply_ite kept, ite_self, kept_modBd, kept_sendAll]
theorem kept_wSlate {a0 : Fn} {a1 : Nat} {a2 : Word} {s : State} {u : State} (h : wSlate a0 a1 a2 s = some u) : kept u = kept s := by
  unfold wSlate at h; (repeat' split at h) <;> first | (simp only [reduceCtorEq] at h; done) | (simp only [Option.some.injEq] at h; subst h; (repeat' split) <;> first | with_reducible rfl | (simp only [kept_mk, kept_fold, kept_wrote, kept_unwrote]; done) | (simp only [kept_mk, kept_fold, kept_wrote, kept_unwrote]; exact kept_wSlateCmd ‹_›) | exact kept_wSlateCmd ‹_›) | exact kept_access h (by (repeat' split) <;> first | with_reducible rfl | (simp only [kept_mk, kept_fold, kept_wrote, kept_unwrote]; done) | (simp only [kept_mk, kept_fold, kept_wrote, kept_unwrote]; exact kept_wSlateCmd ‹_›) | exact kept_wSlateCmd ‹_›) | (rw [kept_wSlateCmd h]; simp only [kept_mk, kept_fold, kept_wrote, kept_unwrote]; done) | exact kept_wSlateCmd h
theorem kept_doReset (a0 : Nat) (s : State) : kept (doReset a0 s) = kept s := by
  unfold doReset; simp only [kept_mk, kept_fold, kept_foldl, implies_true, apply_ite kept, ite_self, kept_sendAll, kept_abortNow,
      kept_medReset, kept_closeSlots, kept_modB, kept_clearEdges, kept_clearTies, kept_modHed, kept_cancelEntries, kept_modBd]
theorem kept_drainCmd (a0 : Nat) (a1 : Bool) (s : State) : kept (drainCmd a0 a1 s) = kept s := by
  unfold drainCmd; dsimp only; (repeat' split) <;> first | with_reducible rfl | (simp only [kept_mk, kept_fold, apply_ite kept, ite_self, kept_ignoreCmd, kept_startDrain]; done)
theorem kept_entEffect (a0 : Nat) (s : State) : kept (entEffect a0 s) = kept s := by
  unfold entEffect; dsimp only; (repeat' split) <;> first | with_reducible rfl | (simp only [kept_mk, kept_fold, apply_ite kept, ite_self, kept_setTargets, kept_startGo, kept_modBd, kept_streamsBegin, kept_completeGo]; done)
theorem kept_faultDrainGo (a0 : Nat) (s : State) : kept (faultDrainGo a0 s) = kept s := by
  unfold faultDrainGo; dsimp only; (repeat' split) <;> first | with_reducible rfl | (simp only [kept_mk, kept_fold, apply_ite kept, ite_self, kept_modBd, kept_sendAll, kept_startDrain]; done)
theorem kept_issueWord {a0 : Nat} {a1 : Nat} {s : State} {u : State} (h : issueWord a0 a1 s = some u) : kept u = kept s := by
  unfold issueWord at h; dsimp only at h
  (repeat' split at h) <;> first | (simp only [reduceCtorEq] at h; done) | (simp only [Option.some.injEq] at h; subst h; (repeat' split) <;> simp only [kept_armNotice, kept_maskBegin, kept_modCh, kept_modBd, kept_injectInto])
theorem kept_onDrain {a0 : Nat} {a1 : List Word} {s : State} {u : State} (h : onDrain a0 a1 s = some u) : kept u = kept s := by
  unfold onDrain at h; (try dsimp only at h); (repeat' split at h) <;> first | (simp only [reduceCtorEq] at h; done) | (simp only [Option.some.injEq] at h; subst h; (repeat' split) <;> first | with_reducible rfl | (simp only [kept_mk, kept_fold, kept_foldl, implies_true, apply_ite kept, ite_self, kept_setBd, kept_startDrain, kept_modBd]; done))
theorem kept_onStart {a0 : Nat} {a1 : List Word} {s : State} {u : State} (h : onStart a0 a1 s = some u) : kept u = kept s := by
  unfold onStart at h; (repeat' split at h) <;> first | (simp only [reduceCtorEq] at h; done) | (simp only [Option.some.injEq] at h; subst h; (repeat' split) <;> first | with_reducible rfl | (simp only [kept_mk, kept_fold, apply_ite kept, ite_self, kept_setBd, kept_startGo]; done))
theorem kept_lateReturn (s : State) (a1 : Nat) (a2 : Nat) (a3 : Nat) (a4 : Cur) (a5 : Flit) : kept (lateReturn s a1 a2 a3 a4 a5) = kept s := by
  unfold lateReturn; (try dsimp only); (repeat' split) <;> first | with_reducible rfl | (simp only [kept_mk, kept_fold, kept_foldl, implies_true, apply_ite kept, ite_self, kept_raiseBoard, kept_countReturn, kept_modCh]; done)
theorem kept_returnTake {a0 : Nat} {s : State} {u : State} (h : returnTake a0 s = some u) : kept u = kept s := by
  unfold returnTake at h; (try dsimp only at h); (repeat' split at h) <;> first | (simp only [reduceCtorEq] at h; done) | (simp only [Option.some.injEq] at h; subst h; (repeat' split) <;> first | with_reducible rfl | (simp only [kept_mk, kept_fold, kept_foldl, implies_true, apply_ite kept, ite_self, kept_setHed, kept_raiseBoard, kept_armNotice, kept_lateReturn, kept_modCh, kept_mismatch, kept_countReturn, kept_chosen]; done))
theorem kept_startCmd (a0 : Nat) (s : State) : kept (startCmd a0 s) = kept s := by
  unfold startCmd; simp only [kept_mk, kept_fold, apply_ite kept, ite_self, kept_startGo, kept_ignoreCmd]
theorem kept_stopBoard (s : State) (a1 : Nat) : kept (stopBoard s a1) = kept s := by
  unfold stopBoard; simp only [kept_mk, kept_fold, apply_ite kept, ite_self, kept_modBd, kept_abortNow]
theorem kept_tryAssemble (a0 : Nat) (s : State) : kept (tryAssemble a0 s) = kept s := by
  unfold tryAssemble; simp only [kept_mk, kept_fold, apply_ite kept, ite_self, kept_sendAll, kept_setBd, kept_openOut, kept_startGo]
theorem kept_entRun (a0 : Nat) (s : State) : kept (entRun a0 s) = kept s := by
  unfold entRun; simp only [kept_mk, kept_fold, apply_ite kept, ite_self, kept_setEnt, kept_entEffect, kept_signal]
theorem kept_faultReport {s : State} {u : State} (h : faultReport s = some u) : kept u = kept s := by
  unfold faultReport at h; dsimp only at h; (repeat' split at h) <;> first | (simp only [reduceCtorEq] at h; done) | (simp only [Option.some.injEq] at h; subst h; (repeat' split) <;> first | with_reducible rfl | (simp only [kept_mk, kept_fold, apply_ite kept, ite_self, kept_noteHist, kept_quarBrick, kept_quarLink, kept_boardRecord, kept_faultDrainGo, kept_sigDev, kept_devBit, kept_sigFault]; done))
theorem kept_onLoaded {a0 : Nat} {a1 : List Word} {s : State} {u : State} (h : onLoaded a0 a1 s = some u) : kept u = kept s := by
  unfold onLoaded at h; (repeat' split at h) <;> first | (simp only [reduceCtorEq] at h; done) | (simp only [Option.some.injEq] at h; subst h; (repeat' split) <;> first | with_reducible rfl | (simp only [kept_mk, kept_fold, kept_tryAssemble, kept_modBd]; done))
theorem kept_onRecord {a0 : Nat} {a1 : List Word} {s : State} {u : State} (h : onRecord a0 a1 s = some u) : kept u = kept s := by
  unfold onRecord at h; (repeat' split at h) <;> first | (simp only [reduceCtorEq] at h; done) | (simp only [Option.some.injEq] at h; subst h; (repeat' split) <;> first | with_reducible rfl | (simp only [kept_mk, kept_fold, apply_ite kept, ite_self, kept_tryAssemble, kept_modBd]; done))
theorem kept_powerStop (a0 : Nat) (s : State) : kept (powerStop a0 s) = kept s := by
  unfold powerStop; dsimp only; split
  · rfl
  · split
    · simp only [apply_ite kept, kept_recordStop, ite_self]
    · rw [kept_resumeEnd, kept_sigPower, kept_mk, kept_fold, kept_foldl _ kept_stopBoard, kept_mk, kept_fold, kept_mapMesh, kept_recordStop]
theorem kept_resetCmd (a0 : Nat) (s : State) : kept (resetCmd a0 s) = kept s := by
  unfold resetCmd; simp only [kept_mk, kept_fold, apply_ite kept, ite_self, kept_ignoreCmd, kept_doReset]
theorem kept_resetIfBoard (s : State) (a1 : Nat) : kept (resetIfBoard s a1) = kept s := by
  unfold resetIfBoard; simp only [apply_ite kept, ite_self, kept_doReset]
theorem kept_clearUnnamed (a0 : Board) (a1 : Img) (s : State) : kept (clearUnnamed a0 a1 s) = kept s := by
  unfold clearUnnamed; (try dsimp only); (repeat' split) <;> first | with_reducible rfl | (simp only [kept_mk, kept_fold, kept_foldl, implies_true, apply_ite kept, ite_self]; done)
theorem kept_loadChans (a0 : Nat) (s : State) : kept (loadChans a0 s) = kept s := by
  unfold loadChans; (try dsimp only); (repeat' split) <;> first | with_reducible rfl | (simp only [kept_mk, kept_fold, kept_foldl, implies_true, apply_ite kept, ite_self, kept_modHed]; done)
theorem kept_writeImage (a0 : Nat) (a1 : List Byte) (s : State) : kept (writeImage a0 a1 s) = kept s := by
  unfold writeImage; (try dsimp only); (repeat' split) <;> first | with_reducible rfl | (simp only [kept_mk, kept_fold, kept_foldl, implies_true, apply_ite kept, ite_self, kept_loadClasses, kept_freshLinks, kept_loadBricks, kept_clearUnnamed, kept_loadRoles, kept_loadSpan, kept_loadGram, kept_loadLex, kept_loadChans, kept_loadStesy, kept_modHed, kept_loadBarClass, kept_setBd, kept_tryAssemble, kept_sendLoaded]; done)
theorem kept_endpointReset (a0 : Nat) (s : State) : kept (endpointReset a0 s) = kept s := by
  unfold endpointReset; simp only [kept_foldl, implies_true, kept_clearFns, kept_resetIfBoard]
theorem kept_execEnt {a0 : Nat} {a1 : Nat} {s : State} {u : State} (h : execEnt a0 a1 s = some u) : kept u = kept s := by
  unfold execEnt at h; (repeat' split at h) <;> first | (simp only [reduceCtorEq] at h; done) | (simp only [Option.some.injEq] at h; subst h; (repeat' split) <;> first | with_reducible rfl | (simp only [kept_mk, kept_fold, apply_ite kept, ite_self, kept_entRun]; done))
theorem kept_flowOkLow {s : State} {u : State} (h : flowOkLow s = some u) : kept u = kept s := by
  unfold flowOkLow at h; (repeat' split at h) <;> first | (simp only [reduceCtorEq] at h; done) | (simp only [Option.some.injEq] at h; subst h; (repeat' split) <;> first | with_reducible rfl | (simp only [kept_mk, kept_fold, apply_ite kept, ite_self, kept_powerStop]; done))
theorem kept_flrVf {a0 : Nat} {a1 : Nat} {s : State} {u : State} (h : flrVf a0 a1 s = some u) : kept u = kept s := by
  unfold flrVf at h; (repeat' split at h) <;> first | (simp only [reduceCtorEq] at h; done) | (simp only [Option.some.injEq] at h; subst h; (repeat' split) <;> first | with_reducible rfl | (simp only [apply_ite kept, ite_self, kept_clearRings, kept_setFn, kept_resetIfBoard]; done))
theorem kept_railAlert {s : State} {u : State} (h : railAlert s = some u) : kept u = kept s := by
  unfold railAlert at h; (repeat' split at h) <;> first | (simp only [reduceCtorEq] at h; done) | (simp only [Option.some.injEq] at h; subst h; (repeat' split) <;> first | with_reducible rfl | (simp only [kept_mk, kept_fold, apply_ite kept, ite_self, kept_powerStop]; done))
theorem kept_thermalSample (a0 : Nat) (a1 : Int) (s : State) : kept (thermalSample a0 a1 s) = kept s := by
  unfold thermalSample; simp only [kept_mk, kept_fold, apply_ite kept, ite_self, kept_powerStop]
theorem kept_wBrdCtl {a0 : Fn} {a1 : Nat} {a2 : Word} {s : State} {u : State} (h : wBrdCtl a0 a1 a2 s = some u) : kept u = kept s := by
  unfold wBrdCtl at h; (repeat' split at h) <;> first | (simp only [reduceCtorEq] at h; done) | (simp only [Option.some.injEq] at h; subst h; (repeat' split) <;> first | with_reducible rfl | (simp only [kept_mk, kept_fold, kept_loadCmd, kept_startCmd, kept_drainCmd, kept_resetCmd, kept_unwrote]; done)) | exact kept_brdCommand h (by (repeat' split) <;> first | with_reducible rfl | (simp only [kept_mk, kept_fold, kept_loadCmd, kept_startCmd, kept_drainCmd, kept_resetCmd, kept_unwrote]; done)) | exact kept_access h (by (repeat' split) <;> first | with_reducible rfl | (simp only [kept_mk, kept_fold, kept_loadCmd, kept_startCmd, kept_drainCmd, kept_resetCmd, kept_unwrote]; done))
theorem kept_writePassEnd {a0 : Nat} {a1 : List Byte} {s : State} {u : State} (h : writePassEnd a0 a1 s = some u) : kept u = kept s := by
  unfold writePassEnd at h; (try dsimp only at h); (repeat' split at h) <;> first | (simp only [reduceCtorEq] at h; done) | (simp only [Option.some.injEq] at h; subst h; (repeat' split) <;> first | with_reducible rfl | (simp only [kept_mk, kept_fold, kept_foldl, implies_true, apply_ite kept, ite_self, kept_modBd, kept_doReset, kept_setBd, kept_sigBoard, kept_writeImage]; done))
theorem kept_flrPf {a0 : Nat} {s : State} {u : State} (h : flrPf a0 s = some u) : kept u = kept s := by
  unfold flrPf at h; (repeat' split at h) <;> first | (simp only [reduceCtorEq] at h; done) | (simp only [Option.some.injEq] at h; subst h; (repeat' split) <;> first | with_reducible rfl | (simp only [kept_mk, kept_fold, apply_ite kept, ite_self, kept_endpointReset, kept_setEnd]; done))
theorem kept_linkReset {a0 : Nat} {s : State} {u : State} (h : linkReset a0 s = some u) : kept u = kept s := by
  unfold linkReset at h; (repeat' split at h) <;> first | (simp only [reduceCtorEq] at h; done) | (simp only [Option.some.injEq] at h; subst h; (repeat' split) <;> first | with_reducible rfl | (simp only [apply_ite kept, ite_self, kept_endpointReset, kept_setEnd]; done))
theorem kept_perstAssert {a0 : Nat} {s : State} {u : State} (h : perstAssert a0 s = some u) : kept u = kept s := by
  unfold perstAssert at h; (repeat' split at h) <;> first | (simp only [reduceCtorEq] at h; done) | (simp only [Option.some.injEq] at h; subst h; (repeat' split) <;> first | with_reducible rfl | (simp only [apply_ite kept, ite_self, kept_endpointReset, kept_setEnd]; done))
theorem kept_wBrd {a0 : Fn} {a1 : Nat} {a2 : Nat} {a3 : Word} {s : State} {u : State} (h : wBrd a0 a1 a2 a3 s = some u) : kept u = kept s := by
  unfold wBrd at h; (repeat' split at h) <;> first | (simp only [reduceCtorEq] at h; done) | (simp only [Option.some.injEq] at h; subst h; (repeat' split) <;> first | with_reducible rfl | (simp only [kept_mk, kept_fold, apply_ite kept, ite_self, kept_wrote, kept_setBd, kept_unwrote, kept_barSel, kept_checkCmd]; done) | (simp only [kept_mk, kept_fold, apply_ite kept, ite_self, kept_wrote, kept_setBd, kept_unwrote, kept_barSel, kept_checkCmd]; exact kept_wBrdCtl ‹_›) | exact kept_wBrdCtl ‹_›) | exact kept_access h (by (repeat' split) <;> first | with_reducible rfl | (simp only [kept_mk, kept_fold, apply_ite kept, ite_self, kept_wrote, kept_setBd, kept_unwrote, kept_barSel, kept_checkCmd]; done) | (simp only [kept_mk, kept_fold, apply_ite kept, ite_self, kept_wrote, kept_setBd, kept_unwrote, kept_barSel, kept_checkCmd]; exact kept_wBrdCtl ‹_›) | exact kept_wBrdCtl ‹_›) | (rw [kept_wBrdCtl h]; simp only [kept_mk, kept_fold, apply_ite kept, ite_self, kept_wrote, kept_setBd, kept_unwrote, kept_barSel, kept_checkCmd]; done) | exact kept_wBrdCtl h | exact kept_brdCommand h (by (repeat' split) <;> first | with_reducible rfl | (simp only [kept_mk, kept_fold, apply_ite kept, ite_self, kept_wrote, kept_setBd, kept_unwrote, kept_barSel, kept_checkCmd]; done) | (simp only [kept_mk, kept_fold, apply_ite kept, ite_self, kept_wrote, kept_setBd, kept_unwrote, kept_barSel, kept_checkCmd]; exact kept_wBrdCtl ‹_›) | exact kept_wBrdCtl ‹_›)
theorem kept_wPf {f : Fn} {a : Nat} {v : Word} {s u : State} (h : wPf f a v s = some u) (ha : a ≠ 0x608) : kept u = kept s := by
  unfold wPf at h; dsimp only at h
  refine ite_some h (fun h => kept_wIdent h ha) (fun h => ?_)
  refine ite_some h (fun h => kept_wClk h) (fun h => ?_)
  refine ite_some h (fun h => kept_wPwr h) (fun h => ?_)
  refine ite_some h (fun h => kept_wTime h) (fun h => ?_)
  refine ite_some h (fun h => kept_wFault h) (fun h => ?_)
  refine ite_some h (fun h => kept_wBrd h) (fun h => ?_)
  refine ite_some h (fun h => kept_wRim h) (fun h => ?_)
  refine ite_some h (fun h => kept_wSlate h) (fun h => ?_)
  refine ite_some h (fun h => kept_wTile h) (fun h => ?_)
  refine ite_some h (fun h => kept_wBrick h) (fun h => ?_)
  refine ite_some h (fun h => kept_access h rfl) (fun h => ?_)
  refine ite_some h (fun h => kept_wHed h) (fun h => ?_)
  refine ite_some h (fun h => kept_wMed h) (fun h => ?_)
  refine ite_some h (fun h => kept_wMsix h) (fun h => ?_)
  exact ite_some h (fun h => kept_access h (kept_unwrote _)) (fun h => kept_access h rfl)
theorem kept_wVf {f : Fn} {h' k a : Nat} {v : Word} {s u : State} (h : wVf f h' k a v s = some u) : kept u = kept s := by
  unfold wVf at h; dsimp only at h
  refine ite_some h (fun h => kept_wBrd h) (fun h => ?_)
  refine ite_some h (fun h => kept_wWin h) (fun h => ?_)
  refine ite_some h (fun h => kept_wSched h) (fun h => ?_)
  refine ite_some h (fun h => kept_access h (kept_unwrote _)) (fun h => ?_)
  refine ite_some h (fun h => ?_) (fun h => ?_)
  · refine ite_some h (fun h => kept_wLx h) (fun h => ?_)
    refine ite_some h (fun h => kept_wGw h) (fun h => ?_)
    exact ite_some h (fun h => kept_wRing h) (fun h => kept_access h rfl)
  refine ite_some h (fun h => ?_) (fun h => ?_)
  · refine ite_some h (fun h => kept_access h (kept_txtDb _ _ _ _)) (fun h => ?_)
    exact ite_some h (fun h => kept_access h (kept_cplDb _ _ _ _)) (fun h => kept_access h rfl)
  refine ite_some h (fun h => kept_wTile h) (fun h => ?_)
  refine ite_some h (fun h => kept_wBrick h) (fun h => ?_)
  refine ite_some h (fun h => kept_wMsix h) (fun h => ?_)
  exact ite_some h (fun h => kept_access h (kept_unwrote _)) (fun h => kept_access h rfl)
theorem kept_write32 {f : Fn} {a : Nat} {v : Word} {s u : State} (h : write32 f a v s = some u) (ha : a ≠ 0x608) : kept u = kept s := by
  unfold write32 at h
  (repeat' split at h) <;> first | exact kept_wVf h | exact kept_wPf h ha | exact kept_unsupported h | exact kept_access h rfl
theorem kept_regWrite {f : Fn} {a : Nat} {wide : Bool} {v : BitVec 64} {s u : State} (h : regWrite f a wide v s = some u)
    (ha : a ≠ 0x608) (hb : ¬(a = 0x604 ∧ wide = true)) : kept u = kept s := by
  unfold regWrite at h; dsimp only at h
  split at h
  · split at h
    · simp only [Option.some.injEq] at h; subst h; exact kept_unwrote _
    · simp only [reduceCtorEq] at h
  · split at h
    · simp only [reduceCtorEq] at h
    · next s1 hs =>
      have h1 := kept_write32 hs ha
      split at h
      · simp only [Option.some.injEq] at h; subst h; exact h1
      · next hw =>
        simp only [Option.map_eq_some_iff] at h
        obtain ⟨s2, h2, rfl⟩ := h
        have := kept_write32 h2 (fun e => hb ⟨by omega, by simpa using hw⟩)
        rw [kept_resp, this, h1]
theorem kept_readW {f : Fn} {blk : Blk} {ok served : Bool} {tgt : Nat} {w : Option Word} {s u : State}
    (h : readW s f blk ok served tgt w = some u) : kept u = kept s := kept_access h (kept_resp _ _)
theorem kept_rBrick {f : Fn} {ap ofs : Nat} {s u : State} (h : rBrick f ap ofs s = some u) : kept u = kept s := by
  unfold rBrick at h; dsimp only at h
  refine ite_some h (fun h => kept_viaAp h (fun k b v h => ?_)) (fun h => ?_)
  · simp only [Option.some.injEq] at h; subst h; exact kept_pmemLoRead _ _ _
  refine ite_some h (fun h => kept_viaAp h (fun k b v h => ?_)) (fun h => ?_)
  · simp only [Option.some.injEq] at h; subst h; exact kept_pmemHiRead _ _ _
  refine ite_some h (fun h => kept_viaAp h (fun k b v h => kept_sramDataRead h)) (fun h => ?_)
  refine ite_some h (fun h => kept_viaAp h (fun k b v h => ?_)) (fun h => kept_viaAp h (fun k b v h => ?_))
  · simp only [Option.some.injEq] at h; subst h; exact kept_rptPosRead _ _ _ _
  · split at h
    · simp only [Option.some.injEq] at h; subst h; rfl
    · exact kept_access h rfl
theorem kept_rChan {f : Fn} {h' c grp ofs : Nat} {s u : State} (h : rChan f h' c grp ofs s = some u) : kept u = kept s := by
  unfold rChan at h; dsimp only at h; split at h <;> exact kept_readW h
theorem kept_rHed {f : Fn} {h' ofs : Nat} {s u : State} (h : rHed f h' ofs s = some u) : kept u = kept s := by
  unfold rHed at h; dsimp only at h
  refine ite_some h (fun h => kept_rChan h) (fun h => ?_)
  refine ite_some h (fun h => kept_readW h) (fun h => ?_)
  exact ite_some h (fun h => kept_readW h) (fun h => kept_readW h)
theorem kept_rTile {f : Fn} {ofs : Nat} {s u : State} (h : rTile f ofs s = some u) : kept u = kept s := kept_readW h
theorem kept_rPf {f : Fn} {a : Nat} {s u : State} (h : rPf f a s = some u) : kept u = kept s := by
  unfold rPf at h; dsimp only at h
  refine ite_some h (fun h => ite_some h (fun h => kept_windowRead h) (fun h => kept_readW h)) (fun h => ?_)
  refine ite_some h (fun h => kept_readW h) (fun h => ?_)
  refine ite_some h (fun h => kept_readW h) (fun h => ?_)
  refine ite_some h (fun h => kept_readW h) (fun h => ?_)
  refine ite_some h (fun h => kept_readW h) (fun h => ?_)
  refine ite_some h (fun h => kept_readW h) (fun h => ?_)
  refine ite_some h (fun h => kept_readW h) (fun h => ?_)
  refine ite_some h (fun h => kept_readW h) (fun h => ?_)
  refine ite_some h (fun h => kept_rTile h) (fun h => ?_)
  refine ite_some h (fun h => kept_rBrick h) (fun h => ?_)
  refine ite_some h (fun h => kept_readW h) (fun h => ?_)
  refine ite_some h (fun h => kept_rHed h) (fun h => ?_)
  refine ite_some h (fun h => kept_gatedAccess h (fun _ hp => kept_medRead hp)) (fun h => ?_)
  refine ite_some h (fun h => kept_readW h) (fun h => ?_)
  exact ite_some h (fun h => kept_readW h) (fun h => kept_readW h)
theorem kept_rVf {f : Fn} {h' k a : Nat} {s u : State} (h : rVf f h' k a s = some u) : kept u = kept s := by
  unfold rVf at h; dsimp only at h
  refine ite_some h (fun h => kept_readW h) (fun h => ?_)
  refine ite_some h (fun h => kept_gatedAccess h (fun _ hp => kept_winRead hp)) (fun h => ?_)
  refine ite_some h (fun h => kept_readW h) (fun h => ?_)
  refine ite_some h (fun h => kept_readW h) (fun h => ?_)
  refine ite_some h (fun h => kept_rChan h) (fun h => ?_)
  refine ite_some h (fun h => kept_readW h) (fun h => ?_)
  refine ite_some h (fun h => kept_rTile h) (fun h => ?_)
  refine ite_some h (fun h => kept_rBrick h) (fun h => ?_)
  refine ite_some h (fun h => kept_readW h) (fun h => ?_)
  exact ite_some h (fun h => kept_readW h) (fun h => kept_readW h)
theorem kept_plainRead {f : Fn} {a : Nat} {s u : State} (h : plainRead f a s = some u) : kept u = kept s := by
  unfold plainRead at h
  (repeat' split at h) <;> first | exact kept_rVf h | exact kept_rPf h | exact kept_unsupported h | exact kept_readW h
theorem kept_read32 {f : Fn} {a : Nat} {s u : State} (h : read32 f a s = some u) : kept u = kept s := by
  unfold read32 at h
  split at h
  · exact kept_ctrLo h
  · split at h
    · exact kept_ctrHi h
    · exact kept_plainRead h
theorem kept_regRead {f : Fn} {a : Nat} {wide : Bool} {s u : State} (h : regRead f a wide s = some u) : kept u = kept s := by
  unfold regRead at h
  split at h
  · split at h
    · simp only [Option.some.injEq] at h; subst h; exact kept_resp _ _
    · simp only [reduceCtorEq] at h
  · split at h
    · simp only [reduceCtorEq] at h
    · next s1 hs =>
      split at h
      · simp only [Option.some.injEq] at h; subst h; exact kept_read32 hs
      · simp only [Option.map_eq_some_iff] at h
        obtain ⟨s2, h2, rfl⟩ := h
        rw [kept_resp, kept_read32 h2, kept_read32 hs]

end Sys2Proof.Machine
end

