-- ==== Sys2Proof/Laws/Memory.lean ====
section
/-! SUPPORT. The byte memories: what each operation over data SRAM, DRAM, a HED's SRAM and the card writes, and that it keeps the
canonical form. -/
namespace Sys2Proof.Machine

/-! ### Data SRAM of a brick (R64, R650) -/

@[simp] theorem bump_sram (b : Brick) (i n : Nat) : (bump b i n).sram = b.sram := rfl
@[simp] theorem freshEcc_sram (b : Brick) (a n : Nat) : (freshEcc b a n).sram = b.sram := rfl

/-- A write either finds an uncorrectable word and changes nothing, or leaves exactly the bytes written changed. -/
theorem sramWrite_cases (b : Brick) (a : Nat) (l : List Byte) :
    (∃ w, sramWrite b a l = (b, some w)) ∨ ((sramWrite b a l).2 = none ∧ (sramWrite b a l).1.sram = writeBytes 0 b.sram a l) := by
  unfold sramWrite
  split
  · exact .inr ⟨rfl, rfl⟩
  · dsimp only
    split
    · next w _ => exact .inl ⟨w, rfl⟩
    · refine .inr ⟨rfl, ?_⟩; simp only [freshEcc_sram]; split <;> simp

/-- A byte of SRAM after a write that was made. -/
theorem sramWrite_byte {b : Brick} {a : Nat} {l : List Byte} (h : (sramWrite b a l).2 = none) (j : Nat) :
    sget 0 (sramWrite b a l).1.sram j = if a ≤ j ∧ j < a + l.length then l.getD (j - a) 0 else sget 0 b.sram j := by
  rcases sramWrite_cases b a l with ⟨w, hw⟩ | ⟨_, hs⟩
  · simp [hw] at h
  · rw [hs, sget_writeBytes]

theorem swf_sramWrite {b : Brick} (a : Nat) (l : List Byte) (h : swf 0 b.sram = true) : swf 0 (sramWrite b a l).1.sram = true := by
  rcases sramWrite_cases b a l with ⟨w, hw⟩ | ⟨_, hs⟩
  · rw [hw]; exact h
  · rw [hs]; exact swf_writeBytes a l h

/-! ### DRAM of a MED (R284, R294) -/

@[simp] theorem eccNote_dram (d : Med) (w : Nat) (u : Bool) : (eccNote d w u).dram = d.dram := rfl

theorem foldl_dram {β : Type} (f : Med → β → Med) (hf : ∀ d p, (f d p).dram = d.dram) (l : List β) (d : Med) :
    (l.foldl f d).dram = d.dram := by
  induction l generalizing d with
  | nil => rfl
  | cons p r ih => rw [List.foldl_cons, ih, hf]

/-- A read leaves DRAM as it was. -/
theorem dramRead_dram (d : Med) (pa n : Nat) : (dramRead d pa n).1.dram = d.dram := by
  have hf : ∀ (d : Med) (p : Nat × Bool), (if sget 0 d.ecc p.1 = 1 then eccNote d p.1 false else d).dram = d.dram := by
    intro d p; split <;> rfl
  unfold dramRead
  dsimp only
  split
  · exact foldl_dram _ hf _ _
  · exact foldl_dram _ hf _ _

/-- A write either finds an uncorrectable word and writes nothing, or leaves exactly the bytes written changed. -/
theorem dramWrite_cases (d : Med) (pa : Nat) (l : List Byte) :
    ((dramWrite d pa l).2 ≠ none ∧ (dramWrite d pa l).1.dram = d.dram)
      ∨ ((dramWrite d pa l).2 = none ∧ (dramWrite d pa l).1.dram = writeBytes 0 d.dram pa l) := by
  unfold dramWrite
  dsimp only
  split
  · exact .inl ⟨by simp, rfl⟩
  · refine .inr ⟨rfl, ?_⟩
    rw [foldl_dram]
    intro d p; split <;> rfl

theorem swf_dramWrite {d : Med} (pa : Nat) (l : List Byte) (h : swf 0 d.dram = true) : swf 0 (dramWrite d pa l).1.dram = true := by
  rcases dramWrite_cases d pa l with ⟨_, hs⟩ | ⟨_, hs⟩ <;> rw [hs]
  · exact h
  · exact swf_writeBytes pa l h

/-! ### SRAM of a HED -/

@[simp] theorem hedPut_sram (h : Hed) (a : Nat) (l : List Byte) : (hedPut h a l).sram = writeBytes 0 h.sram a l := rfl

theorem swf_hedPut {h : Hed} (a : Nat) (l : List Byte) (hw : swf 0 h.sram = true) : swf 0 (hedPut h a l).sram = true :=
  swf_writeBytes a l hw

/-! ### The card (R457) -/

/-- A program clears bits: a byte programmed is the AND of what was there and the byte given. -/
theorem sget_cdProgram (c : Card) (a j : Nat) (l : List Byte) :
    sget 0xFF (cdProgram c a l) j = if a ≤ j ∧ j < a + l.length then sget 0xFF c j &&& l.getD (j - a) 0xFF else sget 0xFF c j := by
  induction l generalizing c a with
  | nil => rw [if_neg (by simp only [List.length_nil]; omega)]; rfl
  | cons b r ih =>
    simp only [cdProgram, ih, sget_sset, List.length_cons]
    by_cases h1 : j = a
    · subst h1; rw [if_neg (by omega), if_pos rfl, if_pos (by omega)]; simp
    · by_cases h2 : a ≤ j ∧ j < a + (r.length + 1)
      · rw [if_pos (by omega), if_pos h2, if_neg h1]
        obtain ⟨n, hn⟩ : ∃ n, j - a = n + 1 := ⟨j - a - 1, by omega⟩
        have : j - (a + 1) = n := by omega
        simp [hn, this]
      · rw [if_neg (by omega), if_neg h2, if_neg h1]

theorem swf_cdProgram {c : Card} (a : Nat) (l : List Byte) (h : swf 0xFF c = true) : swf 0xFF (cdProgram c a l) = true := by
  induction l generalizing c a with
  | nil => exact h
  | cons b r ih => exact ih _ (swf_sset a _ h)

/-- An erase leaves its range 0xFF and every other byte as it was. -/
theorem sget_cdErase (c : Card) (a n j : Nat) : sget 0xFF (cdErase c a n) j = if a ≤ j ∧ j < a + n then 0xFF else sget 0xFF c j := by
  unfold cdErase sget
  induction c with
  | nil => simp [sfind]
  | cons p r ih =>
    obtain ⟨i, v⟩ := p
    simp only [List.filter_cons]
    by_cases hi : i < a ∨ a + n ≤ i
    · rw [if_pos (by simpa using hi)]
      simp only [sfind]
      by_cases hj : i = j
      · subst hj; rw [if_pos rfl, if_neg (by omega), if_pos rfl]
      · rw [if_neg hj, if_neg hj, ih]
    · rw [if_neg (by simpa using hi), ih]
      simp only [sfind]
      by_cases hj : i = j
      · subst hj; rw [if_pos (by omega), if_pos (by omega)]
      · rw [if_neg hj]

theorem srising_filter {α : Type} {m : SMap α} {l : Option Nat} (q : Nat × α → Bool) (h : srising l m = true) :
    srising l (m.filter q) = true := by
  induction m generalizing l with
  | nil => simpa using h
  | cons p r ih =>
    obtain ⟨i, v⟩ := p
    have hr : srising (some i) r = true := by cases l <;> simp_all [srising]
    simp only [List.filter_cons]
    split
    · cases l <;> simp_all [srising]
    · cases l with
      | none => exact srising_none (ih hr)
      | some a =>
        simp only [srising, Bool.and_eq_true, decide_eq_true_eq] at h
        exact srising_mono (ih hr) (by omega)

theorem swf_cdErase {c : Card} (a n : Nat) (h : swf 0xFF c = true) : swf 0xFF (cdErase c a n) = true := by
  simp only [swf, Bool.and_eq_true] at *
  refine ⟨srising_filter _ h.1, ?_⟩
  rw [List.all_eq_true] at *
  intro p hp
  exact h.2 p (List.mem_filter.mp hp).1

/-- Bytes put one by one, each at its own place, keep the canonical form (a card inserted, an image's words). -/
theorem swf_foldl_sset {α β : Type} [DecidableEq α] (d : α) (k : β → Nat) (v : β → α) (l : List β) {m : SMap α} (h : swf d m = true) :
    swf d (l.foldl (fun c p => sset d c (k p) (v p)) m) = true := by
  induction l generalizing m with
  | nil => exact h
  | cons p r ih => exact ih (swf_sset _ _ h)

theorem swf_nil {α : Type} [DecidableEq α] (d : α) : swf d ([] : SMap α) = true := rfl

/-! ### The whole state -/

/-- After reset no memory lists a byte. -/
theorem memories_reset (k : Nat) : (getB State.reset k).sram = [] ∧ (getB State.reset k).pmem = [] ∧ (getHed State.reset k).sram = []
    ∧ (getMed State.reset k).dram = [] ∧ State.reset.slate.card = [] := ⟨rfl, rfl, rfl, rfl, rfl⟩

/-- A brick written keeps the canonical form where its own memories have it. -/
theorem memoriesWf_setB {s : State} (h : MemoriesWf s) (k : Nat) {b : Brick} (hs : swf 0 b.sram = true) (hp : swf 0 b.pmem = true) :
    MemoriesWf (setB s k b) := by
  refine ⟨fun j => ?_, h.2⟩
  rw [getB_setB]; split
  · exact ⟨hs, hp⟩
  · exact h.1 j

theorem memoriesWf_setMed {s : State} (h : MemoriesWf s) (m : Nat) {d : Med} (hd : swf 0 d.dram = true) : MemoriesWf (setMed s m d) := by
  refine ⟨h.1, h.2.1, fun j => ?_, h.2.2.2⟩
  rw [getMed_setMed]; split
  · exact hd
  · exact h.2.2.1 j

theorem memoriesWf_setHed {s : State} (h : MemoriesWf s) (n : Nat) {e : Hed} (he : swf 0 e.sram = true) : MemoriesWf (setHed s n e) := by
  refine ⟨h.1, fun j => ?_, h.2.2.1, h.2.2.2⟩
  rw [getHed_setHed]; split
  · exact he
  · exact h.2.1 j

end Sys2Proof.Machine
end

