-- ==== Sys2Proof/Laws/Mortar.lean ====
section
/-! SUPPORT. The words of a tie and of an edge bridge: what reading one gives back, and what a bridge's judgement can be. -/
namespace Sys2Proof.Machine

/-- Two beats hold their word. -/
@[simp] theorem ofBeats_beatsOf (w : BitVec 50) : ofBeats (beatsOf w) = w := by
  apply BitVec.eq_of_getLsbD_eq
  intro i hi
  simp only [ofBeats, beatsOf, BitVec.getLsbD_append, BitVec.getLsbD_extractLsb']
  split
  · simp [*]
  · next h => simp [show i - 25 < 25 by omega, show 25 + (i - 25) = i by omega]

/-- The CRC stands below the bits it covers. -/
theorem xferWord_low (a : Xfer) : (xferWord a).extractLsb' 0 6 = crc6 (xferBits a) := by
  apply BitVec.eq_of_getLsbD_eq
  intro i hi
  rw [BitVec.getLsbD_extractLsb', xferWord, BitVec.getLsbD_append]
  simp [hi]

theorem xferWord_high (a : Xfer) : (xferWord a).extractLsb' 6 44 = xferBits a := by
  apply BitVec.eq_of_getLsbD_eq
  intro i hi
  rw [BitVec.getLsbD_extractLsb', xferWord, BitVec.getLsbD_append]
  simp [hi]

/-- What a judgement can be, and when (R198, R200). -/
theorem judge_cases (n : Nat) (k : Bool) (f : Nat) (w e : BitVec 50) :
    (judge n k f w e = .lands (xferOf (w ^^^ e)) ∧ xferOk (w ^^^ e) = true ∧ (xferOf (w ^^^ e)).seq = n)
    ∨ ((xferOk (w ^^^ e) = false ∨ (xferOf (w ^^^ e)).seq ≠ n)
      ∧ ((judge n k f w e = .discarded ∧ k = true ∧ (xferOf w).seq ≠ n)
        ∨ ((k = false ∨ (xferOf w).seq = n)
          ∧ ((judge n k f w e = .dies ∧ 7 ≤ f) ∨ (judge n k f w e = .asked ∧ f < 7))))) := by
  unfold judge
  dsimp only
  by_cases h1 : xferOk (w ^^^ e) = true ∧ (xferOf (w ^^^ e)).seq = n
  · exact .inl ⟨by simp [h1], h1⟩
  · have g1 : xferOk (w ^^^ e) = false ∨ (xferOf (w ^^^ e)).seq ≠ n := by
      cases h : xferOk (w ^^^ e)
      · exact .inl rfl
      · exact .inr (fun he => h1 ⟨h, he⟩)
    have n1 : (xferOk (w ^^^ e) && (xferOf (w ^^^ e)).seq == n) = false := by rcases g1 with h | h <;> simp [h]
    refine .inr ⟨g1, ?_⟩
    by_cases h2 : k = true ∧ (xferOf w).seq ≠ n
    · exact .inl ⟨by simp [n1, h2], h2⟩
    · have g2 : k = false ∨ (xferOf w).seq = n := by
        cases k
        · exact .inl rfl
        · exact .inr (Decidable.byContradiction fun he => h2 ⟨rfl, he⟩)
      have n2 : (k && (xferOf w).seq != n) = false := by rcases g2 with h | h <;> simp [h]
      refine .inr ⟨g2, ?_⟩
      by_cases h3 : 7 ≤ f
      · exact .inl ⟨by simp [n1, n2, show 8 ≤ f + 1 by omega], h3⟩
      · exact .inr ⟨by simp [n1, n2, show ¬ 8 ≤ f + 1 by omega], by omega⟩

/-- A return word with fields of their widths says what it was made of (R196). -/
theorem retOf_retBits (r : RetWord) (hc : ∀ c, r.credit = some c → c < 32)
    (ha : ∀ n, r.ak = .ack n ∨ r.ak = .nak n → n < 32) : retOf (retBits r) = r := by
  obtain ⟨c, a⟩ := r
  have key : ∀ (v : Bool) (x y : Fin 32) (k : Fin 3),
      let w : BitVec 13 := BitVec.ofBool v ++ BitVec.ofNat 5 x ++ BitVec.ofNat 2 k ++ BitVec.ofNat 5 y
      w.getLsbD 12 = v ∧ (w.extractLsb' 7 5).toNat = x ∧ (w.extractLsb' 5 2).toNat = k ∧ (w.extractLsb' 0 5).toNat = y := by
    decide
  cases c with
  | none =>
    cases a with
    | none => rfl
    | ack n => have := key false 0 ⟨n, ha n (.inl rfl)⟩ 1; simp [retOf, retBits] at this ⊢; simp [this]
    | nak n => have := key false 0 ⟨n, ha n (.inr rfl)⟩ 2; simp [retOf, retBits] at this ⊢; simp [this]
  | some c =>
    have hlt := hc c rfl
    cases a with
    | none => have := key true ⟨c, hlt⟩ 0 0; simp [retOf, retBits] at this ⊢; simp [this]
    | ack n => have := key true ⟨c, hlt⟩ ⟨n, ha n (.inl rfl)⟩ 1; simp [retOf, retBits] at this ⊢; simp [this]
    | nak n => have := key true ⟨c, hlt⟩ ⟨n, ha n (.inr rfl)⟩ 2; simp [retOf, retBits] at this ⊢; simp [this]

end Sys2Proof.Machine
end

