-- ==== Sys2Proof/WellFormed.lean ====
section
/-! DEFINITION. Which commands are well formed: the operands that come from outside have the sizes the spec gives them. -/
namespace Sys2Proof

/-- Keys of a list of pairs rise strictly. -/
def keysRise {α : Type} : List (Nat × α) → Bool
  | (a, _) :: (b, v) :: r => decide (a < b) && keysRise ((b, v) :: r)
  | _ => true

/-- The operands are within what the spec says arrives: a register address within a 256 MiB BAR (R559), a Slate window offset
(R482), 1 to 16 beats of records (R268, R290), a DRAM word of 32 GiB (R258), an aligned burst within 1 KiB (R290), 16-byte ring
entries (R566), 32-byte units (R578), one value for each field (R538, R550), bricks of the grid (R33), a card of 512 MiB (R456). -/
def wellFormed : Instr → Bool
  | .registerWrite _ addr wide _ _ => decide (addr + (if wide then 8 else 4) ≤ 0x10000000)
  | .counterLoRead _ addr wide => decide (addr + (if wide then 8 else 4) ≤ 0x10000000)
  | .slateWindowRead _ ofs => decide (ofs + 4 ≤ 0x80000) && ofs % 4 == 0
  | .waferWindowWrite _ _ _ recs => decide (1 ≤ recs.length ∧ recs.length ≤ 128)
  | .dramWindowAccess _ _ ofs wr len =>
    decide (1 ≤ len ∧ len ≤ 1024 ∧ ofs + len ≤ 0x800000000) && wr.all (fun l => l.length == len)
  | .scrub _ word => decide (word < 0x100000000)
  | .rimBurst _ _ _ ofs beats _ _ _ _ => decide (1 ≤ beats ∧ beats ≤ 16 ∧ ofs % 1024 + 64 * (beats - 1) < 1024)
  | .ringEntryFetched _ _ entry data => entry.length == 16 && decide (data.length ≤ 65535)
  | .slateProgram _ _ data => data.all (fun l => decide (l.length ≤ 0x0F000000))
  | .governorLoop _ pf => pf.length == 84
  | .energyPublish meas _ => meas.length == 84
  | .calibration cur => cur.length == 84
  | .helloReceive _ _ u _ _ => u.length == 32
  | .dataUnitReceive _ _ u _ _ => u.length == 32
  | .linkUnitReceive _ _ u _ _ => u.length == 32
  | .sidebandPoll _ silent => silent.all (fun p => decide (p.1 < 1104 ∧ p.2 < 560))
  | .cardInsertion card _ => keysRise card && card.all (fun p => decide (p.1 < 0x20000000) && p.2 != 0xFF#8)
  | _ => true

end Sys2Proof
end

