-- ==== Sys2Proof/Tests/Slice0.lean ====
section
/-! SUPPORT. Small tests: witnesses that the hypotheses of the statements can be met, clause by clause, and values taken from the spec's
tables and worked cases. -/
namespace Sys2Proof.Tests
open Sys2Proof Sys2Proof.Machine

set_option Elab.async false

/-! ### Helpers -/

/-- An instruction word of R104's layout with a true predicate: class, OP, D, A, B, MOD, IMM. -/
def tw (c o d a b m i : Nat) : DWord :=
  BitVec.ofNat 64 (c * 2 ^ 60 + o * 2 ^ 52 + d * 2 ^ 42 + a * 2 ^ 36 + b * 2 ^ 30 + m * 2 ^ 16 + i)

/-- The same with PN = 1, a false predicate. -/
def twF (w : DWord) : DWord := w ||| 0x0008000000000000

/-- A queue entry ready to issue. -/
def tq (w : DWord) : QEntry := ⟨0, 0, w, 0, 0, 0⟩

/-- A running brick in its tcyc 9 with one instruction at the head of each queue it belongs to, credits to send with, castled buffer 0
declared with DONE set, and an entry in ports 0 and 7. -/
def tb (w : DWord) : Brick :=
  queSet { st := .running, useT := 9, sndCred := [(0, 2), (31, 2)], cfg := [(0x620, 0x80000000)], cb := [(0, { done := true })], seqNext := 1
           ports := [(0, [⟨7, false, true, 0⟩]), (7, [⟨9, true, false, 0⟩])] } (queOf w) [tq w]

/-- A state whose maps are made, with every field locked that a test names and one brick. -/
def ts (b : Brick) : State := { mapsReady := true, fields := [(0, { mesh := .locked })], bricks := [(0, b)] }

/-- The hypotheses of a statement of issue, for the brick at the origin. -/
@[reducible] def CanIssueHere (op : BOp) (w : DWord) : Prop := CanIssue op (ts (tb w)) 0 0 9 0 (tb w) (tq w) []

/-- The same brick with g1 = 0xBFE0, or with an uncorrectable word at address 0. -/
def tbG (w : DWord) : Brick := { tb w with g := [(1, 0xBFE0)] }
def tbE (w : DWord) : Brick := { tb w with sramEcc := [(0, 2)] }

/-- A device after boot with every link up and its VFs enabled, the PF of HED 0 a bus master; board 0 is `bd`; the brick at the origin is `b`. -/
def td (bd : Board) (b : Brick) : State :=
  let e : EndSt := { perst := false, up := true, gen := 4, vfEnable := true }
  { ts b with
    boot := { done := true }, clk := { en := [(0, 0xFFFFFFFF), (1, 0xFFFFFFFF), (2, 0xFFFFFFFF), (3, 0xFFFFFFFF)] }
    ends := [(0, e), (1, e), (2, e), (3, e)], fns := [(0, { bme := true })], boards := [(0, bd)] }

theorem test_reset_idles : step State.reset = .next State.reset := rfl

/-! ### Issue -/

theorem wit_scalar : ∀ p ∈ [(BOp.mov, 0x00), (.add, 0x01), (.sub, 0x02), (.mul, 0x03), (.mulh, 0x04), (.mulhu, 0x05), (.and, 0x08),
    (.or, 0x09), (.xor, 0x0A), (.andn, 0x0B), (.shl, 0x10), (.shr, 0x11), (.sra, 0x12), (.rotl, 0x13), (.min, 0x18), (.max, 0x19),
    (.minu, 0x1A), (.maxu, 0x1B), (.clz, 0x20), (.popc, 0x21), (.bfx, 0x22), (.bfi, 0x23), (.sel, 0x30)],
    CanIssueHere p.1 (tw 1 p.2 31 32 0 0 0) := by decide +kernel

theorem wit_predicate : (∀ p ∈ [(BOp.cmpeq, 0x00), (.cmpne, 1), (.cmplt, 2), (.cmple, 3), (.cmpltu, 4), (.cmpleu, 5), (.tstnz, 6),
      (.pand, 0x10), (.por, 0x11), (.pxor, 0x12), (.pnull, 0x18)],
      CanIssueHere p.1 (tw 2 p.2 0 0 0 0x3800 0) ∧ CanIssueHere p.1 (tw 2 p.2 0 0 0 0 0))
    ∧ CanIssueHere .pget (tw 2 0x20 31 0 0 0 0) ∧ CanIssueHere .pput (tw 2 0x21 0 39 0 0 0) := by decide +kernel

theorem wit_control : ∀ p ∈ [(BOp.nop, tw 3 0 0 0 0 0 0), (.mark, tw 3 0x20 0 0 0 0 0xFFFF), (.mark, twF (tw 3 0x20 0 0 0 0 1)), (.halt, tw 3 0x3F 0 0 0 0 0),
    (.arrive, tw 5 0x10 0 0 0 0 63), (.waitb, tw 5 0x11 0 0 0 0 63), (.castle, tw 5 0x20 0 0 0 0 0), (.castle, twF (tw 5 0x20 0 0 0 0 0))],
    CanIssueHere p.1 p.2 := by decide +kernel

theorem wit_castle : cbDecl (tb (tw 5 0x20 0 0 0 0 0)) 0 = true := by decide +kernel

/-- A load and a store of the last word and of the last 32 bytes, and one with a false predicate. -/
theorem wit_memory : ∀ p ∈ [(BOp.ldw, tw 4 0 0 1 0 0 0x1C, 4, 0xBFFC), (.vld, tw 9 0 15 1 0 0 0, 32, 0xBFE0),
      (.stw, tw 4 1 0 1 0 0 0x1C, 4, 0xBFFC), (.vst, tw 9 1 0 1 0 0 0, 32, 0xBFE0)],
    CanIssue p.1 (ts (tbG p.2.1)) 0 0 9 0 (tbG p.2.1) (tq p.2.1) [] ∧ predOf (tbG p.2.1) p.2.1 = true
      ∧ memAddr (tbG p.2.1) (opCtx (ts (tbG p.2.1)) 0 0 (tbG p.2.1) (tq p.2.1)) p.1 (tq p.2.1) = p.2.2.2
      ∧ p.2.2.2 + p.2.2.1 = 0xC000 ∧ (sramHealth (tbG p.2.1) p.2.2.2 p.2.2.1).2 = none
      ∧ CanIssueHere p.1 (twF p.2.1) := by decide +kernel

/-- An address of 0xC000, one that is not a multiple of the size, a word that is uncorrectable. -/
theorem wit_memory_fault : ∀ p ∈ [(BOp.ldw, tw 4 0 0 1 0 0 0x20, 0xC000), (.stw, tw 4 1 0 1 0 0 0x1E, 0xBFFE),
      (.vld, tw 9 0 0 1 0 0 0x20, 0xC000), (.vst, tw 9 1 0 1 0 0 4, 0xBFE4), (.tmv, tw 10 0 0 0 1 0 1, 0xC000), (.tldx, tw 10 8 0 0 1 0 1, 0xC000),
      (.tscl, tw 10 9 0 0 1 0 1, 0xC000)],
    CanIssue p.1 (ts (tbG p.2.1)) 0 0 9 0 (tbG p.2.1) (tq p.2.1) [] ∧ predOf (tbG p.2.1) p.2.1 = true ∧ memOf p.1 p.2.1 ≠ none
      ∧ memAddr (tbG p.2.1) (opCtx (ts (tbG p.2.1)) 0 0 (tbG p.2.1) (tq p.2.1)) p.1 (tq p.2.1) = p.2.2 := by decide +kernel

theorem wit_memory_ded : ∀ p ∈ [(BOp.ldw, tw 4 0 0 0 0 0 0, 4), (.stw, tw 4 1 0 0 0 0 0, 4), (.vld, tw 9 0 0 0 0 0 0, 32), (.tmv, tw 10 0 0 0 0 0 0, 32),
      (.tldx, tw 10 8 0 0 0 0 0, 32), (.tscl, tw 10 9 0 0 0 0 0, 32)],
    CanIssue p.1 (ts (tbE p.2.1)) 0 0 9 0 (tbE p.2.1) (tq p.2.1) [] ∧ predOf (tbE p.2.1) p.2.1 = true ∧ memOf p.1 p.2.1 ≠ none
      ∧ memAddr (tbE p.2.1) (opCtx (ts (tbE p.2.1)) 0 0 (tbE p.2.1) (tq p.2.1)) p.1 (tq p.2.1) = 0
      ∧ (sramHealth (tbE p.2.1) 0 p.2.2).2 = some 0 := by decide +kernel

theorem wit_send : ∀ p ∈ [(BOp.send, tw 5 1 0 32 0 0x2000 0x801F), (.sendp, tw 5 2 0 32 39 0x2000 0), (.vsend, tw 9 9 0 0 0 0 0x3F), (.vsend, tw 9 9 0 0 0 0 0)],
    CanIssueHere p.1 p.2 ∧ CanIssueHere p.1 (twF p.2) := by decide +kernel

theorem wit_vector_float : ∀ f ∈ [(Fmt.bf16, 3), (.fp16, 4), (.fp32, 5)], ∀ p ∈ [(BOp.vfadd, 0), (.vfsub, 1), (.vfmul, 2), (.vfma, 3), (.vfmin, 4), (.vfmax, 5),
      (.vfabs, 8), (.vfneg, 9), (.vfcmpeq, 0x10), (.vfcmplt, 0x11), (.vfcmple, 0x12)],
    CanIssueHere p.1 (tw 6 p.2 15 32 39 (f.2 * 2 ^ 10) 0) ∧ iFMT (tw 6 p.2 15 32 39 (f.2 * 2 ^ 10) 0) = some f.1 := by decide +kernel

theorem wit_vector_trans : ∀ p ∈ [(BOp.vexp2, 0x20), (.vlog2, 0x21), (.vrcp, 0x22), (.vrsqrt, 0x23)],
    CanIssueHere p.1 (tw 6 p.2 0 15 0 0x1400 0) ∧ iFMT (tw 6 p.2 0 15 0 0x1400 0) = some .fp32 := by decide +kernel

theorem wit_vector_int : ∀ m ∈ [0x1C00, 0x2000, 0x2300], ∀ p ∈ [(BOp.vadd, 1), (.vsub, 2), (.vmul, 3), (.vshl, 0x10), (.vshr, 0x11), (.vsra, 0x12), (.vmin, 0x18),
      (.vmax, 0x19), (.vcmpeq, 0x20), (.vcmplt, 0x21)],
    CanIssueHere p.1 (tw 7 p.2 15 0 15 m 0) ∧ (p.2 ≤ 3 ∨ m ≠ 0x2300 → wordOk (tw 7 p.2 15 0 15 m 0) = true) := by decide +kernel

theorem wit_vector_bits : ∀ p ∈ [(BOp.vmov, 0), (.vand, 8), (.vor, 9), (.vxor, 0xA), (.vandn, 0xB), (.vsel, 0x30)],
    CanIssueHere p.1 (tw 7 p.2 15 0 (if p.1 = .vmov then 0 else 15) (0x2000 + if p.1 = .vsel then 15 else 0) 0) := by decide +kernel

/-- VCVT of FP4 to FP32 and of FP32 to INT8, the last groups of each. -/
theorem wit_vcvt : ∀ p ∈ [(tw 8 0 15 15 0 (5 * 2 ^ 10) (7 + 2 ^ 8), Fmt.fp32, Fmt.fp4), (tw 8 0 15 15 0 (7 * 2 ^ 10 + 5 * 2 ^ 6) (3 * 2 ^ 3), .int8, .fp32)],
    CanIssueHere .vcvt p.1 ∧ wordOk p.1 = true ∧ fmtOf (fld p.1 26 4) = some p.2.1 ∧ fmtOf (fld p.1 22 4) = some p.2.2 := by decide +kernel

theorem wit_vec_moves : ∀ p ∈ [(BOp.vcvt4, tw 8 1 15 12 0 0 (2 ^ 12 + 0xC0 + 1)), (.vperm, tw 8 0x10 15 0 31 0 0), (.vext, tw 8 0x11 31 15 0 0 7),
      (.vlane, tw 8 0x12 15 0 39 0 7), (.vtest, tw 8 0x18 0 0 15 7 0), (.vtest, tw 8 0x18 0 0 15 0 0)], CanIssueHere p.1 p.2 := by decide +kernel

theorem wit_vred : ∀ r ∈ [0, 1, 2], ∀ f ∈ [3, 4, 5, 7, 8], CanIssueHere .vred (tw 8 8 31 15 0 (f * 2 ^ 10 + r * 2 ^ 8) 0) := by decide +kernel

/-- VINS of one entry into lane 7, and of four, with the entries there. -/
theorem wit_vins : (let w := tw 9 8 15 32 0 0 (7 * 4); CanIssueHere .vins w ∧ wordOk w = true)
    ∧ (let w := tw 9 8 15 32 0 0 (4 * 4 + 2)
       let b := { tb w with ports := [(0, [⟨1, false, false, 0⟩, ⟨2, false, false, 0⟩, ⟨3, true, false, 0⟩, ⟨4, false, true, 0⟩])] }
       CanIssue .vins (ts b) 0 0 9 0 b (tq w) [] ∧ wordOk w = true) := by decide +kernel

theorem wit_tensor : ∀ p ∈ [(BOp.tmv, tw 10 0 3 0 31 0 0x7FF), (.tmma, tw 10 1 3 12 12 0x1400 0), (.tldx, tw 10 8 0 15 0 0x2000 0), (.tscl, tw 10 9 0 15 0 0x2100 0),
      (.tdrv, tw 11 0 15 3 0 0x2038 0), (.tdrv, tw 11 0 15 3 0 0x1C00 0), (.tzero, tw 11 1 3 0 0 0 0), (.tsetr, tw 11 2 3 15 0 0x38 0)],
    CanIssueHere p.1 p.2 ∧ CanIssueHere p.1 (twF p.2) := by decide +kernel

theorem wit_tensor_mem : ∀ p ∈ [(BOp.tmv, tw 10 0 0 0 1 0 0), (.tldx, tw 10 8 0 0 1 0 0), (.tscl, tw 10 9 0 0 1 0 0)],
    CanIssue p.1 (ts (tbG p.2)) 0 0 9 0 (tbG p.2) (tq p.2) []
      ∧ memAddr (tbG p.2) (opCtx (ts (tbG p.2)) 0 0 (tbG p.2) (tq p.2)) p.1 (tq p.2) = 0xBFE0 ∧ (sramHealth (tbG p.2) 0xBFE0 32).2 = none := by decide +kernel

/-- A flight due just now behind one that is not, of each kind. -/
theorem wit_release : ∀ ws ∈ [[], [RW.g 31 1], [.v 15 1], [.p 0 true], [.p 7 true], [.xl 1 2]],
    let b : Brick := { st := .running, useT := 9, flights := [⟨10, [], []⟩, ⟨9, [], ws⟩] }
    CanAct (ts b) 0 0 9 0 b ∧ b.flights = [⟨10, [], []⟩] ++ ⟨9, [], ws⟩ :: [] := by decide +kernel

theorem wit_update : ∀ op ∈ [UpdOp.zero, .setr 7 1, .tmv 0 0 62 1 1 1 1 1, .tmma 0 0 1 1 []],
    let b : Brick := { st := .running, useT := 9, updates := [⟨9, 3, op⟩] }
    CanAct (ts b) 0 0 9 0 b ∧ (match op with | .tmv _ _ e _ _ _ _ _ => e < 63 | .setr r _ => r < 8 | _ => True) := by
  intro op h; simp only [List.mem_cons, List.not_mem_nil, or_false] at h
  rcases h with rfl | rfl | rfl | rfl <;> decide +kernel

/-- The fetch unit before a word at the top of program memory, with a REPEAT whose last word it is. -/
def tf (w : DWord) (rpt : List RptLevel) : Brick := { st := .running, useT := 9, pc := 2047, pmem := [(2047, w)], rpt := rpt }

theorem wit_dispatch : ∀ p ∈ [(BOp.mov, tw 1 0 31 48 0 0 0), (.halt, tw 3 0x3F 0 0 0 0 0), (.tzero, tw 11 1 0 0 0 0 0)],
    ∀ r ∈ [[], [⟨0, 2047, 2, 0⟩], [⟨0, 3, 2, 0⟩]],
    CanAct (ts (tf p.2 r)) 0 0 9 0 (tf p.2 r) ∧ wordOk p.2 = true ∧ iBOp p.2 = some p.1 ∧ sget 0 (tf p.2 r).pmem 2047 = p.2 := by decide +kernel

theorem wit_repeat : ∀ p ∈ [(BOp.repi, tw 3 0x10 0 0 0 0x7FF 0xFFFF), (.repi, tw 3 0x10 0 0 0 1 0), (.repg, tw 3 0x11 0 31 0 1 0)],
    CanAct (ts (tf p.2 [])) 0 0 9 0 (tf p.2 []) ∧ wordOk p.2 = true ∧ iBOp p.2 = some p.1 ∧ writePending (tf p.2 []) (rG 31) = false
      ∧ writePending { tf p.2 [] with flights := [⟨20, [rG 31], []⟩] } (rG 31) = true := by decide +kernel

/-! ### Streams -/

/-- A brick whose stream context j is at word 31, which is w; ports and credits as tb has them. -/
def tsb (j : Nat) (w : Word) (c : Ctx) : Brick :=
  { tb 0 with qS := [], qV := [], qT := [], cfg := [(0x620, 0x80000000), (0x624, 0xBFF00010), (0x6FC, w)], cb := [(0, { rd := 1 })]
              ctx := [(j, { c with phase := .active, pc := 31 })], stPtr := j }

theorem wit_stream_control : ∀ p ∈ [(SOp.sbase, 0x1000FFFF), (.sstride, 0x3C00FFFF), (.sbank, 0x4F000003), (.sloop, 0x2FFFFFFF), (.sstop, 0xF0000000),
      (.sgate, 0x8E000000)], ∀ j ∈ [0, 3],
    StreamTurn p.1 (ts (tsb j (BitVec.ofNat 32 p.2) {})) 0 0 9 0 (tsb j (BitVec.ofNat 32 p.2) {}) j := by decide +kernel

/-- The three ways a loop end goes: a body that does not end, DONE set before a FILL action, a step and a close. -/
theorem wit_loop_end : (let l : SLoop := ⟨0, 31, 2, 1, true, 0⟩
    l.last = 31 ∧ cbDoneAt { tb 0 with cb := [(0, { done := true, chg := 9 })] } l.cb 9 = true
      ∧ cbDoneAt { tb 0 with cb := [(0, { done := true, chg := 10 })] } l.cb 9 = false ∧ l.n ≤ l.idx + 1)
    ∧ (let l : SLoop := ⟨0, 31, 0, 65535, false, 0⟩; l.n = 0 ∧ l.last ≠ 30) := by decide +kernel

/-- EMIT of the last 16 bytes, LAND of one entry at the end of a castled buffer's A half, SGATHER by the entry in port 0 and by the null one in
port 7, SFAR of the last record. -/
theorem wit_stream_moves : ∀ p ∈ [(SOp.emit, 0x52000000, 0xBFF8, SAddr.at_ 0xBFF8), (.land, 0x59000000, 12, .at_ 12), (.sgather, 0x600000FF, 0x100, .at_ 0x11C),
      (.sgather, 0x6E0000FF, 0x100, .none), (.sfar, 0x70000000, 0xBFE0, .at_ 0xBFE0)],
    let w := BitVec.ofNat 32 p.2.1
    let b := { tsb 0 w { addr := p.2.2.1 } with sndCred := [(0, 4)] }
    StreamTurn p.1 (ts b) 0 0 9 0 b 0 ∧ sAddr b (getCtx b 0) p.1 w = p.2.2.2 ∧ (sramHealth b p.2.2.1 32).2 = none := by decide +kernel

theorem wit_stream_faults : ∀ p ∈ [(SOp.emit, 0x52000000, 0xBFFC, 1), (.land, 0x58000000, 2, 2), (.land, 0x59000000, 16, 3), (.sgather, 0x60000007, 0, 4),
      (.sfar, 0x70000000, 0xBFE8, 1)],
    let w := BitVec.ofNat 32 p.2.1
    let b := { tsb 3 w { addr := p.2.2.1 } with sndCred := [(0, 4)] }
    StreamTurn p.1 (ts b) 0 0 9 0 b 3 ∧ ∃ v ∈ [7, p.2.2.1], sAddr b (getCtx b 3) p.1 w = .breach p.2.2.2 v := by decide +kernel

theorem wit_stream_ded : ∀ p ∈ [(SOp.emit, 0x52000000), (.sgather, 0x600000FF), (.sfar, 0x70000000)],
    let w := BitVec.ofNat 32 p.2
    let b := { tsb 0 w {} with sndCred := [(0, 4)], sramEcc := [(0, 2), (3, 2)] }
    StreamTurn p.1 (ts b) 0 0 9 0 b 0 ∧ ∃ ea ∈ [0, 28], sAddr b (getCtx b 0) p.1 w = .at_ ea ∧ (sramHealth b ea (4 * sWords p.1 w)).2 = some (ea / 8 * 8) := by
  decide +kernel

theorem wit_stream_waits : (let b := { tsb 3 0 { farLeft := [5], farSlot := 31 } with st := .faulted }
      CanAct (ts b) 0 0 9 0 b ∧ marked b 73 = false ∧ sget 0 b.sndCred 31 ≠ 0)
    ∧ (let b := tsb 3 0 { loops := [⟨0, 31, 1, 0, true, 7⟩], ending := true }
      CanAct (ts b) 0 0 9 0 b ∧ streamRuns b = true ∧ cbDoneAt b 7 9 = false ∧ (getCtx b 3).ending = true ∧ (getCtx b 3).phase = .active) := by decide +kernel

/-! ### Mortar and ties -/

/-- The state of `ts` with the brick in a RUNNING board of columns 0 and 1, so that its router serves. -/
def tsr (b : Brick) : State := { ts b with boards := [(0, { st := .running, x1 := 1 })] }

/-- A brick with a flit in slot ix and a routing entry for it. -/
def trb (ix : Nat) (e : Word) : Brick :=
  { tb 0 with qS := [], cfg := [(0x21C, 0x80000000), (0x300 + 4 * ix, e)], fifos := [(ix, [⟨5, false, true, 9⟩])], cred := [(2 * ix, 1), (2 * ix + 1, 1)], ports := [] }

theorem wit_forward : ∀ p ∈ [(128, 0xA1C00000), (159, 0x88000000), (0, 0x90000000 + 31 * 2 ^ 22), (128, 0xA8000000)], let b := trb p.1 (BitVec.ofNat 32 p.2)
    CanAct (tsr b) 0 0 9 0 b ∧ disabledSlot (tsr b) 0 0 b 9 = none ∧ (nextGrant (tsr b) 0 0 b 9).map (·.2) = some p.1 ∧ headAt b p.1 9 = some ⟨5, false, true, 9⟩ := by
  decide +kernel

/-- A local flit for the neighbour to the east, both bricks in field 0 and the neighbour in state LOADED. -/
theorem wit_link_fault : let b := trb 128 0x88000000
    let s := { tsr b with bricks := [(0, b), (1, { st := .loaded })] }
    CanAct s 0 0 9 0 b ∧ disabledSlot s 0 0 b 9 = none ∧ (nextGrant s 0 0 b 9).map (·.2) = some 128
      ∧ ((branches (rtEntry b 4 0) 0).map (·.dir)) = [1] ∧ neighbour 0 0 1 = some (1, 0) ∧ fieldOf 0 0 = fieldOf 1 0 ∧ keyOf s 1 0 = some 1 := by decide +kernel

theorem wit_disabled : ∀ ix ∈ [0, 159], let b := { trb ix 0 with cfg := [] }
    CanAct (ts b) 0 0 9 0 b ∧ disabledSlot (ts b) 0 0 b 9 = some ix := by decide +kernel

/-- A credit of each kind of buffer at the ends of its range, due just now, behind one that is not. -/
theorem wit_credit : ∀ l ∈ [0, 127, 128, 159, 160, 167, 300, 363, 400, 431, 463], let b := { tb 0 with qS := [], credFly := [⟨10, 0⟩, ⟨9, l⟩] }
    CanAct (ts b) 0 0 9 0 b := by decide +kernel

/-- The tie into (92, 0) from the west: its sender is (91, 0). -/
def tt (v : Tie) : State := { ts {} with fields := [(0, { mesh := .locked }), (1, { mesh := .locked })], ties := [(tieKey 92 0 3, v)] }

theorem wit_tie : tieSender 92 0 3 = some (91, 0) ∧ fieldOf 91 0 = 0 ∧ fieldOf 92 0 = 1 ∧ facing 3 = 1
    ∧ clkRuns (tt {}) (fieldOf 91 0) = true ∧ clkRuns (tt {}) (fieldOf 92 0) = true ∧ keyOf (tt {}) 91 0 = some 91 ∧ keyOf (tt {}) 92 0 = some 96
    ∧ getTie (tt { nextSeq := 31, fails := 7 }) (tieKey 92 0 3) = { nextSeq := 31, fails := 7 } := by decide +kernel

theorem wit_tie_slots : sget 0 ({} : Tie).spent 31 < slotCap 31 ∧ sget 0 ({} : Tie).spent 0 < slotCap 0 := by decide +kernel

theorem test_tie_sends : (match step { tt { out := [⟨0, 31, ⟨5, false, true, 0⟩⟩], nextSeq := 31 } with pending := [.tieTransferSend 92 0 3 4] } with
    | .next u => decide ((getTie u (tieKey 92 0 3)).nextSeq = 0 ∧ (getTie u (tieKey 92 0 3)).wire.length = 1 ∧ u.pending = [] ∧ u.resp = .done)
    | _ => false) = true := by decide +kernel

/-- A flit at a disabled entry in a brick that is STOPPED or QUARANTINED, of a board and of none. -/
theorem wit_disabled_stopped : ∀ st ∈ [BState.stopped, .loaded, .quarantined], let b := { trb 159 0 with cfg := [], st := st }
    brickAt (getB (ts b) 0) 9 = some b ∧ keyOf (ts b) 0 0 = some 0 ∧ clkRuns (ts b) 0 = true ∧ disabledSlot (ts b) 0 0 b 9 = some 159 := by decide +kernel

/-- A transfer on the wires of a tie: as sent, with one bit damaged, and one that a NAK is out for. -/
theorem wit_tie_words : ∀ p ∈ [(⟨31, 31, ⟨0xFFFFFFFF, true, true, 0⟩⟩ : Xfer), ⟨0, 0, {}⟩], let w := beatsOf (xferWord p)
    let v : Tie := { wire := [w], expect := p.seq }
    ofBeats w = xferWord p ∧ xferOk (ofBeats w) = true ∧ (xferOf (ofBeats w)).seq = v.expect ∧ xferOk (ofBeats w ^^^ 1) = false
      ∧ v.nakOut = false ∧ v.fails < 7 ∧ ({ v with nakOut := true, expect := (p.seq + 1) % 32 } : Tie).expect ≠ (xferOf (ofBeats w)).seq := by decide +kernel

/-- Return words: a credit and an ACK together, a NAK alone, in a tcyc that has had none and in one that has. -/
theorem wit_tie_return : ∀ p ∈ [(({ retCred := [31], retAck := [.ack 31] } : Tie), true), ({ retAck := [.nak 0] }, true), ({ retCred := [0], retT := 10 }, false)],
    decide (p.1.retT ≠ 9 + 1) = p.2 ∧ (p.1.retCred ≠ [] ∨ p.1.retAck ≠ []) ∧ (∀ sl, p.1.retCred.head? = some sl → sl < 32) := by decide +kernel

/-- Eight failures of a transfer, and a damaged return word. -/
theorem wit_tie_dies : let w := beatsOf (xferWord ⟨3, 0, {}⟩)
    let v : Tie := { wire := [w], expect := 3, nakOut := true, fails := 7, retAck := [.nak 3] }
    xferOk (ofBeats w ^^^ 1) = false ∧ (xferOf (ofBeats w)).seq = v.expect ∧ 7 ≤ v.fails ∧ v.retT ≠ 5 + 1 ∧ getTie (tt v) (tieKey 92 0 3) = v
      ∧ v.dead = false ∧ (getTie (tt { v with dead := true }) (tieKey 92 0 3)).dead = true := by decide +kernel

theorem test_tie_returns : (match step { tt { retCred := [31], retAck := [.ack 31], replay := [⟨31, 0, {}⟩] } with pending := [.tieReturnWord 92 0 3 false 9 0] } with
    | .next u => decide ((getTie u (tieKey 92 0 3)).replay = [] ∧ (getTie u (tieKey 92 0 3)).retT = 10 ∧ u.resp = .done) | _ => false) = true := by decide +kernel

/-- R195: the word of a transfer is one the CRC accepts and gives the transfer back; with one bit damaged, the first, one of the CRC's, the last, it is refused. -/
theorem test_crc : let a : Xfer := ⟨21, 10, ⟨0x12345678, false, true, 0⟩⟩
    xferOf (xferWord a) = a ∧ xferOk (xferWord a) = true ∧
      ([1, 0x20, 0x40, 0x2000000000000].all (fun e => !xferOk (xferWord a ^^^ BitVec.ofNat 50 e))) = true := by decide +kernel

/-- R373: a word of board 5's tables that is uncorrectable in the cache ends the read; the next word, another board's, and the same word
once the board is loaded again are read. -/
theorem test_cache_bad : let e : Hed := { cacheEcc := [(cacheKey 5 0x1FF, 2)] }
    let s : State := { heds := [(1, e)] }
    (tabRead s (.med 0 5 0xFF0) {} 8 4).1.ded = true ∧ cacheBad s 5 0x1000 8 = false ∧ cacheBad s 4 0xFF8 8 = false
      ∧ dropCache 5 e = {} ∧ dropCache 4 e = e := by decide +kernel

/-! ### Memory edge dies -/

/-- MED 0 with a page table that maps VA 0 to frame 1, writable, for board 0, which contains column 0; the edge bridge of column 0. -/
def tm (d : Med) (e : EdgeBr) : State :=
  { ts { st := .running } with
    boot := { done := true }, clk := { en := [(0, 0x1000)] }, meds := [(0, { d with dram := [(0, 1), (7, 0x80), (4096, 2), (4103, 0x80), (8192, 1), (8199, 0xE0)] })]
    edges := [(0, e)], boards := [(0, { st := .running, x1 := 1, quota := [(0, 0x10000)] })] }

theorem wit_edge_accept : ∀ d ∈ [({ role := [(31, 3)] } : Med), { role := [(31, 1)] }, { role := [(31, 1)], asm := [(31, List.replicate 7 {})] },
      { discard := [31] }, { discardN := [(31, 1)] }],
    let s := tm d { out := { wire := [(0, xferWord ⟨0, 31, { eom := true }⟩)] } }
    edgeKey 0 false = 0 ∧ medOf 0 false = 0 ∧ slotKey (colOf 0) 0 31 = 31 ∧ edgeRuns s = true ∧ (portBoard s 0 0).isSome = true
      ∧ (getEdge s 0).dead = false ∧ recordBad (getMed s 0) 0 0 (List.replicate 7 0 ++ [0]) false = true := by decide +kernel

/-- A record that is not malformed: a READ of one word to injection slot 0, which is RETURN; one of KIND 6 is malformed. -/
theorem wit_record : let d := getMed (tm { injRole := [(0, 1)] } {}) 0
    recordBad d 0 0 [0x10000000, 0, 0, 0, 0, 0, 0, 0] false = false ∧ recordBad d 0 0 [0x60000000, 0, 0, 0, 0, 0, 0, 0] false = true := by decide +kernel

theorem wit_inject : let s := tm { inj := [(31, [{ flit := {}, tag := some (0, true) }])] } {}
    (slotTurn (sget 31 (getEdge s 0).lastSlot 0)).find? (fun q =>
      !(sget [] (getMed s 0).inj (slotKey 0 0 q)).isEmpty && decide (sget 0 (getEdge s 0).medSpent q < edgeCap q)) = some 31
      ∧ sget 0 (getEdge s 0).relT 0 ≠ 1 := by decide +kernel

theorem wit_landing : let s := tm {} { landing := [(31, [{}])], moveT := 5, moved := [0] }
    keyOf s 0 0 = some 0 ∧ sget 0 (getEdge s 0).spent 31 < slotCap 31 ∧ (31 : Nat) ∉ (getEdge s 0).moved ∧ (getEdge s 0).moved.length < 2
      ∧ clkRuns s (fieldOf 0 0) = true ∧ (getB s 0).st ≠ .quarantined := by decide +kernel

theorem wit_record_accept : let r : Rec := ⟨0, 0, List.replicate 8 0⟩
    let s := tm { recs := [r] } {}
    edgeRuns s = true ∧ medOn s 0 = true ∧ portBoard s 0 0 = some 0 ∧ freeDesc (getMed s 0) (colEngine 0) 0 = some 0
      ∧ (getMed s 0).recs.find? (fun q => match portBoard s 0 (q.key / 64) with
        | some b => (getBd s b).st != .resetting && (freeDesc (getMed s 0) (colEngine (q.key / 64)) b).isSome
        | none => false) = some r := by decide +kernel

theorem wit_completion : ∀ c ∈ [({ phase := .closing, ack := true } : Desc), { phase := .closing, host := true }, { phase := .closing, host := true, irq := true }],
    sfind (getMed (tm { desc := [(descKey 3 15 15, c)] } {}) 0).desc (descKey 3 15 15) = some c := by decide +kernel

theorem wit_quiescent : (sget 0 (getMed (tm { busy := [(3, 0x8000)] } {}) 0).busy 3).testBit 15 = true := by decide +kernel

/-- A descriptor of each kind that the engine grants and whose element translates and is readable. -/
theorem wit_engine : ∀ c ∈ [({ kind := 1 } : Desc), { kind := 2 }, { kind := 3 }, { kind := 4 }, { kind := 5 }],
    let s := tm { desc := [(0, c)], rx := [(0, [{}])] } {}
    let d := getMed s 0
    engineTurn s d 0 = some (0, 0) ∧ sfind d.desc (descKey 0 0 0) = some c ∧ elemVa c 0 = 0
      ∧ (match transSpan d (quotaW s 0 0) 0 4 (if c.kind = 1 ∨ c.kind = 2 then some (colClass 0 0) else none) (c.kind = 2 ∨ c.kind = 4) with
        | .ok ps => decide ((readSpan d ps).2.2 = none ∧ (writeSpan d ps [0, 0, 0, 0]).2 = none)
        | .error _ => false) = true := by decide +kernel

/-- The causes of R272 in turn: an address at and beyond 2^48, a page not mapped, a frame outside the quota, one of another class, a page read only, an
uncorrectable table word. -/
theorem wit_translate : let d := getMed (tm {} {}) 0
    (let c : Desc := { va := 2 ^ 48 - 2 }; (2 ^ 48 : Int) < elemVa c 0 + c.esz)
    ∧ (match transSpan d 0x10000 0x200000 4 none false with | .error .notMapped => true | _ => false) = true
    ∧ (match transSpan d 0x4000 0 4 none false with | .error .outOfQuota => true | _ => false) = true
    ∧ (match transSpan d 0x10000 0 4 (some 3) false with | .error .unreachable => true | _ => false) = true
    ∧ (match transSpan { d with dram := sset 0 d.dram 8199 0xC0 } 0x10000 0 4 none true with | .error .readOnly => true | _ => false) = true
    ∧ (match transSpan { d with dram := sset 0 d.dram 8199 0x80 } 0x10000 0 4 none true with | .error .format => true | _ => false) = true
    ∧ (match transSpan { d with ecc := [(1024, 2)] } 0x10000 0 4 none true with | .error (.ded 0) => true | _ => false) = true := by decide +kernel

/-- A piece of 12 bytes that covers a word whole and another in part. -/
theorem wit_dram_words : (4, true) ∈ wordsTouched 32 12 ∧ (5, false) ∈ wordsTouched 32 12 ∧ wordsTouched 32 12 ≠ [] := by decide +kernel

/-- The last outward and inward transfer of an edge bridge: good, damaged, of another number under a NAK; the eighth failure; a return word. -/
theorem wit_edge_words : let x : Xfer := ⟨31, 31, { eom := true }⟩
    let c : Crossing := { wire := [(1, xferWord x)], expect := 31, fails := 7, ret := [.ack 30] }
    let s := tm {} { out := c, inn := c }
    (getEdge s 0).out.wire = (1, xferWord x) :: [] ∧ (getEdge s 0).inn = c ∧ xferOk (xferWord x) = true ∧ xferOk (xferWord x ^^^ 1#50) = false
      ∧ (xferOf (xferWord x)).seq = c.expect ∧ 7 ≤ c.fails ∧ c.ret ≠ [] ∧ edgeRuns s = true ∧ (portBoard s 0 0).isSome = true ∧ keyOf s 0 0 = some 0 ∧ (getB s 0).st ≠ .quarantined := by decide +kernel

theorem test_edge_death : (match exec (.edgeFlitAccept 0 false 0 1 0) (tm {} { out := { wire := [(0, xferWord {seq := 0, slot := 0, flit := {}})], fails := 7 } }) with
    | .next u => (getEdge u 0).dead && (getB u 0).st == .faulted && u.raised.map (·.code) == [0x14] | _ => false) = true := by decide +kernel

/-- A replay store one short of its 16 takes one more. -/
theorem wit_inject_room : (List.replicate 15 (0, ({seq := 0, slot := 0, flit := {}} : Xfer))).length < 16 := by decide +kernel

/-- A board whose drain is past its inputs, with a descriptor that stops: one with an ACK to send, one without. -/
theorem wit_engine_past : ∀ p ∈ [(({ kind := 1, va := 2 ^ 48 - 2, ack := true } : Desc), true), ({ kind := 3, va := 2 ^ 48 - 2, host := true }, false)],
    let s := { tm { desc := [(0, p.1)] } {} with boards := [(0, { st := .draining, x1 := 1, drain := some ⟨false, false, 2⟩, quota := [(0, 0x10000)] })] }
    engineTurn s (getMed s 0) 0 = some (0, 0) ∧ pastInputs s 0 = true ∧ (2 ^ 48 : Int) < elemVa p.1 0 + p.1.esz ∧ decide (p.1.ack = true ∧ p.1.host = false) = p.2
      ∧ pastInputs (tm {} {}) 0 = false := by decide +kernel

/-- A completion that is an ACK flit, with room for it in its RETURN slot, and the store full. -/
theorem wit_completion_room : let s := tm { desc := [(0, { phase := .closing, ack := true })], inj := [(0, List.replicate 15 { flit := {} })] } {}
    (sget [] (getMed s 0).inj (slotKey 0 0 0)).length < 16 ∧ edgeRuns s = true := by decide +kernel

/-! ### Expert queues, barriers, stalls -/

/-- A brick whose expert queue 0 has kind KIND, LEN 2, two slots, base 0, COUNT 1, fed by port 7 and delivering to port 0. -/
def te (kind : Nat) (f : Flit) (e : EqState) : Brick :=
  { tb 0 with qS := [], cfg := [(0x240, 0x80000000 ||| (BitVec.ofNat 32 kind <<< 29) ||| 0x00200000), (0x244, 0x80000002), (0x248, 1), (0x21C, 0x80000000), (0x200, 0x80000000)],
              ports := [(7, [f])], eq := [(0, e)] }

theorem wit_eq_fields : ∀ k ∈ [0, 1, 2, 3], let b := te k {} {}
    eqKind b 0 = k ∧ eqLen b 0 = 2 ∧ eqOfPort b 7 = some 0 := by decide +kernel

theorem wit_eq_take : ∀ p ∈ [(0, false, ({ free := [1] } : EqState)), (3, false, { free := [0] }), (0, true, { opens := [(7, { slot := 1, taken := 1 })] }),
      (1, false, {}), (2, false, {}), (1, true, { opens := [(7, { tag := 4095, taken := 1 })] }), (2, true, { opens := [(7, { taken := 1, nullPkt := true })] })],
    let b := te p.1 { eom := p.2.1 } p.2.2
    CanAct (ts b) 0 0 9 0 b ∧ takePort b 9 = some 7 ∧ (getEq b 0) = p.2.2 := by decide +kernel

theorem wit_eq_room : ∀ a ∈ [0, 0xBFFC], let b := te 0 {} {}
    portRoom b (eqDport b 0) 9 = true ∧ bankBusy (ts b) 0 0 b (bankOf a) 9 = false ∧ (sramHealth b a 4).2 = none ∧ expertRuns b = true := by decide +kernel

theorem wit_ring_replay : let b := { te 0 {} { order := [⟨1, true, [(false, false), (true, true)]⟩], replayed := 1, waiting := [1] } with ports := [] }
    CanAct (ts b) 0 0 9 0 b ∧ eqKind b 0 = 0 ∧ eqWantsBank b 9 ≠ some (bankOf (slotAddr b 0 1 1)) ∧ portRoom b (eqDport b 0) 9 = true
      ∧ bankBusy (ts b) 0 0 b (bankOf (slotAddr b 0 1 1)) 9 = false := by decide +kernel

/-- A FORWARD queue with a whole slot and the engine idle: a null packet, a valid table entry, a DEST at TSIZE. -/
def tsc (null : Bool) : Brick :=
  { te 3 {} { order := [⟨0, true, [(null, false), (false, true)]⟩] } with
    ports := [], cfg := (te 3 {} {}).cfg ++ [(0x280, 0x80010100), (0x500, 0x80001800)], sram := [(259, 0x80)], sndCred := [(0, 1)] }

theorem wit_scatter : ∀ n ∈ [(true, 0), (false, 0)], let b := tsc n.1
    CanAct (ts b) 0 0 9 0 b ∧ scEn b = true ∧ scPick b = some 0 ∧ scTbase b = 0x100 ∧ scTsize b = 1 ∧ scBusy (ts b) 0 0 b (bankOf 0) 9 = false
      ∧ bitAt (sramWord b 0x100) 31 = true ∧ bitAt (rtEntry b 4 0) 31 = true ∧ entrySrc (rtEntry b 4 0) = 3 ∧ fld (sramWord b 0) 20 12 = 0 := by decide +kernel

theorem wit_scatter_dest : let b := { tsc false with sram := [(2, 0x10)] }
    scTsize b ≤ fld (sramWord b (slotAddr b 0 0 0)) 20 12 ∧ scPick b = some 0 := by decide +kernel

theorem wit_framing : let b := te 0 { eom := true } { free := [0] }
    takePort b 9 = some 7 ∧ true ≠ decide (0 + 1 = eqLen b 0) := by decide +kernel

/-- A barrier of one participant, untimed and timed, in a board of one brick. -/
def tbar (decl : Word) (gate : Nat) : State :=
  let bd : Board := { st := .running, x1 := 1, barDecl := [(63, decl)], barGate := [(63, gate)], arrivals := [⟨63, 0, 0, 0⟩] }
  { ts { st := .running, barOut := [(63, 1)], cfg := [(0x704, 0x80000000)] } with boards := [(0, { bd with releases := [⟨63, 0, 0, some 9⟩] })] }

theorem wit_barrier : rootField (tbar 0x80000001 0) 0 63 = 0 ∧ clkRuns (tbar 0x80000001 0) 0 = true
    ∧ barOn (getBd (tbar 0x80000001 0) 0) 63 = true ∧ barOn (getBd (tbar 1 0) 0) 63 = false ∧ barTimed (getBd (tbar 0xC0000001 0) 0) 63 = true
    ∧ boardAt (tbar 0x80000001 0) 0 0 = some 0 := by decide +kernel

/-- A head that waits for a credit, for a port, for a barrier. -/
theorem wit_stall : ∀ p ∈ [(2, tw 5 1 0 32 0 0 5), (1, tw 1 0 0 33 0 0 0), (4, tw 5 0x11 0 0 0 0 63)],
    let b := { tb p.2 with barOut := [(63, 1)] }
    CanAct (ts b) 0 0 9 0 b ∧ headCause (ts b) 0 0 b .s (tq p.2) 9 = p.1 ∧ marked b 60 = false ∧ marked b 0 = false := by decide +kernel

/-- A packet whose table entry lies in the bank of its header, and one in another; a packet whose table read is still to come. -/
theorem wit_scatter_look : (bankOf (0x100 + 0) = bankOf 0 ∧ bankOf (0x3000 + 4 * 0) ≠ bankOf 0)
    ∧ (let b := { tsc false with sc := some { q := 0, slot := 0, look := some 0 } }
      CanAct (ts b) 0 0 9 0 b ∧ expertRuns b = true ∧ b.scStop = false ∧ marked b 10 = false ∧ scEn b = true ∧ 0 < scTsize b
        ∧ scBusy (ts b) 0 0 b (bankOf 0x100) 9 = false ∧ (sramHealth b 0x100 4).2 = none)
    ∧ (let b := { tsc false with sc := some { q := 0, slot := 0, sent := 1 } }
      b.sc.map (·.look) = some none ∧ sget 0 b.sndCred 0 ≠ 0 ∧ scBusy (ts b) 0 0 b (bankOf 4) 9 = false ∧ (getEq b 0).order = [⟨0, true, [(false, false), (false, true)]⟩]) := by
  decide +kernel

/-- The last arrival of a barrier from its root's own field, 13 tcyc after its ARRIVE, and a release that is due. -/
theorem wit_barrier_times : let s := tbar 0x80000001 1
    rootField s 0 63 = 0 ∧ (getBd s 0).arrivals[0]? = some ⟨63, 0, 0, 0⟩ ∧ (13 : Nat) = 0 + 13 ∧ s.clk.waiting = false ∧ barP (getBd s 0) 63 = 1
      ∧ (getBd s 0).releases = [⟨63, 0, 0, some 9⟩] ∧ marked { st := .running } 60 = false := by decide +kernel

theorem test_barrier_release : (match exec (.arrivalCounted 0 0 13) (tbar 0x80000001 0) with
    | .next u => (getBd u 0).releases.map (·.due) == [some 9, some 27] && sget 0 (getBd u 0).barGen 63 == 1 | _ => false) = true := by decide +kernel

/-! ### Boards -/

/-- A LOADED brick with a context of START 0 and one of START 1. -/
def bl : Brick := { st := .loaded, cfg := [(0x600, 0x80000000), (0x604, 0xA0000000)] }

theorem wit_access : ∀ f ∈ [Fn.pf 3, .vf 0 0, .steward], ∀ blk ∈ [Blk.other, .time, .slate, .ident, .clk], ∀ rd ∈ [true, false],
    CanAccess (td {} {}) f blk rd ∧ CanCommand (td {} {}) f 0 := by decide +kernel

/-- A VF does not command another board; a function whose link is down waits. -/
theorem test_reaches : reaches (.vf 0 0) 1 = false ∧ reaches (.vf 3 3) 15 = true ∧ linkOk State.reset (.pf 0) = false
    ∧ blkServed State.reset (.pf 0) .slate true = true ∧ blkServed State.reset (.pf 0) .other true = false := by decide +kernel

/-- The states and sides of each clause of BoardCommands. -/
theorem wit_commands : ∀ p ∈ [(({ st := .undefined } : Board), 0), ({ st := .empty }, 1), ({ st := .resetting }, 2),
      ({ st := .loaded, assembled := true, home := true, pieces := 1 }, 3), ({ st := .running, home := true, pieces := 1 }, 4),
      ({ st := .running, home := true, drain := some ⟨false, false, 1⟩ }, 5), ({ st := .draining, home := true, drain := some ⟨false, false, 2⟩ }, 5)],
    let bd := getBd (td p.1 {}) 0
    CanCommand (td p.1 {}) (.vf 0 0) 0 ∧ bd = p.1 ∧ bd.pieces ≤ 1 ∧ (p.2 = 3 ↔ bd.st = .loaded) ∧ (p.2 = 5 ↔ bd.drain ≠ none) := by decide +kernel

theorem wit_field_start : ∀ p ∈ [0, 5], let bd : Board := { startPending := true, startTs := p, x1 := 0, st := .loaded, streamsToo := p = 5 }
    let s := { td bd bl with now := 5 }
    (0 : Nat) ∈ boardFields (getBd s 0) ∧ clkRuns s 0 = true ∧ (getBd s 0).startTs ≤ s.now ∧ (0, 0, 0) ∈ boardBricks s 0 ∧ fieldOf 0 0 = 0
      ∧ bitAt (cfgW bl 0x604) 31 = true ∧ fld (cfgW bl 0x604) 29 2 = 1 ∧ fld (cfgW bl 0x600) 29 2 = 0 := by decide +kernel

/-- The last field of the wafer, f = 83, belongs to a board at the far corner. -/
theorem wit_field_last : (83 : Nat) ∈ boardFields { st := .loaded, x0 := 1103, x1 := 1103, y0 := 559, y1 := 559 } := by decide +kernel

theorem wit_drain : let s := td { st := .draining, still := 256, drain := some ⟨false, false, 2⟩ } { st := .draining }
    quiescent s 0 = true ∧ (getBd s 0).pieces ≤ 1 ∧ curChans (td { st := .running, drain := some ⟨true, false, 1⟩ } bl) 0 = [] := by decide +kernel

/-- A RUNNING board with a brick that a missing barrier release blocks. -/
theorem wit_stalemate : let s := td { st := .running, still := 4096 } { (tb (tw 5 0x11 0 0 0 0 63)) with barOut := [(63, 1)], causeS := 4 }
    (bricksInOrder s 0).filter (fun q => brickBlocked s 0 q.1 q.2.1 q.2.2) = [(0, 0, 0)] ∧ (getBd s 0).smDeclared = false
      ∧ stillHolds (td { st := .draining } {}) 0 = (false, false, false, false) := by decide +kernel

theorem wit_reset : let s := td { st := .resetting } bl
    (∀ m < 8, ∀ e < 4, (sget 0 (getMed s m).busy e).testBit 0 = false) ∧ (getBd s 0).resetLate = false := by decide +kernel

/-- The last field of a start with a drain held, and one that is not the last. -/
theorem wit_held_drain : ∀ p ∈ [(0, false), (1103, true)], let s := { td { startPending := true, x1 := p.1, st := .loaded, heldDrain := some (true, false) } bl with now := 5 }
    let bd := getBd s 0
    bd.heldDrain = some (true, false) ∧ bd.drain = none ∧ (0 : Nat) ∈ boardFields bd ∧ clkRuns s 0 = true
      ∧ ((boardFields bd).any fun g => !(0 :: bd.fields).contains g) = p.2 := by decide +kernel

/-- A draining board that is not quiescent: its STILL has not reached 256; and one of a stalemate to declare: nothing holds it, STILL at 4,096. -/
theorem wit_limits : (let s := td { st := .draining, still := 255, drain := some ⟨false, false, 2⟩ } { st := .draining }
      (getBd s 0).st = .draining ∧ quiescent s 0 = false ∧ s.clk.waiting = false)
    ∧ (let s := td { st := .running, still := 4096 } { (tb (tw 5 0x11 0 0 0 0 63)) with barOut := [(63, 1)], causeS := 4 }
      (∃ q ∈ boardBricks s 0, brickWaits (getB s q.2.2) = true) ∧ 4096 ≤ (getBd s 0).still) := by decide +kernel

/-! ### Text -/

/-- A HED whose Lexicon runs and whose channel 0 is `ch`, for the RUNNING board 0 with `k` masks begun. -/
def tx (ch : Chan) (k : List MaskRun) : State :=
  { td { st := .running, maskOn := true, maskW := 2, maskQ := k } {} with fns := [(1, { bme := true })], heds := [(0, { chans := [(0, { ch with en := true, bound := true }), (1, { en := true, bound := true, board := 1 })] })] }

/-- A ring that is on, of 2^LOG2 entries in both directions. -/
def rg (log2 : Nat) : SMap Word := [(0, 0x80000000), (12, BitVec.ofNat 32 log2), (24, BitVec.ofNat 32 log2)]

/-- A doorbell at the ring's size is taken and one beyond it is not; the indices wrap at 2^16. -/
theorem wit_doorbell : ∀ p ∈ [((0 : Nat), 4, true), (0, 5, false), (65534, 2, true), (65534, 3, false)],
    let s := tx { ring := rg 2, txtHead := p.1, cplTail := p.2.1, cplCons := p.1 } []
    let ch := getCh s 0 0
    CanAccess s (.vf 0 0) .other false ∧ chanOk s (.vf 0 0) 0 0 = true ∧ chanOk s (.pf 0) 0 0 = true ∧ chanOk s (.vf 0 0) 0 1 = false
      ∧ isPf (.vf 0 0) = false ∧ ringEn ch = true
      ∧ decide ((p.2.1 + 65536 - ch.txtHead) % 65536 ≤ 2 ^ fld (sget 0 ch.ring 0x0C) 0 4) = p.2.2
      ∧ decide ((ch.cplTail + 65536 - p.1) % 65536 ≤ 2 ^ fld (sget 0 ch.ring 0x18) 0 4) = p.2.2 := by decide +kernel

theorem wit_ring_disable : ∀ p ∈ [((none : Option Cur), 0), (some {}, 1), (some { promptDone := true }, 2), (some { cause := 1 }, 3)],
    let s := tx { ring := rg 2, cur := p.1, gStack := [5] } []
    chanState (getCh s 0 0) = p.2 ∧ lexOn s 0 = true ∧ (getCh s 0 0).gStack.reverse[0]? = some 5 := by decide +kernel

/-- A TOKENS entry of one token, 3 of 4, with EOP and tag 7. -/
theorem wit_fetch : let s := tx { ring := rg 2, txtProd := 1, vsize := 4 } []
    let entry : List Byte := [0, 0, 0, 0, 0, 0, 0, 0, 4, 0, 0, 0, 3, 0, 7, 0]
    let data : List Byte := [3, 0, 0, 0]
    let flags := ofBytesLE ((entry.drop 12).take 4)
    fetching s 0 0 = true ∧ entry.length = 16 ∧ data.length = ofBytesLE ((entry.drop 8).take 4) % 65536 ∧ flags / 4 % 2 ^ 14 = 0
      ∧ flags.testBit 1 = true ∧ ∀ p ∈ (wordsLE data).map (fun n => (n, ())), p.1 < (getCh s 0 0).vsize ∧ p.1 < 2 ^ 22 := by decide +kernel

/-- A closed pre-token that is a token, and one that is the empty text. -/
theorem wit_encode : ∀ p ∈ [PreTok.tok 3, .text []], let s := tx { reqs := [{ closed := [p] }] } []
    lexOn s 0 = true ∧ edgeRuns s = true ∧ returnWaits s 0 = false ∧ encNext s 0 = some 0 ∧ encReq (getCh s 0 0) = some 0
      ∧ (encodeText s (vocab 0 (getCh s 0 0)) 1 []).1.ded = false := by decide +kernel

theorem wit_admission : let s := tx { reqs := [{ order := 1 }] } []
    (waitingReq (getCh s 0 0)).isSome = true ∧ (∀ k < 8, k ≠ 0 → (getCh s 0 k).en = false ∨ (getCh s 0 k).board ≠ (getCh s 0 0).board)
      ∧ emptyReq { order := 1 } = false ∧ bitAt (getCh s 0 0).cfg 29 = false ∧ (getBd s 0).drainPending = false := by decide +kernel

/-- A word of the prompt, its last, and one that is fed back. -/
theorem wit_word : ∀ p ∈ [(({} : Cur), [4, 5], some (4, false, false)), ({}, [5], some (5, true, false)), ({ feedback := some 9, promptDone := true }, [], some (9, true, true))],
    let s := tx { cur := some p.1, reqs := [{ toks := p.2.1, eop := true }] } []
    nextWord (getCh s 0 0) = p.2.2 ∧ p.1.fly.length < 128 ∧ (sget [] (getMed s 0).inj 0).length < 16 := by decide +kernel

/-- A return in the egress queue of board 0: the record at index 0, PROD 1, CONS 0. -/
def txr (u : Cur) (rec : SMap Byte) : State :=
  let s := tx { cur := some u, vsize := 4, stops := [2] } []
  setHed s 0 { getHed s 0 with sram := rec ++ [(0x3C800, 1)] }

/-- Null and chosen, for a word without SAMPLE and with it, the right SEQ and token and a wrong one, nothing in flight, an ended request. -/
theorem wit_return : ∀ p ∈ [((0 : Nat), ([] : List (Nat × Bool)), false, 0), (0, [(1, false)], true, 0), (0, [(1, true)], true, 0), (0, [(1, true)], false, 3), (0, [(1, true)], false, 4), (4, [], false, 0)],
    let s := txr { cause := p.1, fly := p.2.1 } ((if p.2.2.2 = 0 then [] else [(0x3C000, BitVec.ofNat 8 p.2.2.2)]) ++ [(0x3C003, 1)] ++ if p.2.2.1 then [(0x3C004, 1)] else [])
    let e := getHed s 0
    let f := recFlit (readLE e.sram (egrBase 0) 8)
    lexOn s 0 = true ∧ edgeRuns s = true ∧ egrCount e 0 = 1 ∧ egrCons e 0 = 0 ∧ curChans s 0 = [0] ∧ f.null = p.2.2.1 ∧ fld f.data 0 22 = p.2.2.2 ∧ fld f.data 24 8 = 1 := by
  decide +kernel

theorem wit_return_token : let s := txr { fly := [(1, true)] } [(0x3C003, 1)]
    let s1 := setHed s 0 (hedPut (getHed s 0) (egrBase 0 + 0x840) (bytesLE 4 1))
    (tokString s1 (vocab 0 (getCh s 0 0)) (trStart s1 (vocab 0 (getCh s 0 0))) 0).1.ded = false := by decide +kernel

/-- The request's end with the ring on and off; the slot before the ring's last, and its last. -/
theorem wit_final : ∀ p ∈ [(true, 2), (true, 3), (false, 0)], let s := tx { cur := some { cause := 1 }, ring := if p.1 then rg 2 else [], cplTail := p.2, cplCons := p.2 } []
    ringEn (getCh s 0 0) = p.1 ∧ (sget {} s.ends 0).up = true ∧ cplFree (getCh s 0 0) = true ∧ vfMaster s 0 = true ∧ lexOn s 0 = true ∧ edgeRuns s = true := by decide +kernel

theorem wit_mask : ∀ p ∈ [((some 7 : Option Nat), 0), (none, 3)], let s := tx { cur := some { issued := 1 }, reqs := [{ toks := [1, 2], eop := true }] } [⟨0, p.1, [5, 6], 3, p.2⟩]
    (p.1 = some 7 ∨ firstSeq (getCh s 0 0) = some 2) ∧ (getBd s 0).maskQ ≠ [] ∧ min 8 (min (16 - (sget [] (getMed s 0).inj 0).length) (2 + 2 - p.2)) ≠ 0 := by decide +kernel

/-- An EOP entry without text that leaves the admitted request whole and empty, and one that brings a token. -/
theorem wit_empty_prompt : ∀ p ∈ [(([] : List PreTok), true), ([.tok 3], false)],
    let s := tx { ring := rg 2, txtProd := 1, vsize := 4, cur := some {}, reqs := [{}] } []
    fetching s 0 0 = true ∧ openReq (getCh s 0 0) = some {} ∧ emptyReq { eop := true, closed := p.1 } = p.2 := by decide +kernel

/-- A feedback word not issued; returns behind an ended request: with words abandoned, with a stalemate declared, with neither. -/
theorem wit_late_return : feedbackWaits (txr { feedback := some 1 } []) 0 = true ∧ feedbackWaits (txr { cause := 4 } []) 0 = false
    ∧ (∀ p ∈ [(true, false), (false, true), (false, false)], let s := txr { cause := 4 } []
      let s := setBd s 0 { getBd s 0 with abandonedWords := p.1, smDeclared := p.2 }
      curChans s 0 = [0] ∧ egrCount (getHed s 0) 0 = 1 ∧ (getBd s 0).abandonedWords = p.1 ∧ (getBd s 0).smDeclared = p.2) := by decide +kernel

/-! ### The Slate -/

/-- A slate whose mailbox may run `sl`. -/
def tsl (sl : SlateSt) : State := { td {} {} with slate := sl }

/-- The mailbox: busy; CARD; STATE; RANGE at its edges; life at its limit and below it; each command that begins. -/
theorem wit_mailbox : ∀ p ∈ [((1 : Nat), ({ life := 19499 } : SlateSt)), (1, { life := 19500 }), (1, { openSeq := some 1 }), (2, { openSeq := some 1, argLen := 0x0F000000 }),
      (2, { openSeq := some 1, argLen := 0x10000, argOfs := 0x0F000000 }), (3, { openSeq := some 1, argLen := 0x100, argOfs := 0x0EFFFF00 }), (3, { openSeq := none }),
      (4, { openSeq := some 1 }), (5, { openSeq := some 1 }), (6, {}), (1, { busy := true }), (1, { present := false }), (1, { bootFail := 4 }), (1, { bootFail := 5 })],
    let s := tsl p.2
    fld (BitVec.ofNat 32 (p.1 * 2 ^ 28)) 28 4 = p.1 ∧ slateReady s = true ∧ CanAccess s (.pf 3) .slate false ∧ isPf (.pf 3) = true ∧ slateOn s = true
      ∧ slateFree s = true ∧ s.slate.sector = none ∧ copyValid s.slate.card true = false := by decide +kernel

/-- What the worked case of the Slate chapter writes at OPEN: life 1,204 used, copy A running; slot 1,204 at 0x0011_2D00, SEQ 0x0000_04B5, KIND 0x0000_0011. -/
theorem test_open : (match exec (.slateOpen (.pf 0) 0x10000000) (tsl { life := 1204 }) with
    | .next u => (match u.vigil.page with
      | some (a, r) => decide (a = 0x00112D00 ∧ ofBytesLE (r.take 4) = 0x4B5 ∧ ofBytesLE ((r.drop 4).take 4) = 0x11) | none => false) && u.slate.life == 1205
    | _ => false) = true := by decide +kernel

/-- The defect commit of the same case: the life record, then the defect record in slot 37 at 0x0030_0940. -/
def tdefect (st : Nat) (p : Option (Nat × List Byte)) : State :=
  let j : DefectJob := ⟨730, 301, 0x10, 6, false, 5, 700, 301⟩
  let s := tsl (if st = 0 then { queue := [j], life := 1205, defUsed := 37 } else { commit := some (j, st, 1205, 37), life := 1206, defUsed := 37 })
  { s with vigil := { page := p } }

theorem test_defect : (match exec .defectCommit (tdefect 0 none) with
    | .next u => (match u.vigil.page with
      | some (a, r) => decide (a = 0x00112D40 ∧ ofBytesLE (r.take 4) = 0x4B6 ∧ ofBytesLE ((r.drop 4).take 4) = 2 ∧ ofBytesLE ((r.drop 16).take 4) = 0x25) | none => false)
    | _ => false) = true := by decide +kernel

theorem test_defect_record : (match exec (.pageProgramDone true) (tdefect 1 (some (0x112D40, [0]))) with
    | .next u => (match u.vigil.page with
      | some (a, r) => decide (a = 0x00300940 ∧ ofBytesLE (r.take 4) = 0x4B6 ∧ ofBytesLE ((r.drop 4).take 4) = 1 ∧ ofBytesLE ((r.drop 8).take 4) = 0x02DA012D
          ∧ ofBytesLE ((r.drop 24).take 4) = 0x02BC012D ∧ (ofBytesLE ((r.drop 12).take 4)) / 256 % 16 = 6) | none => false)
    | _ => false) = true := by decide +kernel

theorem wit_card_programs : ∀ p ∈ [(some SlateJob.open_, ()), (some .close, ()), (some .abort, ()), (some (.program 0 256 []), ()), (some (.program 0 512 []), ())],
    let s := { tsl { job := p.1, busy := true } with vigil := { page := some (0x1FFFFF00, [1, 2]) } }
    s.vigil.page = some (0x1FFFFF00, [1, 2]) ∧ s.vigil.vstby = true ∧ s.slate.commit = none ∧ s.slate.job = p.1 := by decide +kernel

theorem wit_erase : ∀ left ∈ [0x10000, 0x20000], let s := tsl { sector := some 0x10000000, job := some (.erase 0 left) }
    s.slate.sector = some 0x10000000 ∧ s.slate.job = some (.erase 0 left) ∧ s.slate.suspended = false := by decide +kernel

theorem wit_defect : ∀ st ∈ [1, 2, 3], let s := tdefect st (some (0, [0]))
    s.slate.commit.map (·.2) = some (st, 1205, 37) ∧ s.vigil.page = some (0, [0]) ∧ s.vigil.vstby = true ∧ s.slate.job = none := by decide +kernel

theorem wit_defect_lost : ∀ p ∈ [(19999, 65535, true), (20000, 0, false), (0, 65536, false)],
    let s := tsl { queue := [⟨730, 301, 0x10, 6, false, 5, 700, 301⟩], life := p.1, defUsed := p.2.1 }
    slateOn s = true ∧ slateReady s = true ∧ s.vigil.page = none ∧ s.slate.commit = none
      ∧ decide (s.slate.life < 20000 ∧ s.slate.defUsed < 65536) = p.2.2 := by decide +kernel

theorem wit_window : ∀ ofs ∈ [0, 0x7FFFC], let s := tsl { win := 0x3FF }
    CanAccess s (.pf 0) .ident true ∧ ofs % 4 = 0 ∧ slateOn s = true ∧ s.vigil.page = none ∧ s.slate.sector = none ∧ s.slate.present = true := by decide +kernel

/-- The header and section table of a copy A with FIRMWARE of 64 bytes and BOARDS; its checksum by zlib. -/
def thead : SMap Byte :=
  let hdr : List Nat := [83, 76, 84, 49, 1, 0, 0, 0, 0, 4, 0, 0, 50, 255, 71, 24, 2, 0, 0, 0, 0, 0, 0, 0, 255, 255, 255, 255, 255, 255, 255, 255, 0, 0, 0, 0, 0, 0, 0, 0, 0, 0, 0, 0, 0, 0, 0, 0, 0, 0, 0, 0, 0, 0, 0, 0, 0, 0, 0, 0, 0, 0, 0, 0, 0, 0, 0, 0, 0, 0, 0, 0, 0, 0, 0, 0, 0, 0, 0, 0, 0, 0, 0, 0, 0, 0, 0, 0, 0, 0, 0, 0, 0, 0, 0, 0, 0, 0, 0, 0, 0, 0, 0, 0, 0, 0, 0, 0, 0, 0, 0, 0, 0, 0, 0, 0, 0, 0, 0, 0, 0, 0, 0, 0, 0, 0, 0, 0, 1, 1, 0, 0, 1, 0, 0, 0, 192, 0, 0, 0, 0, 0, 0, 0, 64, 0, 0, 0, 0, 0, 0, 0, 186, 135, 97, 15, 0, 0, 0, 0, 2, 1, 0, 0, 16, 0, 0, 0, 0, 1, 0, 0, 0, 0, 0, 0, 0, 3, 0, 0, 0, 0, 0, 0, 40, 76, 69, 138, 0, 0, 0, 0]
  hdr.zipIdx.map (fun p => (0x01000000 + p.2, BitVec.ofNat 8 p.1))

/-- A copy with the first words of BOARDS: board 0 at columns 0 to 3 and all rows, 16 frames in MED0 (R463). -/
theorem test_copy_board : let b := copyBoard (thead ++ [0, 0, 3, 0x80, 0, 0, 0x2F, 2, 0, 0, 0, 0, 0, 0, 0, 0, 0, 0, 4, 0].zipIdx.map (fun p => (0x01000100 + p.2, p.1))) 0x01000000 0
    b.st = .empty ∧ b.x0 = 0 ∧ b.x1 = 3 ∧ b.y0 = 0 ∧ b.y1 = 559 ∧ quotaOf b 0 = (0, 16) := by decide +kernel

/-- The mailbox's commands are the host's: a PF, and not the Steward. -/
theorem wit_host_pf : hostPf (.pf 3) = true ∧ hostPf .steward = false ∧ fnMaster (td {} {}) (pfIx 0) = true := by decide +kernel

/-- R476: a page programmed over bytes whose bits are already 0 does not read back as its data. -/
theorem test_program_verify : ∀ p ∈ [((0xFF : Byte), 0, 256), (0xF0, 5, 0)], (match exec (.pageProgramDone true)
      { tsl { job := some (.program 0 256 []), busy := true, card := if p.1 = 0xFF then [] else [(0x10000000, p.1)] } with vigil := { page := some (0x10000000, [0xAA]) } } with
    | .next u => u.slate.result == p.2.1 && u.slate.bytes == p.2.2 && !u.slate.busy | _ => false) = true := by decide +kernel

/-! ### Restarts, boot -/

theorem wit_rest : awake State.reset = false ∧ State.reset.boot.kind < 2 ∧ State.reset.vigil.vstby = true ∧ awake (td {} {}) = true
    ∧ (∀ fl ∈ [true, false], let s := { State.reset with vigil := { fell := fl, vstby := false, page := some (0, [1]) } }
      s.vigil.vstby = false ∧ awake s = false ∧ s.vigil.fell = fl) := by decide +kernel

/-- IDENT_RESTART with its key and bit, with the key alone, with another word. -/
theorem wit_restart : ∀ p ∈ [(0xB0070001, true), (0xB0070000, false), (0xB0080001, false)], let v : Word := BitVec.ofNat 32 p.1
    CanAccess (td {} {}) (.pf 0) .ident false ∧ decide (fld v 16 16 = 0xB007 ∧ bitAt v 0 = true) = p.2 := by decide +kernel

/-- Boot in each of its steps, with a reference selected; the last with every mesh locked. -/
def tboot (n : Nat) : State :=
  { State.reset with boot := { running := true, step := n }, clk := { aGood := true, selected := true }, fields := (List.range 84).map (fun f => (f, { mesh := if n = 8 then .locked else .off })) }

theorem wit_boot : ∀ p ∈ [1, 2, 3, 4, 5, 6, 7, 8].map (fun n => (n, ())), let s := tboot p.1
    s.boot.running = true ∧ s.boot.failed = false ∧ s.clk.waiting = false ∧ s.boot.step = p.1 ∧ s.clk.selected = true ∧ s.vigil.page = none
      ∧ s.slate.present = true ∧ s.flowOk = false := by decide +kernel

theorem wit_meshes : ∀ p ∈ (List.range 84).map (fun f => (f, ())), (getField (tboot 8) p.1).mesh = .locked ∧ (getField (tboot 7) p.1).mesh = .off := by decide +kernel

/-- A life journal with a valid IMAGE record of copy B in slot 0, an aborted one in slot 1, and the checksum of zlib; the factory map's entry of segment
(1, 80) at 0x10000 + 16 · (80 · 13). -/
def tjournal : SMap Byte :=
  let r : List Byte := [1, 0, 0, 0, 0x11, 0, 0, 0, 5, 0, 0, 0, 0, 0, 0, 0, 0, 0, 0, 0, 0, 0, 0, 0] ++ [114, 226, 28, 221]
  [(0x14100, 0x81)] ++ r.zipIdx.map (fun p => (0x100000 + p.2, p.1)) ++ [0, 0, 0, 0].zipIdx.map (fun p => (0x10003C + p.2, p.1))
    ++ [(0x100040, 2)]

theorem test_journal : lifeUsed tjournal = 2 ∧ lifeValid tjournal 0 = true ∧ lifeValid tjournal 1 = false ∧ lastImage tjournal 2 = some (1, true)
    ∧ defectsUsed tjournal = 0 ∧ (factoryEntry tjournal 1 80).getLsbD 0 = true ∧ (factoryEntry tjournal 1 80).getLsbD 1 = false := by decide +kernel

/-- R456, R460: an empty card fails with IDENTITY for its magic, one that declares 128-byte pages or answers nothing is no card. -/
theorem test_identity : identityFail [] = 3 ∧ sfdpGood (some {}) = true ∧ sfdpGood (some { page := 128 }) = false ∧ sfdpGood none = false := by
  refine ⟨?_, by decide, by decide, by decide⟩
  have m : cdNum [] 0 4 ≠ 0x31444953 := by decide +kernel
  simp [identityFail, m]

theorem test_no_card : (match exec (.bootStepEnd true) { tboot 3 with slate := { present := false } } with
    | .next u => u.boot.failed && u.slate.bootFail == 1 | _ => false) = true := by decide +kernel

/-- A device between a restart and its boot is out of reset; one after power-on is not. -/
theorem wit_out_of_reset : outOfReset State.reset = false ∧ outOfReset { State.reset with boot := { kind := 3 } } = true ∧ awake { State.reset with boot := { kind := 3 } } = false
    ∧ outOfReset (td {} {}) = true := by decide +kernel

/-- A boot whose step 1 waits to zero the timestamp; step 8 with FLOW_OK and the rails still to be commanded; a card with and without its SFDP. -/
theorem wit_boot_more : (let s := { State.reset with boot := { running := true, step := 1 }, vigil := { fell := false, zeroT := true } }
      s.vigil.zeroT = true ∧ s.clk.selected = false ∧ linkKept s = false)
    ∧ (let s := { tboot 8 with flowOk := true, fields := [] }
      (getField s 0).mesh = .off ∧ s.flowOk = true ∧ linkKept s = false)
    ∧ (∀ f < 84, clkRuns (tboot 8) f = true) ∧ sfdpGood (tboot 3).slate.sfdp = true := by decide +kernel

theorem test_boot_zero : (match exec .boot { State.reset with now := 7, clk := { aGood := true } } with
    | .next u => u.now == 0 && u.vigil.lost && !u.vigil.fell && u.boot.step == 1 | _ => false) = true := by decide +kernel

/-! ### Clocks -/

/-- A device after boot with clocks `c`, both meshes and ports to see. -/
def tc (c : ClkSt) (f : FieldSt) : State := { td {} {} with clk := { c with en := [(0, 0xFFFFFFFF), (1, 0xFFFFFFFF)] }, fields := [(83, f)] }

/-- A reference that is LOST may become GOOD, and one that is GOOD LOST: with none selected, with it selected, with the other, while a switch or a wait is on. -/
theorem wit_references : ∀ p ∈ [(({} : ClkSt), false), ({ bGood := true, selected := true, sel := true }, false), ({ waiting := true, selected := true }, false),
      ({ aGood := true }, true), ({ aGood := true, selected := true }, true), ({ aGood := true, bGood := true, selected := true }, true),
      ({ aGood := true, bGood := true, selected := true, sel := true }, true), ({ aGood := true, bGood := true, selected := true, sel := true, switching := true }, true)],
    let s := tc p.1 {}
    refOk s.clk 0 = p.2 ∧ (p.1.switching = true → refOk s.clk (othRef s.clk) = true ∧ s.clk.waiting = false) := by decide +kernel

theorem wit_boot_reference : let s := { State.reset with boot := { running := true, step := 1 } }
    refOk s.clk 1 = false ∧ s.clk.waiting = false ∧ s.boot.running = true ∧ s.boot.step = 1 ∧ s.clk.selected = false := by decide +kernel

/-- The key and the GO bit with the other reference GOOD, with the same one, with a wrong key. -/
theorem wit_switch_request : ∀ p ∈ [(0x5E1C0003, true, true), (0x5E1C0002, true, false), (0x5E1D0003, false, true), (0x5E1C0001, false, true)],
    let s := tc { aGood := true, bGood := true, selected := true } {}
    let v : Word := BitVec.ofNat 32 p.1
    CanAccess s (.pf 0) .clk false ∧ decide (fld v 16 16 = 0x5E1C ∧ bitAt v 1 = true) = p.2.1 ∧ decide (fld v 0 1 ≠ selRef s.clk) = p.2.2
      ∧ refOk s.clk (fld v 0 1) = true := by decide +kernel

theorem wit_mesh : ∀ p ∈ [(Mesh.locking, ()), (.relock, ()), (.rephase, ())], let s := tc { aGood := true, selected := true } { mesh := p.1, m := 63 }
    (getField s 83).mesh = p.1 ∧ s.clk.waiting = false ∧ s.clk.selected = true ∧ s.clk.switching = false ∧ (getField s 83).m < 64 := by decide +kernel

/-- CLK_FIELD_SEL at the last field: column 11, row 6. -/
theorem wit_field_sel : let v : Word := 0x5E00
    fld v 11 4 = 11 ∧ fld v 8 3 = 6 ∧ 12 * fld v 8 3 + fld v 11 4 = 83 := by decide +kernel

/-! ### Time and schedules -/

def ttm (t : TimeSt) : State := { td {} {} with clk := { aGood := true, selected := true, en := [(0, 0xFFFFFFFF)] }, time := t, now := 2 ^ 64 - 1, pwr := { steward := true } }

/-- A tick at the timestamp's last value, with a set pending and without, an oscillator period, an entry of the last tick still to execute. -/
theorem wit_tick : ∀ p ∈ [(({} : TimeSt), true), ({ setPend := true }, true), ({ due := [3], dev := [(3, { st := 1, act := 0x04000000 })] }, false)], let s := ttm p.1
    refRuns s = true ∧ s.clk.switching = false ∧ decide (dueNow s = []) = p.2 ∧ refRuns State.reset = false := by decide +kernel

/-- R313: 256 periods of the vigil oscillator count exactly 781,250 ticks. -/
theorem test_holdover : (List.range 256).foldl (fun (a : Nat × Nat) _ => (a.1 + (a.2 + 390625) / 128, (a.2 + 390625) % 128)) (0, 0) = (781250, 0) := by decide +kernel

theorem wit_set : linkOk (ttm {}) (.vf 0 0) = true ∧ isPf (.vf 0 0) = false ∧ isPf (.pf 0) = true ∧ blkServed (ttm {}) (.pf 0) .time false = true := by decide +kernel

/-- An entry of each kind in each of its states. -/
def te8 (k st act : Nat) : TimeSt :=
  let e : SchedEnt := { st := st, act := BitVec.ofNat 32 act, tLo := 5 }
  if k < 16 then { dev := [(k, e)], due := [k] } else { brd := [(k - 16, e)], due := [k] }

theorem wit_arm : ∀ st ∈ [0, 1, 2, 3], ∀ p ∈ [(SchedEntry.dev 15, 15), (.board 0 7, 23)], let s := { ttm (te8 p.2 st 0) with now := 4 }
    CanAccess s (.pf 0) .time false ∧ entOk (.pf 0) p.1 = true ∧ entKey p.1 = p.2 ∧ (entOf s (entKey p.1)).st = st ∧ entKey p.1 ∉ dueNow s := by decide +kernel

/-- What may be armed: an operating point of fields (0,0) to (11,6) and not of an inverted rectangle; the three actions of a board. -/
theorem wit_may_arm : (let v : Word := 0x04060B00; fld v 24 4 = 4 ∧ rectOk (v &&& 0xFFFFFF) = true ∧ (rectFields (v &&& 0xFFFFFF)).length = 84)
    ∧ (let v : Word := 0x04001000; rectOk (v &&& 0xFFFFFF) = false) ∧ (getBd (ttm {}) 0).pieces = 0 := by decide +kernel

theorem wit_due : ∀ p ∈ [(15, 4 * 2 ^ 24 + 0x60B00), (23, 1 * 2 ^ 24), (23, 2 * 2 ^ 24), (23, 3 * 2 ^ 24 + 63)],
    let s := { ttm (te8 p.1 1 p.2) with boards := [(0, { st := if p.2 < 2 * 2 ^ 24 then .loaded else .running, home := true, assembled := true, barDecl := [(63, 0xC0000001)] })] }
    (dueNow s).head? = some p.1 ∧ entAct (entOf s p.1) = p.2 / 2 ^ 24 := by decide +kernel

/-- A gate on a barrier whose count is full, and one whose count is not. -/
theorem wit_gate : ∀ c ∈ [0, 1], let bd : Board := { st := .running, barDecl := [(63, 0xC0000001)], barC := if c = 0 then [] else [(126, c)] }
    sget 0 bd.barC (2 * 63 + 0) = c ∧ barP bd 63 = 1 ∧ sget 0 bd.barC (2 * 63 + 1) = 0 := by decide +kernel

/-- The resumption's last mesh and one that is not the last; a wait that begins with no mesh on; a SET in holdover; a start the fields owe. -/
theorem wit_clocks_more : (let s := tc { aGood := true, selected := true, resuming := true } { mesh := .relock }
      (∀ f < 84, f ≠ 83 → (getField s f).mesh ≠ .relock) ∧ s.clk.resuming = true ∧ ∀ h < 4, ∀ k < 4, (getPort s h k).rx = [])
    ∧ (let s := { tc { aGood := true, selected := true, resuming := true } { mesh := .relock } with fields := [(0, { mesh := .relock }), (83, { mesh := .relock })] }
      (getField s 0).mesh = .relock)
    ∧ (let s := { ttm { setPend := true, setLo := 5 } with clk := {} }
      refRuns s = false ∧ s.clk.switching = false ∧ tickReady s = true)
    ∧ (let s := { ttm {} with boards := [(0, { startPending := true, startTs := 5, st := .loaded })] }
      dueNow s = [] ∧ tickReady s = false) := by decide +kernel

/-! ### Power -/

def tp (p : PwrSt) (v : FieldSt) : State :=
  { td {} {} with clk := { aGood := true, selected := true, en := [(0, 0xFFFFFFFF)] }, pwr := p, fields := [(83, v)] }

/-- The loop of the governor: power beyond the cap, below 90 % of it, below 85 %; a field at 95 and below 90 degrees, beyond its own cap. -/
theorem wit_governor : ∀ p ∈ [(24001, 760, 1001), (21599, 719, 899), (20399, 720, 900), (21600, 759, 1000)],
    let s := tp { steward := true, capW := 24, sens := [(332, p.2.1)] } { granted := 3, target := 7, wcap := 6, fcapW := 1, mesh := .locked }
    stewardActs s = true ∧ s.pwr.floor = false ∧ s.boot.done = true ∧ fieldTmax s 83 = p.2.1
      ∧ ∃ c ∈ [1, 2, 3, 4], (c = 1 ∧ 24000 < p.1) ∨ (c = 2 ∧ 10 * p.1 < 9 * 24000 ∧ ¬(100 * p.1 < 85 * 24000)) ∨ (c = 3 ∧ 100 * p.1 < 85 * 24000)
        ∨ (c = 4 ∧ 9 * 24000 ≤ 10 * p.1 ∧ p.1 ≤ 24000) := by decide +kernel

theorem wit_governor_fields : let s := tp { steward := true, capW := 24 } { granted := 3, target := 7, wcap := 6, fcapW := 1, mesh := .locked }
    (∀ g < 84, (getField s g).granted ≤ (getField s 83).granted) ∧ (getField s 83).wcap < min (getField s 83).target 7
      ∧ (∀ g < 84, (getField s g).wcap < min (getField s g).target 7 → (getField s 83).wcap ≤ (getField s g).wcap) := by decide +kernel

/-- A rectangle of all fields, one with its rows inverted, one beyond column 11. -/
theorem wit_target : ∀ p ∈ [(0x60B07, true), (0x1000, false), (0xC00, false), (0x8, false)], let v : Word := BitVec.ofNat 32 p.1
    decide (v &&& 0xF88008 = 0 ∧ fld v 12 3 ≤ fld v 16 3 ∧ fld v 16 3 ≤ 6 ∧ fld v 4 4 ≤ fld v 8 4 ∧ fld v 8 4 ≤ 11) = p.2
      ∧ CanAccess (tp {} {}) (.pf 0) .other false := by decide +kernel

/-- The phases of a sequencer with a step to go, its last one up and down, and the floor governor's. -/
theorem wit_sequencer : ∀ p ∈ [(({ phase := 2, m := 16, dest := 7, up := true, mesh := .locked } : FieldSt), 17, false), ({ phase := 2, m := 49, dest := 7, up := true, mesh := .locked }, 50, false),
      ({ phase := 2, m := 17, dest := 0, mesh := .locked }, 16, false), ({ m := 17, mesh := .locked }, 16, true), ({ phase := 1, mesh := .locked }, 0, false)],
    let s := tp { steward := true, floor := p.2.2 } p.1
    let v := getField s 83
    v.mesh = .locked ∧ s.clk.waiting = false ∧ s.pwr.stopped = false ∧ (v.phase = 2 → v.m ≠ opM v.dest ∧ (if v.up then v.m + 1 else v.m - 1) = p.2.1) := by decide +kernel

/-- A reading at the edge of 10 mV and one beyond it; after a Steward reset; the floor governor's turn at the last field. -/
theorem wit_voltage : (∀ mv ∈ [630, 610], (mv ≤ 620 + 10 ∧ 620 ≤ mv + 10)) ∧ ¬(609 + 10 ≥ 620)
    ∧ floorTurn 83 (tp { floor := true, floorAt := 83 } { m := 16, mesh := .locked }) = true
    ∧ (getField (tp { inReset := true } { phase := 3, voltWait := true, stretch := 8 }) 83).phase = 3 := by decide +kernel

/-- A sensor at 110 degrees for the second time, and the stops' and resets' states. -/
theorem wit_stops : let s := { tp { steward := true, hot := [359] } {} with flowOk := true }
    s.boot.done = true ∧ s.pwr.stopped = false ∧ s.pwr.hot.contains 359 = true ∧ stewardActs s = true ∧ s.flowOk = true
      ∧ (∀ b < 16, curChans s b = []) ∧ s.pwr.inReset = false := by decide +kernel

theorem wit_steward_key : ∀ p ∈ [(0x57E00001, true), (0x57E00000, false), (0x57E10001, false)], let v : Word := BitVec.ofNat 32 p.1
    decide (fld v 16 16 = 0x57E0 ∧ bitAt v 0 = true) = p.2 := by decide +kernel

theorem wit_floor : let s := tp { inReset := true } {}
    s.pwr.inReset = true ∧ s.pwr.floor = false ∧ s.pwr.stopped = false ∧ s.pwr.steward = false := by decide +kernel

/-- The Steward's return with the floor governor off and done; the signature is an open constant's verdict. -/
theorem wit_return_steward : ∀ p ∈ [({} : PwrSt), { floor := true, floorAt := 84 }], let s := tp p {}
    s.pwr.steward = false ∧ s.boot.done = true ∧ (s.pwr.floor = true → 84 ≤ s.pwr.floorAt) ∧ (∀ f < 84, (getField s f).phase ≠ 3) := by decide +kernel

theorem wit_coolant : ∀ p ∈ [({ steward := true } : PwrSt), { steward := true, nackAgain := true }, { steward := true, stopped := true }], let s := tp p {}
    s.clk.waiting = false ∧ s.pwr.steward = true ∧ bitAt (enW s 0) 4 = true ∧ s.boot.done = true := by decide +kernel

/-- R544: 40 % at 70 degrees, 6 % more for each degree, rounded up, 100 % at 80 degrees and above. -/
theorem test_coolant : coolFor 560 = 40 ∧ coolFor 568 = 46 ∧ coolFor 561 = 41 ∧ coolFor 640 = 100 ∧ coolFor 800 = 100 ∧ coolFor 0 = 40 := by decide +kernel

/-- A field that has stepped M in the switch, and one that has not. -/
theorem wit_switch_step : ∀ p ∈ [(true, ()), (false, ())], let s := tp { steward := true } { phase := 2, m := 16, dest := 7, up := true, mesh := .locked, swM := p.1 }
    let s := { s with clk := { s.clk with switching := true } }
    (getField s 83).swM = p.1 ∧ s.clk.switching = true ∧ (getField s 83).mesh = .locked ∧ s.clk.waiting = false := by decide +kernel

/-- A second cause in the tick of the stop; the timers' clock on and off. -/
theorem wit_same_tick : (let s := { tp { steward := true, stopped := true, hot := [3] } {} with now := 9, vigil := { stopTime := 9 }, flowOk := true }
      s.boot.done = true ∧ s.pwr.stopped = true ∧ s.vigil.stopTime = s.now ∧ s.pwr.hot.contains 3 = true ∧ timerOn s = true)
    ∧ timerOn { tp {} {} with clk := {} } = false := by decide +kernel

/-! ### Faults -/

/-- One fault raised in tick 9 by brick (0, 0) of board 0, which is `st`. -/
def tflt (st : BoardPhase) (code : Nat) (again : Bool) (det : Word) : State :=
  let e : Raised := ⟨code, some 0, some (0, 0), 0, det, 9, again, false, false⟩
  { td { st := st } { st := .running } with raised := [e] }

/-- A fault of each class with a board in each state that it acts on: not hard, hard by repetition, a brick that does not answer, a link, a tie. -/
theorem wit_report : ∀ p ∈ [(BoardPhase.loaded, 0x01, false), (.running, 0x17, false), (.draining, 0x10, false), (.running, 0x20, false), (.empty, 0x30, false), (.running, 0x28, false),
      (.running, 0x10, true), (.running, 0x12, false), (.running, 0x11, false), (.running, 0x13, false)],
    let s := tflt p.1 p.2.1 p.2.2 0
    (firstFault s.raised).map (fun e => (e.code, e.again)) = some (p.2.1, p.2.2) ∧ (getB s 0).st ≠ .quarantined ∧ linkMarked s 0 0 0 = false
      ∧ keyOf s 0 0 = some 0 ∧ s.flt.quar.length < 4096 ∧ (getBd s 0).st = p.1 := by decide +kernel

/-- The third fault within an hour is hard at the edge and not beyond it; two faults of one link; a link already marked. -/
theorem wit_hard : (360000000009 - 9 ≤ 360000000000) ∧ ¬(360000000010 - 9 ≤ 360000000000)
    ∧ linkCount { td {} {} with bricks := [(0, { linkFaults := [(1, 1)] }), (1, { linkFaults := [(3, 1)] })] } 0 0 1 = 2
    ∧ linkMarked { td {} {} with bricks := [(0, { quarLinks := 2 })] } 0 0 1 = true := by decide +kernel

theorem wit_first_standing : ∀ p ∈ [(8, ()), (10, ())], (getBd { tflt .running 1 false 0 with boards := [(0, { st := .running, fltValid := true, fltTick := p.1 })] } 0).fltTick ≠ 9 := by
  decide +kernel

theorem wit_poll : let s := { td {} { missed := 2 } with ties := [(3, { retries := 1001 })] }
    s.mapsReady = true ∧ (getField s 0).mesh ≠ .off ∧ s.clk.waiting = false ∧ fieldOf 0 0 = 0 ∧ keyOf s 0 0 = some 0 ∧ (getB s 0).missed = 2
      ∧ (s.ties.map Prod.fst).Nodup ∧ 3 / 4 % 1104 = 0 := by decide +kernel

theorem wit_fault_waits : ({ tflt .running 1 false 0 with clk := { waiting := true } } : State).clk.waiting = true ∧ (tflt .running 1 false 0).clk.waiting = false := by
  decide +kernel

/-! ### Stesy -/

/-- HED 3 with port 3 as `p`, channel slot 255 as `v`, and a forwarding entry that routes wafer 7, HED 1 to port 2. -/
def ty (p : Port) (v : Slot) : State :=
  { td {} {} with wafer := 5, heds := [(3, { ports := [(3, p)], slots := [(255, v)], slotPtr := 255, fwd := [(0x8F020000, 0x00070007)] })] }

theorem wit_train : ∀ st ∈ [2, 3, 4, 5], let s := ty { st := st, aligned := st = 5, peer := some (7, 1, 2), wasActive := st = 5 } {}
    s.clk.waiting = false ∧ (getPort s 3 3).st = st ∧ getPort s 3 2 = {} := by decide +kernel

/-- A HELLO of wafer 7, HED 1, port 2; one of the own HED; the sixteenth of one content. -/
theorem wit_hello : ∀ p ∈ [(7 + 65536 + 2 * 262144, true), (5 + 3 * 65536, false)], let l := bytesLE 4 0x20000000 ++ bytesLE 4 p.1 ++ bytesLE 4 1 ++ List.replicate 20 0
    let who := (fld (unitW l 1) 0 15, fld (unitW l 1) 16 2, fld (unitW l 1) 18 2)
    fld (unitW l 0) 28 4 = 2 ∧ fld (unitW l 2) 0 8 = 1 ∧ decide ¬(who.1 = 5 ∧ who.2.1 = 3) = p.2 ∧ (p.2 = true → who = (7, 1, 2)) := by decide +kernel

/-- A port with a LINK unit due; with units to send again; with a new unit of the service lane and of link channel 63; with nothing; with a full store. -/
theorem wit_unit_send : ∀ p ∈ [(({ st := 4, nakDue := true } : Port), true, none), ({ st := 4, linkWait := 1, nakDue := true, again := [{ typ := 0 }] }, false, none),
      ({ st := 4, txq := [(63, [{ typ := 0 }]), (64, [{ typ := 1 }])], txCred := [(63, 1), (64, 1)] }, false, some 64),
      ({ st := 4, txq := [(63, [{ typ := 0 }]), (64, [{ typ := 1 }])], txCred := [(63, 1)] }, false, some 63), ({ st := 4, txq := [(63, [{ typ := 0 }])] }, false, none)],
    decide (p.1.linkWait = 0 ∧ (p.1.nakDue = true ∨ p.1.ackDue = true ∨ pendingLanes p.1 ≠ [])) = p.2.1 ∧ (nextUnit p.1).map (·.1) = p.2.2 := by decide +kernel

theorem wit_store_full : nextUnit { replay := List.replicate 2048 { typ := 0 }, txq := [(64, [{ typ := 1 }])], txCred := [(64, 1)] } = none
    ∧ (List.replicate 2047 ({ typ := 0 } : DUnit)).length < 2048 := by decide +kernel

/-- A unit in sequence at LSEQ 4095 and one out of sequence; for this HED: flits of an IN slot, credits of an OUT slot, a notice; for another. -/
theorem wit_unit_receive : ∀ p ∈ [((0 : Nat), true, 5, 3), (1, false, 5, 3), (2, true, 5, 3), (3, true, 5, 3), (0, true, 7, 1), (0, true, 9, 1)],
    let l := bytesLE 4 (p.1 * 2 ^ 30 + 4095 * 65536 + 254 * 256) ++ bytesLE 4 (p.2.2.1 * 2 ^ 17 + p.2.2.2 * 2 ^ 15 + 255 * 128 + 15 * 8) ++ List.replicate 24 1
    let x := readUnit l
    x.lseq = 4095 ∧ x.typ = p.1 ∧ x.dwafer = p.2.2.1 ∧ x.dhed = p.2.2.2 ∧ x.dslot = 255 ∧ x.epoch = 15 ∧ x.hop = 254 := by decide +kernel

theorem wit_unit_routes : let s := ty { st := 4 } {}
    routeOf (getHed s 3) 7 1 = some 2 ∧ routeOf (getHed s 3) 9 1 = none ∧ (getPort s 3 2).st < 6 ∧ s.wafer = 5 := by decide +kernel

/-- A LINK unit with a NAK of LSEQ 2, stored, and the total of the service lane, 127, in its last field. -/
theorem wit_link_unit : let l := bytesLE 4 (0x14000000 + 2 * 4096) ++ List.replicate 26 0 ++ bytesLE 2 (0xC000 + 127)
    fld (unitW l 0) 28 4 = 1 ∧ bitAt (unitW l 0) 26 = true ∧ fld (unitW l 0) 12 12 = 2 ∧ bitAt (unitW l 7) 31 = true ∧ bitAt (unitW l 7) 30 = true
      ∧ fld (unitW l 7) 16 7 = 127 ∧ (∀ j < 13, bitAt (unitW l (1 + j / 2)) (16 * (j % 2) + 15) = false) := by decide +kernel

theorem wit_captures : let s := ty {} {}
    CanAccess s (.pf 0) .other false ∧ stesyOn s 3 3 = true ∧ fld (64 : Word) 0 7 ≤ 64 := by decide +kernel

/-- Board 15's slot 255: an OUT slot offered with one credit, an IN slot with flits to inject and credits to return; a board in STALEMATE. -/
theorem wit_slots : (let s := ty {} { used := true, opened := true, credits := 1, ring := [{}, {}], board := 15 }
      ((List.range 256).map (fun i => ((getHed s 3).slotPtr + i) % 256)).find? (fun i => offered s (getSlot s 3 i)) = some 255 ∧ (getBd s 15).st ≠ .stalemate)
    ∧ (let s := { ty {} { used := true, dirIn := true, ring := [{}], ret := 1, board := 15 } with boards := [(15, { assembled := true })] }
      min 8 (min (getSlot s 3 255).ring.length (16 - (sget [] (getMed s 0).inj 0).length)) = 1 ∧ (getBd s 15).assembled = true ∧ (getBd s 15).smDeclared = false)
    ∧ (getBd { ty {} {} with boards := [(15, { st := .stalemate })] } 15).st = .stalemate := by decide +kernel

/-- A notice of each kind behind one of another board; the board in the states that the clauses name. -/
theorem wit_notice : ∀ k ∈ [1, 2, 3, 4, 5, 6, 7, 8], ∀ p ∈ [(BoardPhase.loading, true), (.loaded, true), (.running, true), (.draining, true), (.empty, false)],
    let w : List Word := [BitVec.ofNat 32 (k * 2 ^ 28 + 0xFFFF), 1, 2, 0, 0, 0]
    let bd : Board := { st := p.1, imageId := 1 + 2 * 2 ^ 32 }
    fld ((w[0]?).getD 0) 28 4 = k ∧ fld ((w[0]?).getD 0) 0 16 = 65535
      ∧ decide (bd.imageId = ((w[1]?).getD 0).toNat + 2 ^ 32 * ((w[2]?).getD 0).toNat ∧ (bd.st ≠ .undefined ∧ bd.st ≠ .empty ∧ bd.st ≠ .resetting)) = p.2 := by decide +kernel

/-- Links are kept in a wait and in the resumption after it. -/
theorem wit_link_kept : ∀ p ∈ [(({ waiting := true } : ClkSt), true), ({ resuming := true }, true), ({}, false)], linkKept { ty {} {} with clk := p.1 } = p.2 := by decide +kernel

/-- A first uncorrectable codeword counts once; its other half does not. -/
theorem test_fec : ∀ p ∈ [(true, 1), (false, 0)], (match exec (.dataUnitReceive 3 3 (List.replicate 32 0) 2 p.1) (ty { st := 4 } {}) with
    | .next u => (getPort u 3 3).fecUe == p.2 && (getPort u 3 3).nakDue | _ => false) = true := by decide +kernel

/-- A piece that a REFUSE has reached, one whose START is held, one with a DRAIN held behind it. -/
theorem wit_notices : (let bd : Board := { st := .loaded, pieceBad := true }; bd.pieceBad = true ∧ bd.assembled = false)
    ∧ (let bd : Board := { st := .loaded, startHeld := true, heldDrain := some (false, true) }; bd.heldDrain.getD (false, false) = (false, true) ∧ bd.startPending = false) := by
  decide +kernel

/-! ### Endpoints -/

theorem wit_endpoint : (let s := td {} {}
      s.clk.waiting = false ∧ (getEnd s 3).up = true ∧ (getEnd s 3).perst = false ∧ (getEnd s 3).vfEnable = true ∧ linkOk s (.vf 3 3) = true)
    ∧ (getEnd State.reset 3).perst = true
    ∧ (getEnd { td {} {} with ends := [(3, { perst := false, training := true })] } 3).training = true := by decide +kernel

/-- Vector 31 pending and unmasked when bus mastering is switched on; one still masked stays pending. -/
theorem test_bus_master : (match exec (.busMasterEnable (.pf 0) true) { td {} {} with fns := [(0, { msix := [(16 * 31 + 12, 1)], pba := [(30, 1), (31, 1)] })] } with
    | .next u => u.toHost == [.irq 0 31] && (getFn u 0).pba == [(30, 1)] | _ => false) = true := by decide +kernel

/-- A load, a check, a PROGRAM and a ring whose DMA read fails. -/
theorem wit_dma : (let s := td { st := .loading, loadPass := 1 } {}
      (getBd s 0).st = .loading ∧ (getBd s 0).loadPass ≠ 0)
    ∧ (getBd (td { st := .halted, checking := true, checkArgs := [0, 0, 1, 1] } {}) 0).checking = true
    ∧ (let s := tsl { job := some (.program 0 256 (List.replicate 255 0)) }
      s.slate.job = some (.program 0 256 (List.replicate 255 0)) ∧ slateFree s = true ∧ (List.replicate 255 (0 : Byte)).length < 256)
    ∧ fetching (tx { ring := rg 2, txtProd := 1 } []) 0 0 = true := by decide +kernel

theorem wit_tilewin : ∀ f ∈ [Fn.pf 0, .vf 3 3, .steward], CanAccess (td {} {}) f .other false := by decide +kernel

theorem wit_endpoints_on : epxOn (td {} {}) 3 = true ∧ epxOn State.reset 3 = false
    ∧ (let s := tsl { job := some (.program 0 256 (List.replicate 256 0)) }
      slateFree s = true ∧ (List.replicate 256 (0 : Byte)).length = 256) := by decide +kernel

/-! ### Images, reports -/

/-- A pass over an image that cannot be read; without sections; and the write pass of one whose table has a section with a wrong checksum. -/
theorem wit_load : (∀ p ∈ [(1, ()), (2, ())], (getBd (td { st := .loading, loadPass := p.1, loadArgs := [0, 0, 1] } {}) 0).loadPass = p.1)
    ∧ imageRefusal (td { st := .loading, loadPass := 1, loadArgs := [0, 0, 1] } {}) 0 none [] none = some ⟨2, 0, 0xFF, none⟩
    ∧ imSects (List.replicate 0x80 0) = [] := by decide +kernel

/-- The write pass ends with the board LOADED where no checksum differs. -/
theorem test_load_empty : (match exec (.loadWritePassEnd 0 []) (td { st := .loading, loadPass := 2, loadHead := List.replicate 0x80 0 } {}) with
    | .next u => (getBd u 0).st == .loaded && (getBd u 0).loadPass == 0 | _ => false) = true := by decide +kernel

theorem wit_bad_section : let im : List Byte := (List.replicate 0x14 0 ++ [1] ++ List.replicate 0x6B 0) ++ (List.replicate 0x18 0 ++ [1] ++ List.replicate 7 0)
    (imSects im).map (fun v => decide (sectCrc im v = v.scrc)) = [false] := by decide +kernel

/-- A board that a CHECK may begin on, in each side of its clauses; the end of a check that is not comparable, of no report, of one. -/
theorem wit_check : ∀ p ∈ [(({ st := .undefined } : Board), false), ({ st := .halted, checking := true }, false), ({ st := .halted, lastDrain := 1 }, true), ({ st := .halted, lastDrain := 2 }, false)],
    CanCommand (td p.1 {}) (.vf 0 0) 0
      ∧ decide (p.1.checking = false ∧ p.1.st = .halted ∧ p.1.lastDrain = 1 ∧ (p.1.faultDrain = false ∧ p.1.abandonedWords = false ∧ p.1.abandonedDesc = false)) = p.2 := by decide +kernel

/-- A report of no blocks for the image 9, its checksum by zlib (R447), and what is compared with it: a brick whose counters are 0, one that has issued. -/
def trep : List Byte := [67, 82, 80, 49, 1, 0, 0, 0, 64, 0, 0, 0, 0, 0, 0, 0, 125, 136, 145, 240, 0, 0, 0, 0, 9, 0, 0, 0, 0, 0, 0, 0, 0, 0, 0, 0, 0, 0, 0, 0, 0, 0, 0, 0, 0, 0, 0, 0, 0, 0, 0, 0, 0, 0, 0, 0, 0, 0, 0, 0, 0, 0, 0, 0]

theorem wit_report_ok : let bd : Board := { st := .halted, imageId := 9, checking := true, checkArgs := [0, 0, 8, 1] }
    rptOk trep 64 bd = some [] ∧ imNum trep 0x18 8 = bd.imageId ∧ imNum trep 0x20 2 = bd.piece ∧ rptOk (trep.set 4 2) 64 bd = none ∧ (3 : Nat) ∈ matchable := by decide +kernel

theorem test_check_match : ∀ p ∈ [(0, 0), (1, 1)], (match exec (.checkEnd 0 trep) (td { st := .halted, imageId := 9, checking := true, checkArgs := [0, 0, 8, 1] } { cnt := if p.1 = 0 then [] else [(0, p.1)] }) with
    | .next u => (getBd u 0).checkOutcome == p.2 && u.raised.length == p.2 | _ => false) = true := by decide +kernel

/-- A CHECK whose report is not read while its function is no bus master. -/
theorem wit_check_waits : let s := { td { st := .halted, checking := true, checkArgs := [0, 0, 8, 1], checkFn := 0 } {} with fns := [] }
    fnMaster s 0 = false ∧ fnMaster (td {} {}) 0 = true ∧ linkKept s = false ∧ fnMaster s 20 = true := by decide +kernel

/-- A load list of one entry: good; with an address, a length that is no multiple of 8; of length 0; none; of no entries; and an image that it covers or not. -/
theorem wit_load_list : (∀ p ∈ [(0x1000, 8, true), (0x1004, 8, false), (0x1000, 12, false), (0x1000, 0, false)], (readList 1 (some (bytesLE 8 p.1 ++ bytesLE 8 p.2.1))).isSome = p.2.2)
    ∧ readList 1 none = none ∧ readList 0 (some []) = none
    ∧ (let s := td { st := .loading, loadPass := 1, loadArgs := [0, 0, 1] } {}
      listCovers s 0 (some (bytesLE 8 0 ++ bytesLE 8 8)) (List.replicate 8 0) = true ∧ listCovers s 0 (some (bytesLE 8 0 ++ bytesLE 8 8)) [] = false
        ∧ fnMaster s 0 = true ∧ fnMaster { s with fns := [] } 0 = false) := by decide +kernel

/-- R193, R399: a brick of the board that no record names keeps no enabled slot. -/
theorem test_load_disables : (match exec (.loadWritePassEnd 0 []) (td { st := .loading, x1 := 3, y1 := 3, loadPass := 2, loadHead := List.replicate 0x80 0 }
      { cfg := [(0x300, 0x88000000), (0x620, 0x80000000)] }) with
    | .next u => cfgW (getB u 0) 0x300 == 0x08000000 && cfgW (getB u 0) 0x620 == 0x80000000 | _ => false) = true := by decide +kernel

/-! ### Brick registers that act -/

/-- Aperture 15 of the PF of HED 0 and of the Steward on the brick `b` at the origin, with SRAM and program memory at their last addresses. -/
def tap (b : Brick) : State :=
  { td { st := .empty } b with fns := [(0, { tiles := [(15, 0xC0000000)] }), (20, { tiles := [(15, 0xC0000000)] })] }

theorem wit_reach : ∀ f ∈ [Fn.pf 0, .steward], ∀ rd ∈ [true, false], CanReach (tap { st := .running }) f 15 rd 0 := by decide +kernel

theorem wit_memory_ports : ∀ st ∈ [BState.stopped, .running], ∀ ecc ∈ [0, 2], let s := tap { st := st, useT := 9, sramAddr := 0xBFFC, pmemAddr := 2047, pmemEcc := [(2047, ecc)], rpt := [⟨1, 2, 3, 4⟩] }
    (getB s 0).st = st ∧ sget 0 (getB s 0).pmemEcc (getB s 0).pmemAddr = ecc ∧ brickAt (getB s 0) 9 = some (getB s 0)
      ∧ bankForReg s 0 (getB s 0) (bankOf 0xBFFC) 9 = true ∧ (sramHealth (getB s 0) 0xBFFC 4).2 = none ∧ (getB s 0).rpt.reverse[0]? = some ⟨1, 2, 3, 4⟩ := by decide +kernel

theorem wit_sram_bad : (sramHealth { sramEcc := [(6143, 2)] } 0xBFFC 4).2 ≠ none := by decide +kernel

/-- R81: LO then HI write one word and move the address on; here over the last word, to 0. -/
theorem test_pmem_write : (match exec (.brkPmemHiWrite (.pf 0) 15 0x12345678) (tap { pmemAddr := 2047, pmemLoHold := 0x9ABCDEF0 }) with
    | .next u => (getB u 0).pmem == [(2047, 0x123456789ABCDEF0)] && (getB u 0).pmemAddr == 0 | _ => false) = true := by decide +kernel

/-- A route slot of each input and one reserved, a listed and an unlisted contract counter. -/
theorem wit_selects : (∀ p ∈ [(0x9F, true), (0xA0, false)], decide (fld (BitVec.ofNat 32 p.1 : Word) 5 3 < 5) = p.2)
    ∧ ccIndex 0x59 = true ∧ ccIndex 0x5A = false := by decide +kernel

/-- The last segment of the wafer, and a place in it that is used and one that is not. -/
theorem wit_grid : let v : Word := 11 * 2048 + 6 * 256 + 79
    CanAccess (td {} {}) (.pf 0) .ident false ∧ fld v 11 4 < 12 ∧ fld v 8 3 < 7 ∧ fld v 0 7 < 80 ∧ posUsed 0 91 = true ∧ posUsed 0 92 = false := by decide +kernel

theorem wit_twx : (∀ p ∈ [(128, 0x80000000), (152, 0xC0000000)], let b := trb p.1 (BitVec.ofNat 32 p.2)
    bitAt (rtEntry b 4 (p.1 - 128)) 30 = decide (p.1 = 152)) ∧ sget 0 ({} : Brick).twx 152 = 0 := by decide +kernel

/-! ### Registers, counters -/

/-- Addresses at the edges of the clauses: of each BAR, of the device space, of an aperture's configuration. -/
theorem wit_addresses : (0x0FFFFFFC : Nat) % 4 = 0 ∧ (0x10000000 : Nat) % 4 = 0 ∧ (0x100000 : Nat) % 4 = 0 ∧ (0x820000 : Nat) % 4 = 0 ∧ isPf (.vf 0 0) = false
    ∧ linkOk (td {} {}) (.pf 3) = true ∧ linkOk State.reset (.pf 3) = false := by decide +kernel

/-- A write of 8 bytes of which both halves have their effect. -/
theorem wit_wide : (match exec (.registerWrite (.pf 0) 0x400000 false 0xF8000000 false) (td {} {}) with
    | .next u => (match exec (.registerWrite (.pf 0) 0x400004 false 0 false) u with | .next w => decide (u.resp ≠ .held ∧ w.resp ≠ .held) | _ => false)
    | _ => false) = true := by decide +kernel

/-- A brick's configuration register in state STOPPED and RUNNING, and a live one. -/
theorem wit_configuration : ∀ p ∈ [(0x200, ()), (0x6FC, ()), (0x700, ())], ∀ st ∈ [BState.stopped, .running],
    CanReach (tap { st := st }) (.pf 0) 15 false 0 ∧ 0x200 ≤ p.1 ∧ p.1 < 0x800 ∧ ((cfgFields p.1 0).isSome = true ∨ p.1 = 0x6FC) := by decide +kernel

theorem wit_items : ∀ w ∈ [0, 5], let s := { td {} {} with wafer := w }
    CanAccess s (.pf 0) .other false ∧ s.wafer < 2 ^ 15 ∧ decide (fld (5 : Word) 0 15 = s.wafer) = decide (w = 5) := by decide +kernel

/-- TIME_NOW through the PF: its LO and, four bytes on, its HI, which is no LO. -/
theorem wit_counter : (match ctrAt { td {} {} with now := 2 ^ 33 + 5 } (.pf 0) 0x300000 with
    | some c => c.lo == 5 && c.hi == 2 && c.ok && c.served | none => false) = true
    ∧ ctrAt (td {} {}) (.pf 0) 0x300004 = none := by decide +kernel

/-- R625: HI read after LO gives the value held at LO, not the one of its own moment. -/
theorem test_counter : (match exec (.counterLoRead (.pf 0) 0x300000 false) { td {} {} with now := 2 ^ 32 - 1 } with
    | .next u => (match exec (.counterLoRead (.pf 0) 0x300004 false) { u with now := 2 ^ 32 } with | .next w => u.resp == .value 0xFFFFFFFF && w.resp == .value 0 | _ => false)
    | _ => false) = true := by decide +kernel

/-- R74, R76, R53: the words of BRK_ID, BRK_STATE and IDENT_GRID_SUM; a misaligned read; BRK_RT_TWX of a Tirkan word not translated. -/
theorem test_reads : ∀ p ∈ [(0x810000 + 0x1000 * 15, 0), (0x810000 + 0x1000 * 15 + 8, 0x80000700 + 0x12), (0x414, 0x00010000), (0x810001, 0), (0x400000, 0x20000000)],
    (match exec (.counterLoRead (.pf 0) p.1 false) { tap { st := .running, pc := 7, wrIgnored := true, rpt := [⟨1, 2, 3, 4⟩] } with
        segs := [(0, { pending := true })], flt := { dev := 0x20000000 } } with
    | .next u => u.resp == .value (BitVec.ofNat 32 p.2) | _ => false) = true := by decide +kernel

theorem wit_poisoned : linkOk (td {} {}) (.pf 0) = true ∧ linkOk State.reset (.pf 0) = false ∧ (0x810001 : Nat) % 4 ≠ 0
    ∧ blkServed (td {} {}) (.pf 0) .ident true = true := by decide +kernel

/-! ### Windows, the rim, boundary scan -/

/-- MED 7 with the descriptors `ds` of board 0, whose quota there is one frame, 3; the staged words name column `col`. -/
def twn (ds : SMap Desc) (w0 : Word) : State :=
  let bd : Board := { st := .running, x1 := 1103, y1 := 559, quota := [(7, 0x4003)] }
  { td bd {} with meds := [(7, { desc := ds, injRole := [(0, 1)], wins := [(0, { regs := if w0 = 0 then [] else [(0x20, w0)], cpl := [7, 8] })], dram := [] })] }

/-- A submission that is good, of KIND 0, and one whose 16 slots are taken; a faulted and an error descriptor; the engine's clock off; a frame quota and none. -/
theorem wit_window_regs : ∀ p ∈ [((0x10000000 : Nat), false), (0, true), (0x60000000, true)], let s := twn [] (BitVec.ofNat 32 p.1)
    reaches (.vf 0 0) 0 = true ∧ medOn s 7 = true ∧ CanAccess s (.vf 0 0) .other false ∧ submitBad s 7 0 (staged (getMed s 7) 0) = p.2 ∧ (getBd s 0).st ≠ .resetting := by decide +kernel

theorem wit_window_full : let s := twn ((List.range 16).map (fun i => (descKey 3 0 i, { phase := if i = 15 then .faulted else if i = 14 then .error else .running }))) 0x10000000
    (∀ i < 16, sfind (getMed s 7).desc (descKey 3 0 i) ≠ none) ∧ (sfind (getMed s 7).desc (descKey 3 0 15)).map (·.phase) = some .faulted
      ∧ (sfind (getMed s 7).desc (descKey 3 0 14)).map (·.phase) = some .error ∧ pfnCount (quotaW s 7 0) = 1 ∧ pfnCount (quotaW s 7 1) = 0 := by decide +kernel

theorem wit_window_off : let s := { twn [] 0 with clk := {} }
    linkOk s (.pf 0) = true ∧ medOn s 7 = false ∧ (getBd (td { st := .resetting } {}) 0).st = .resetting := by decide +kernel

/-- An EGRESS slot with a flit: without a Stesy slot, its board's queue with room and full; with one that is open, full, closed. -/
theorem wit_egress : ∀ p ∈ [((0 : Nat), 255, ({} : Slot)), (0, 256, {}), (1, 0, { used := true }), (1, 0, { used := true, ring := List.replicate 64 {} }), (1, 0, { closed := true })],
    let s := { tm { role := [(31, 3)], rx := [(31, [{}])], chan := if p.1 = 0 then [] else [(31, 1)] } {} with
      heds := [(0, { sram := if p.2.1 = 0 then [] else if p.2.1 = 255 then [(0x3C800, 255)] else [(0x3C801, 1)], slots := [(0, p.2.2)] })] }
    portBoard s 0 0 = some 0 ∧ edgeRuns s = true ∧ sget 0 (getMed s 0).chan 31 = p.1 ∧ egrCount (getHed s 0) 0 = p.2.1 ∧ getSlot s 0 0 = p.2.2 := by decide +kernel

/-- A write of 8 records to slot 31 of lane 1 of column 275 by the Steward, the Lexicon unit of its board and another master. -/
theorem wit_wafer_window : ∀ p ∈ [(RimMaster.steward, true), (.lexicon 0 0, true), (.lexicon 0 1, false), (.pcie (.pf 0), false)], let ofs := 275 * 0x1000 + 0x800 + 31 * 0x40
    let s := { tm { injRole := [(slotKey 275 1 31, 2)] } {} with boards := [(0, { st := .running, x1 := 1103 })] }
    rimCtxOk p.1 = true ∧ ofs % 8 = 0 ∧ ofs % 0x40 + 8 * 8 ≤ 64 ∧ ofs / 0x1000 = 275 ∧ slotKey (ofs / 0x1000) (ofs / 0x800 % 2) (ofs / 0x40 % 32) = slotKey 275 1 31
      ∧ decide (sget 0 (getMed s 0).injRole (slotKey 275 1 31) = 2 ∧ portBoard s 0 275 = some 0 ∧ (p.1 = .steward ∨ p.1 = .lexicon 0 0)) = p.2 := by decide +kernel

/-- A burst of the DRAM window without a context: beyond the DRAM, in a board's table frame, below it; in the context of board 0: mapped, not mapped. -/
theorem wit_dram_window : let s := tm {} {}
    inTableFrame s 0 0x1FFFC0 64 = true ∧ inTableFrame s 0 0x200000 64 = false ∧ rimCtx .steward = none ∧ rimCtx (.dma 0 (some 0)) = some 0
      ∧ (match transSpan (getMed s 0) (quotaW s 0 0) 0 64 none true with | .ok _ => true | .error _ => false) = true
      ∧ (match transSpan (getMed s 0) (quotaW s 0 0) 0x200000 64 none true with | .ok _ => false | .error _ => true) = true := by decide +kernel

/-- The paths that end at a HED's SRAM, with the contexts their masters may set; a range that is allowed and one that is not; the grant's turn. -/
theorem wit_rim : ∀ p ∈ [(0, some (0 : Nat)), (4, none), (8, some 0), (12, none), (13, some 0)],
    pathExists p.1 8 = true ∧ mstCtxOk p.1 p.2 = true
      ∧ ((List.range 21).map (fun i => (20 + 1 + i) % 21)).find? (fun x => x == p.1 || [20].contains x) = some p.1 := by decide +kernel

theorem wit_rim_range : let s := tx {} []
    hedRangeOk s 0 12 none 0x3FFFC0 64 true = true ∧ hedRangeOk s 0 12 none 0x400000 64 true = false ∧ hedRangeOk s 0 0 (some 0) 0x5FC0 64 false = true
      ∧ hedRangeOk s 0 0 (some 0) 0x5FC0 128 false = false := by decide +kernel

theorem wit_rim_sel : let v : Word := 20 * 256 + 17
    fld v 8 5 < 21 ∧ fld v 0 5 < 18 ∧ pathExists 20 17 = false ∧ pathExists 12 17 = true := by decide +kernel

/-- From Capture-DR with every die in BYPASS, and with IDCODE. -/
theorem wit_scan : (∀ h < 4, sget 0xFF ([] : SMap Nat) h = 0xFF) ∧ (∀ h < 4, sget 0xFF ([(0, 2), (1, 2), (2, 2), (3, 2)] : SMap Nat) h = 2) := by decide +kernel

/-- A rim master at a MED: its DRAM; the register window of its own board and of another; an offset of no window; a read of the wafer window. -/
theorem wit_rim_med : let s := tm {} {}
    pathExists 12 0 = true ∧ mstCtxOk 12 none = true ∧ pathExists 0 0 = true ∧ mstCtxOk 0 (some 1) = true ∧ edgeRuns s = true
      ∧ ((List.range 21).map (fun i => (20 + 1 + i) % 21)).find? (fun x => x == 12 || [20].contains x) = some 12
      ∧ 0x7FFFFFC00 + 64 * 16 ≤ 0x800000000 ∧ (0x80003FFFC - 0x800000000) / 0x1000 ≠ 0x10 + 1 ∧ (0x800011000 - 0x800000000) / 0x1000 = 0x10 + 1
      ∧ (dramWindow (masterOf 12 none) 0 0x200000 none 64 s).isSome = true := by decide +kernel

/-- A burst to DRAM is granted; bursts to offsets of no window and a read of a wafer window are violations. -/
theorem test_rim_med : ∀ p ∈ [(0x200000, Resp.done), (0x800400000, .violation), (0x900000000, .violation), (0x87FFFFFC0, .violation)],
    (match exec (.rimBurst 12 0 none p.1 1 0xFF none [] 0) (tm {} {}) with
    | .next u => u.resp == p.2 || (p.2 == .done && sget 20 u.rim.last 0 == 12 && u.resp != .violation && u.resp != .held) | _ => false) = true := by decide +kernel

theorem wit_rim_response : ∀ p ∈ [(({ ctx := none, ofs := 0, beats := 1 } : RimCmd), Resp.done), ({ ctx := none, ofs := 0, beats := 1, room := some (3, true) }, .room 3 true)],
    let s := { tm {} {} with rim := { cmds := [(32 * 12 + 8, [p.1])] } }
    sget [] s.rim.cmds (32 * 12 + 8) = p.1 :: [] ∧ (match exec (.rimResponse 8 12 0) s with | .next u => u.resp == p.2 | _ => false) = true := by decide +kernel

theorem wit_dram_top : (2 ^ 35 ≤ (0x800000000 : Nat)) ∧ 0x800000000 % 64 = 0 ∧ 0x800000000 % 1024 + 64 ≤ 1024 ∧ rimCtxOk .steward = true := by decide +kernel

/-- TDO is live from boot step 7 on. -/
theorem wit_tdo : ∀ p ∈ [(6, false), (7, true)], let s := tboot p.1
    decide (s.boot.done = true ∨ (s.boot.running = true ∧ 7 ≤ s.boot.step)) = p.2 := by decide +kernel

/-! ### Single rules, the machine -/

/-- A head MARK with a true and with a false predicate; a context at an SGATE whose port holds an entry. -/
theorem wit_mark : CanIssueHere .mark (tw 3 0x20 0 0 0 0 7) ∧ predOf (tb (twF (tw 0 0 0 0 0 0 0))) (twF (tw 0 0 0 0 0 0 0)) = false := by decide +kernel

theorem wit_other_reference : ∀ p ∈ [(({ aGood := true, bGood := true, selected := true } : ClkSt), (0 : Nat), true), ({ aGood := true, selected := true }, 1, false)],
    p.1.selected = true ∧ p.1.waiting = false ∧ decide (p.2.1 = selRef p.1) = p.2.2 ∧ refOk p.1 p.2.1 = p.2.2 := by decide +kernel

/-- A state in which boot is legal and from which a command steps. -/
theorem wit_invariants : (let s := { State.reset with pending := [.boot] }
      (¬(s.boot.running = true ∧ s.boot.done = true) ∧ s.boot.step = 1 ∧ s.now < 2 ^ 64 ∧ s.wafer < 2 ^ 15 ∧ s.pwr.capW < 2 ^ 16))
    ∧ (match step { State.reset with pending := [.boot] } with | .next u => u.boot.running && u.pending.isEmpty | _ => false) = true := by decide +kernel

/-- A command that is none of those that SlateItemsKept excepts answers a next state. -/
theorem wit_items_kept : (match exec (.cellCheck 2399) State.reset with | .next u => u.vigil.cellLow | _ => false) = true ∧ Instr.cellCheck 2399 ≠ .powerLoss := by decide +kernel

/-! ### Well-formed commands -/

/-- Each check of `wellFormed` takes a term at its edge and refuses one beyond it. -/
theorem test_well_formed : ∀ p ∈ [
    (Instr.registerWrite (.pf 0) 0x0FFFFFFC false 0 false, true), (.registerWrite (.pf 0) 0x0FFFFFFC true 0 false, false), (.registerWrite (.pf 0) 0x10000000 false 0 true, false),
    (.counterLoRead (.pf 0) 0x0FFFFFFC false, true), (.counterLoRead (.pf 0) 0x0FFFFFFC true, false), (.counterLoRead (.pf 0) 0x10000000 false, false),
    (.slateWindowRead (.pf 0) 0x7FFFC, true), (.slateWindowRead (.pf 0) 0x7FFFE, false),
    (.waferWindowWrite .steward 0 0 (List.replicate 128 0), true), (.waferWindowWrite .steward 0 0 [], false), (.waferWindowWrite .steward 0 0 (List.replicate 129 0), false),
    (.dramWindowAccess .steward 0 0x7FFFFFC00 none 1024, true), (.dramWindowAccess .steward 0 0 none 0, false), (.dramWindowAccess .steward 0 0x7FFFFFC40 none 1024, false),
    (.dramWindowAccess .steward 0 0 (some [0]) 2, false)], wellFormed p.1 = p.2 := by decide +kernel

theorem test_well_formed_rim : ∀ p ∈ [
    (Instr.scrub 0 0xFFFFFFFF, true), (.scrub 0 0x100000000, false), (.rimBurst 0 8 none 0 16 0xFF none [] 0, true), (.rimBurst 0 8 none 0 17 0xFF none [] 0, false),
    (.rimBurst 0 8 none 960 2 0xFF none [] 0, false), (.ringEntryFetched 0 0 (List.replicate 16 0) [], true), (.ringEntryFetched 0 0 [] [], false),
    (.slateProgram (.pf 0) 0 (some []), true), (.governorLoop 0 (List.replicate 84 0), true), (.governorLoop 0 [], false), (.energyPublish (List.replicate 84 0) 0, true),
    (.energyPublish [] 0, false), (.calibration (List.replicate 84 0), true), (.calibration [], false)], wellFormed p.1 = p.2 := by decide +kernel

theorem test_well_formed_units : ∀ p ∈ [
    (Instr.helloReceive 0 0 (List.replicate 32 0) 0 true, true), (.helloReceive 0 0 [] 0 true, false), (.dataUnitReceive 0 0 (List.replicate 32 0) 1 true, true),
    (.dataUnitReceive 0 0 [] 0 true, false), (.linkUnitReceive 0 0 (List.replicate 32 0) 2 false, true), (.linkUnitReceive 0 0 [] 0 true, false),
    (.sidebandPoll 0 [(1103, 559)], true), (.sidebandPoll 0 [(1104, 0)], false), (.sidebandPoll 0 [(0, 560)], false), (.cardInsertion [(0, 0), (0x1FFFFFFF, 0)] none, true),
    (.cardInsertion [(1, 0), (1, 0)] none, false), (.cardInsertion [(0x20000000, 0)] none, false), (.cardInsertion [(0, 0xFF)] none, false)], wellFormed p.1 = p.2 := by decide +kernel

/-- The one check left: a PROGRAM of more bytes than a copy holds. -/
theorem test_well_formed_program (l : List Byte) (h : 0x0F000000 < l.length) : wellFormed (.slateProgram (.pf 0) 0 (some l)) = false := by
  simp [wellFormed, h]

end Sys2Proof.Tests
end

section
/-! SUPPORT. Data SRAM under issue: the bytes of a little-endian number, loads, stores. -/
namespace Sys2Proof.Machine

/-! ### Bytes of a little-endian number (R9) -/

@[simp] theorem bytesLE_length (n v : Nat) : (bytesLE n v).length = n := by
  induction n generalizing v with
  | zero => rfl
  | succ n ih => simp [bytesLE, ih]

/-- Byte i of the little-endian bytes of v. -/
theorem bytesLE_getD {n i : Nat} (v : Nat) (h : i < n) : (bytesLE n v).getD i 0 = BitVec.ofNat 8 (v / 2 ^ (8 * i)) := by
  induction n generalizing v i with
  | zero => omega
  | succ n ih =>
    cases i with
    | zero => simp [bytesLE]
    | succ i =>
      have hp : v / 256 / 2 ^ (8 * i) = v / 2 ^ (8 * (i + 1)) := by
        rw [Nat.div_div_eq_div_mul, Nat.mul_add, Nat.pow_add, Nat.mul_comm]
      simpa [bytesLE, hp] using ih (v / 256) (Nat.lt_of_succ_lt_succ h)

theorem readLE_succ (m : SMap Byte) (a n : Nat) : readLE m a (n + 1) = (sget 0 m a).toNat + 256 * readLE m (a + 1) n := rfl

theorem readLE_lt (m : SMap Byte) (a n : Nat) : readLE m a n < 2 ^ (8 * n) := by
  induction n generalizing a with
  | zero => exact Nat.one_pos
  | succ n ih =>
    have hb := (sget 0 m a).isLt
    have hr := ih (a + 1)
    rw [readLE_succ, Nat.mul_add, Nat.pow_add]
    omega

/-- Byte i of a number read little-endian is the byte i places on. -/
theorem readLE_byte (m : SMap Byte) {n i : Nat} (a : Nat) (h : i < n) :
    readLE m a n / 2 ^ (8 * i) % 256 = (sget 0 m (a + i)).toNat := by
  induction n generalizing a i with
  | zero => omega
  | succ n ih =>
    have hb : (sget 0 m a).toNat < 256 := (sget 0 m a).isLt
    rw [readLE_succ]
    cases i with
    | zero => simp only [Nat.mul_zero, Nat.pow_zero, Nat.div_one, Nat.add_zero]; omega
    | succ i =>
      have hd : ((sget 0 m a).toNat + 256 * readLE m (a + 1) n) / 256 = readLE m (a + 1) n := by omega
      rw [show 8 * (i + 1) = 8 + 8 * i by omega, Nat.pow_add, ← Nat.div_div_eq_div_mul, show 2 ^ 8 = 256 from rfl, hd,
        ih (a + 1) (Nat.lt_of_succ_lt_succ h), show a + 1 + i = a + (i + 1) by omega]

/-! ### Data SRAM is no part of what issue always writes -/

theorem IssueKeeps.sram {b b' : Brick} (h : IssueKeeps b b') : b'.sram = b.sram := by
  rw [← h]
theorem IssueKeeps.sramEcc {b b' : Brick} (h : IssueKeeps b b') : b'.sramEcc = b.sramEcc := by
  rw [← h]

theorem IssueKeeps.sramHealth {b b' : Brick} (h : IssueKeeps b b') (a n : Nat) : sramHealth b' a n = sramHealth b a n := by
  simp only [Machine.sramHealth, h.sramEcc]

theorem IssueKeeps.sramVal {b b' : Brick} (h : IssueKeeps b b') (a n : Nat) : sramVal b' a n = readLE b.sram a n := by
  simp only [Machine.sramVal, h.sram]

/-- What issue leaves is left whatever is put for data SRAM on both sides. -/
theorem IssueKeeps.setSram {b b' : Brick} (h : IssueKeeps b b') (m : SMap Byte) (e : SMap Nat) :
    IssueKeeps { b with sram := m, sramEcc := e } { b' with sram := m, sramEcc := e } := by
  have hc := congrArg (fun z : Brick => { z with sram := m, sramEcc := e }) h
  exact hc

theorem issueKeeps_sramRead (b : Brick) (a n : Nat) : IssueKeeps b (sramRead b a n).1 := by
  unfold sramRead; dsimp only; split
  · exact .refl b
  · exact issueKeeps_cnt _ _

/-- An address that may be accessed: within data SRAM and a multiple of the size (R123, R159). -/
theorem sramOk_of {a n : Nat} (h : a < 0xC000) (hn : a % n = 0) : sramOk a n = true := by simp [sramOk, h, hn]

/-- A load that does not fault (R122, R159). -/
theorem loadEff_of {b : Brick} {pred : Bool} {a n : Nat} (F : Brick → Nat → Eff)
    (h : pred = true → a < 0xC000 ∧ a % n = 0 ∧ (sramHealth b a n).2 = none) :
    loadEff b pred a n F = if pred then F (sramRead b a n).1 (sramVal b a n) else { b := b } := by
  cases pred with
  | false => rfl
  | true =>
    obtain ⟨ha, hn, hh⟩ := h rfl
    simp [loadEff, sramOk_of ha hn, sramRead, hh]

/-- A store that does not fault (R124, R159): a write of 8 bytes or more reads nothing first (R650). -/
theorem storeEff_of {b : Brick} {pred : Bool} {a : Nat} {l : List Byte}
    (h : pred = true → a < 0xC000 ∧ a % l.length = 0 ∧ (l.length < 8 → (sramHealth b a l.length).2 = none)) :
    storeEff b pred a l = { b := if pred then (sramWrite b a l).1 else b } ∧ (pred = true → (sramWrite b a l).2 = none) := by
  cases pred with
  | false => exact ⟨rfl, fun c => nomatch c⟩
  | true =>
    obtain ⟨ha, hn, hh⟩ := h rfl
    have hw : (sramWrite b a l).2 = none := by
      unfold sramWrite; dsimp only; split
      · rfl
      · next hl => rw [hh (Nat.lt_of_not_le hl)]
    refine ⟨?_, fun _ => hw⟩
    simp only [storeEff, sramOk_of ha hn, Bool.not_true, Bool.false_eq_true, if_false, if_true]
    split
    · next b1 w he => rw [he] at hw; cases hw
    · next b1 he => rw [he]

/-! ### Issue of a load or a store -/

/-- The brick differs from b in nothing but counts, data SRAM and its check bits. -/
def MemKeeps (b b' : Brick) : Prop := { b' with cnt := b.cnt, sram := b.sram, sramEcc := b.sramEcc } = b

theorem MemKeeps.refl (b : Brick) : MemKeeps b b := by exact rfl
theorem memKeeps_sramRead (b : Brick) (a n : Nat) : MemKeeps b (sramRead b a n).1 := by
  unfold MemKeeps sramRead; dsimp only; split <;> rfl

theorem memKeeps_sramWrite (b : Brick) (a : Nat) (l : List Byte) : MemKeeps b (sramWrite b a l).1 := by
  unfold MemKeeps sramWrite; dsimp only; split
  · rfl
  · split
    · rfl
    · split <;> rfl

theorem MemKeeps.flights {b b' : Brick} (h : MemKeeps b b') : b'.flights = b.flights := by
  rw [← h]
theorem MemKeeps.queGet {b b' : Brick} (h : MemKeeps b b') (q : Que) : queGet b' q = queGet b q := by
  cases q <;> rw [← h] <;> rfl
theorem MemKeeps.issueKeeps {b b' : Brick} (h : MemKeeps b b') : IssueKeeps b { b' with sram := b.sram, sramEcc := b.sramEcc } := by
  rw [← h]; exact rfl

theorem issueKeeps_issueFlight (op : BOp) (w : DWord) (t : Nat) (ws : List RW) (b : Brick) : IssueKeeps b (issueFlight op w t ws b) := by
  unfold issueFlight; split
  · exact .refl b
  · exact issueKeeps_flights _ _

/-- An instruction that sends nothing, holds no unit and does not halt, and whose effect f raises no fault and touches nothing but counts
and data SRAM: its issue leaves data SRAM as f does, and its destinations are reserved. -/
theorem issues_mem {op : BOp} {s : State} {x : Fin 1104} {y : Fin 560} {t k : Nat} {b : Brick} {h : QEntry} {rest : List QEntry}
    (c : CanIssue op s x y t k b h rest) {f : Brick → Eff} {ws : List RW}
    (he : ∀ b1, effOf op b b1 (opCtx s x y b h) h (poppedBy op b h) (predOf b h.word) t = f b1)
    (hf : ∀ b1, IssueKeeps b b1 → (f b1).fault = none ∧ MemKeeps b1 (f b1).b ∧ (if predOf b h.word then (f b1).writes else []) = ws)
    (ha : arrayHold op h.word = 0) (hs : sendsOf op h.word = none) (ht : isTrans op = false) (hh : op ≠ .halt) :
    ∃ u b1, issueOp op x y t s = some u ∧ queGet (getB u k) (queOp op) = rest ∧ IssueKeeps b b1
      ∧ IssueKeeps b { getB u k with sram := b.sram, sramEcc := b.sramEcc }
      ∧ (getB u k).flights = b.flights ++ (if (dstsOf op h.word).isEmpty then [] else [⟨t + latOf op h.word, dstsOf op h.word, ws⟩])
      ∧ (getB u k).sram = (f b1).b.sram ∧ (getB u k).sramEcc = (f b1).b.sramEcc ∧ IssueFrame s u k := by
  have k1 := issueStart_keeps op s x y b (queOp op) h rest t
  have r1 := issueStart_rest op s x y b (queOp op) h rest t
  have e := he (issueStart op s x y b (queOp op) h rest t).1
  rw [← issueStart_entries op s x y b (queOp op) h rest t] at e
  obtain ⟨hn, hm, hw⟩ := hf _ k1
  obtain ⟨u, hu, hb, hfr⟩ := issues_of c (by simp only [issueB, e, hn])
  simp only [issueB, e, issueEnd_plain _ _ _ _ _ ha hs ht hh, hn, Option.isNone_none, Bool.and_true, hw] at hb
  generalize (issueStart op s x y b (queOp op) h rest t).1 = b1 at *
  refine ⟨u, b1, hu, ?_, k1, ?_, ?_, ?_, ?_, hfr⟩ <;> rw [hb]
  · rw [clearCause_queGet, ← r1.1, ← hm.queGet]
    unfold issueFlight; split <;> rfl
  · have ke : IssueKeeps b { (f b1).b with sram := b.sram, sramEcc := b.sramEcc } := by
      rw [← k1.sram, ← k1.sramEcc]; exact k1.trans hm.issueKeeps
    exact ke.trans (((issueKeeps_issueFlight _ _ _ _ _).trans (issueKeeps_clearCause _ _)).setSram _ _)
  · rw [clearCause_flights, ← r1.2, ← hm.flights]
    unfold issueFlight; split <;> simp
  · unfold issueFlight; split <;> cases queOp op <;> rfl
  · unfold issueFlight; split <;> cases queOp op <;> rfl

/-- A load at an address whose words are readable: its destination is to get the value of the bytes there (R122, R159). -/
theorem issues_load {op : BOp} {s : State} {x : Fin 1104} {y : Fin 560} {t k : Nat} {b : Brick} {h : QEntry} {rest : List QEntry}
    (c : CanIssue op s x y t k b h rest) {a n r : Nat} {W : Nat → RW}
    (he : ∀ b1, effOf op b b1 (opCtx s x y b h) h (poppedBy op b h) (predOf b h.word) t
      = loadEff b1 (predOf b h.word) a n (fun b2 v => { writes := [W v], b := b2 }))
    (hok : predOf b h.word = true → a < 0xC000 ∧ a % n = 0 ∧ (sramHealth b a n).2 = none)
    (ha : arrayHold op h.word = 0) (hs : sendsOf op h.word = none) (ht : isTrans op = false) (hh : op ≠ .halt)
    (hd : dstsOf op h.word = [r]) :
    ∃ u, issueOp op x y t s = some u ∧ queGet (getB u k) (queOp op) = rest ∧ IssueKeeps b (getB u k)
      ∧ (getB u k).flights = b.flights ++ [⟨t + latOf op h.word, [r], if predOf b h.word then [W (readLE b.sram a n)] else []⟩]
      ∧ IssueFrame s u k := by
  have hf : ∀ b1, IssueKeeps b b1 → loadEff b1 (predOf b h.word) a n (fun b2 v => { writes := [W v], b := b2 })
      = if predOf b h.word then { writes := [W (readLE b.sram a n)], b := (sramRead b1 a n).1 } else { b := b1 } := by
    intro b1 k1
    rw [loadEff_of _ (by rw [k1.sramHealth]; exact hok), k1.sramVal]
  obtain ⟨u, b1, hu, hq, k1, hk, hfl, hsr, hec, hfr⟩ := issues_mem c
    (ws := if predOf b h.word then [W (readLE b.sram a n)] else []) he
    (fun b1 k1 => by
      rw [hf b1 k1]; split
      · exact ⟨rfl, memKeeps_sramRead b1 a n, rfl⟩
      · exact ⟨rfl, .refl b1, rfl⟩) ha hs ht hh
  rw [hf b1 k1] at hsr hec
  have hsr' : (getB u k).sram = b.sram := by
    rw [hsr, ← k1.sram]; split
    · exact (issueKeeps_sramRead b1 a n).sram
    · rfl
  have hec' : (getB u k).sramEcc = b.sramEcc := by
    rw [hec, ← k1.sramEcc]; split
    · exact (issueKeeps_sramRead b1 a n).sramEcc
    · rfl
  refine ⟨u, hu, hq, ?_, ?_, hfr⟩
  · rw [← hsr', ← hec'] at hk; exact hk
  · rw [hfl, hd]; rfl

/-- A store of the n bytes of v at an address whose words are readable, or of 8 bytes or more, writes them and no other byte
(R124, R159, R650). -/
theorem issues_store {op : BOp} {s : State} {x : Fin 1104} {y : Fin 560} {t k : Nat} {b : Brick} {h : QEntry} {rest : List QEntry}
    (c : CanIssue op s x y t k b h rest) {a n v : Nat}
    (he : ∀ b1, effOf op b b1 (opCtx s x y b h) h (poppedBy op b h) (predOf b h.word) t = storeEff b1 (predOf b h.word) a (bytesLE n v))
    (hok : predOf b h.word = true → a < 0xC000 ∧ a % n = 0 ∧ (n < 8 → (sramHealth b a n).2 = none))
    (ha : arrayHold op h.word = 0) (hs : sendsOf op h.word = none) (ht : isTrans op = false) (hh : op ≠ .halt)
    (hd : dstsOf op h.word = []) :
    ∃ u, issueOp op x y t s = some u ∧ queGet (getB u k) (queOp op) = rest
      ∧ IssueKeeps b { getB u k with sram := b.sram, sramEcc := b.sramEcc } ∧ (getB u k).flights = b.flights
      ∧ (∀ j, sget 0 (getB u k).sram j = if predOf b h.word = true ∧ a ≤ j ∧ j < a + n then BitVec.ofNat 8 (v / 2 ^ (8 * (j - a)))
          else sget 0 b.sram j)
      ∧ IssueFrame s u k := by
  have hf := fun b1 (k1 : IssueKeeps b b1) =>
    storeEff_of (b := b1) (pred := predOf b h.word) (a := a) (l := bytesLE n v) (by rw [k1.sramHealth, bytesLE_length]; exact hok)
  obtain ⟨u, b1, hu, hq, k1, hk, hfl, hsr, -, hfr⟩ := issues_mem c (ws := []) he
    (fun b1 k1 => by
      rw [(hf b1 k1).1]; refine ⟨rfl, ?_, ite_self _⟩; dsimp only; split
      · exact memKeeps_sramWrite b1 a _
      · exact .refl b1) ha hs ht hh
  refine ⟨u, hu, hq, hk, by simpa [hd] using hfl, fun j => ?_, hfr⟩
  obtain ⟨hb, hw⟩ := hf b1 k1
  rw [hsr, hb, ← k1.sram]
  cases hp : predOf b h.word with
  | false => simp
  | true =>
    simp only [if_true, true_and, sramWrite_byte (hw hp) j, bytesLE_length]
    split
    · next hj => exact bytesLE_getD v (by omega)
    · rfl

/-- What `Issues` says, from the issue that the command answers. -/
theorem issues_of_answer {ins : Instr} {op : BOp} {s u : State} {x y t k : Nat} {q : Que} {rest : List QEntry} {P : Brick → Prop}
    (he : exec ins s = answer s (issueOp op x y t s)) (hu : issueOp op x y t s = some u) (hq : queGet (getB u k) q = rest)
    (hp : P (getB u k)) (hf : IssueFrame s u k) : Issues ins s k q rest P :=
  ⟨{ u with resp := .done }, by rw [he, hu]; rfl, rfl, hq, hp, hf.trans (issueFrame_resp u .done k)⟩

/-- What a load gives as MemoryIssue words it: nothing with a false predicate, else a number of n bytes whose bytes are those at a. -/
theorem load_writes (m : SMap Byte) (pred : Bool) (a n : Nat) (W : Nat → RW) :
    if pred then ∃ v : Nat, (if pred then [W (readLE m a n)] else []) = [W v] ∧ v < 2 ^ (8 * n)
      ∧ ∀ i < n, v / 2 ^ (8 * i) % 256 = (sget 0 m (a + i)).toNat
    else (if pred then [W (readLE m a n)] else []) = [] := by
  cases pred with
  | false => rfl
  | true => exact ⟨_, rfl, readLE_lt m a n, fun i hi => readLE_byte m a hi⟩

/-- Settles O10: loads and stores by `issues_load` and `issues_store`, their bytes by `readLE_byte` and `bytesLE_getD`. -/
theorem memoryIssue : Obligations.MemoryIssue := by
  refine ⟨fun op hop s x y t k b h rest c => ?_, fun op hop s x y t k b h rest c => ?_⟩
  · simp only [List.mem_cons, List.not_mem_nil, or_false] at hop
    rcases hop with rfl | rfl <;> simp only [if_true, if_false, reduceCtorEq] <;> intro hok
    · obtain ⟨u, hu, hq, hk, hfl, hfr⟩ := issues_load c (W := fun v => .g (iD h.word) (BitVec.ofNat 32 v)) (fun _ => rfl) hok
        rfl rfl rfl (by decide) rfl
      exact issues_of_answer rfl hu hq ⟨hk, _, hfl, load_writes b.sram _ _ 4 (fun v => .g (iD h.word) (BitVec.ofNat 32 v))⟩ hfr
    · obtain ⟨u, hu, hq, hk, hfl, hfr⟩ := issues_load c (W := fun v => .v (iD h.word) (BitVec.ofNat 256 v)) (fun _ => rfl) hok
        rfl rfl rfl (by decide) rfl
      exact issues_of_answer rfl hu hq ⟨hk, _, hfl, load_writes b.sram _ _ 32 (fun v => .v (iD h.word) (BitVec.ofNat 256 v))⟩ hfr
  · simp only [List.mem_cons, List.not_mem_nil, or_false] at hop
    rcases hop with rfl | rfl <;> simp only [if_true, if_false, reduceCtorEq, true_implies, false_implies, and_true] <;> intro hok
    · obtain ⟨u, hu, hq, hk, hfl, hj, hfr⟩ := issues_store c (n := 4) (fun _ => rfl)
        (fun hp => ⟨(hok hp).1, (hok hp).2.1, fun _ => (hok hp).2.2⟩) rfl rfl rfl (by decide) rfl
      exact issues_of_answer rfl hu hq ⟨hk, hfl, hj⟩ hfr
    · obtain ⟨u, hu, hq, hk, hfl, hj, hfr⟩ := issues_store c (n := 32) (fun _ => rfl)
        (fun hp => ⟨(hok hp).1, (hok hp).2, fun hn => absurd hn (by decide)⟩) rfl rfl rfl (by decide) rfl
      exact issues_of_answer rfl hu hq ⟨hk, hfl, hj⟩ hfr

end Sys2Proof.Machine
end

section
/-! SUPPORT. Fields of words: what a field of a packed word, of a word with a field replaced and of a register written reads. -/
namespace Sys2Proof.Machine

/-- Bit i of a field. -/
theorem testBit_fld {n : Nat} (w : BitVec n) (lo len i : Nat) : (fld w lo len).testBit i = (decide (i < len) && bitAt w (lo + i)) := by
  simp only [fld, bitAt, Nat.testBit_mod_two_pow, Nat.testBit_shiftRight, BitVec.testBit_toNat]

/-- Bit i of a packed number: that of the first field, where i lies in it, or that of the other fields. -/
theorem testBit_packNat_cons (lo len v : Nat) (r : List (Nat × Nat × Nat)) (i : Nat) :
    (packNat ((lo, len, v) :: r)).testBit i
      = ((decide (lo ≤ i) && (decide (i - lo < len) && v.testBit (i - lo))) || (packNat r).testBit i) := by
  simp only [packNat, Nat.testBit_or, Nat.testBit_shiftLeft, Nat.testBit_mod_two_pow, ge_iff_le]

theorem bitAt_packW (fs : List (Nat × Nat × Nat)) {i : Nat} (h : i < 32) : bitAt (packW fs) i = (packNat fs).testBit i := by
  simp only [bitAt, packW, BitVec.getLsbD_ofNat, h, decide_true, Bool.true_and]

/-- No field of the list has a bit in [lo+len-1 : lo]. -/
def apart (lo len : Nat) : List (Nat × Nat × Nat) → Bool
  | [] => true
  | (l, n, _) :: r => decide (l + n ≤ lo ∨ lo + len ≤ l) && apart lo len r

theorem testBit_packNat_apart {lo len i : Nat} {fs : List (Nat × Nat × Nat)} (h : apart lo len fs = true) (hi : i < len) :
    (packNat fs).testBit (lo + i) = false := by
  induction fs with
  | nil => exact Nat.zero_testBit _
  | cons p r ih =>
    obtain ⟨l, n, v⟩ := p
    simp only [apart, Bool.and_eq_true, decide_eq_true_eq] at h
    rw [testBit_packNat_cons, ih h.2]
    by_cases hl : l ≤ lo + i
    · simp [show ¬ lo + i - l < n by omega]
    · simp [hl]

/-- A field of a packed word is the value given for it, cut to its width. -/
theorem fld_packW_here {lo len : Nat} (v : Nat) {r : List (Nat × Nat × Nat)} (hw : lo + len ≤ 32) (h : apart lo len r = true) :
    fld (packW ((lo, len, v) :: r)) lo len = v % 2 ^ len := by
  apply Nat.eq_of_testBit_eq
  intro i
  rw [testBit_fld, Nat.testBit_mod_two_pow]
  by_cases hi : i < len
  · rw [bitAt_packW _ (by omega), testBit_packNat_cons, testBit_packNat_apart h hi]
    simp [hi]
  · simp [hi]

/-- Another field of a packed word. -/
theorem fld_packW_next {l n lo len : Nat} (v : Nat) (r : List (Nat × Nat × Nat)) (hw : lo + len ≤ 32) (h : l + n ≤ lo ∨ lo + len ≤ l) :
    fld (packW ((l, n, v) :: r)) lo len = fld (packW r) lo len := by
  apply Nat.eq_of_testBit_eq
  intro i
  rw [testBit_fld, testBit_fld]
  by_cases hi : i < len
  · rw [bitAt_packW _ (by omega), bitAt_packW _ (by omega), testBit_packNat_cons]
    by_cases hl : l ≤ lo + i
    · simp [show ¬ lo + i - l < n by omega]
    · simp [hl]
  · simp [hi]

/-- A one-bit field of a packed word. -/
theorem bitAt_packW_here {i : Nat} (b : Bool) {r : List (Nat × Nat × Nat)} (hi : i < 32) (h : apart i 1 r = true) :
    bitAt (packW ((i, 1, b2n b) :: r)) i = b := by
  have hr := testBit_packNat_apart h Nat.one_pos
  rw [bitAt_packW _ hi, testBit_packNat_cons, show (packNat r).testBit i = false from hr]
  cases b <;> simp [b2n]

/-- Bit i of a word with a field replaced. -/
theorem bitAt_setFld (w : Word) (lo len v : Nat) {i : Nat} (hi : i < 32) :
    bitAt (setFld w lo len v) i = if lo ≤ i ∧ i < lo + len then v.testBit (i - lo) else bitAt w i := by
  have hm : ((2 ^ len - 1) <<< lo).testBit i = decide (lo ≤ i ∧ i < lo + len) := by
    rw [Nat.testBit_shiftLeft, Nat.testBit_two_pow_sub_one, ← Bool.decide_and]
    exact decide_eq_decide.mpr (by omega)
  simp only [bitAt, setFld, BitVec.getLsbD_or, BitVec.getLsbD_and, BitVec.getLsbD_not, BitVec.getLsbD_ofNat, hi, hm,
    Nat.testBit_shiftLeft, Nat.testBit_mod_two_pow, decide_true, Bool.true_and, ge_iff_le]
  by_cases h : lo ≤ i ∧ i < lo + len
  · simp [h, show i - lo < len by omega]
  · by_cases hl : lo ≤ i
    · simp [h, show ¬ i - lo < len by omega]
    · simp [hl]

/-- A field replaced by a value is the word it was exactly where it held that value. -/
theorem setFld_eq_self_iff (w : Word) {lo len : Nat} (v : Nat) (h : lo + len ≤ 32) : setFld w lo len v = w ↔ v % 2 ^ len = fld w lo len := by
  constructor
  · intro e
    apply Nat.eq_of_testBit_eq
    intro i
    rw [testBit_fld, Nat.testBit_mod_two_pow]
    by_cases hi : i < len
    · have hb := bitAt_setFld w lo len v (show lo + i < 32 by omega)
      rw [e, if_pos (by omega)] at hb
      simp [hi, hb]
    · simp [hi]
  · intro e
    apply BitVec.eq_of_getLsbD_eq
    intro i hi
    have hb := bitAt_setFld w lo len v hi
    split at hb
    · next hr =>
      have ht := congrArg (fun n => n.testBit (i - lo)) e
      simp only [testBit_fld, Nat.testBit_mod_two_pow, show i - lo < len by omega, decide_true, Bool.true_and,
        show lo + (i - lo) = i by omega] at ht
      exact hb.trans ht
    · exact hb

end Sys2Proof.Machine
end

section
/-! SUPPORT. Register accesses by address: how an address reaches its block, and what an access does there. -/
namespace Sys2Proof.Machine

variable {s : State} {f : Fn}

/-! ### The command and its one or two words (R13) -/

theorem exec_registerWrite (a : Nat) (wide : Bool) (v : BitVec 64) (p : Bool) :
    exec (.registerWrite f a wide v p) s = reply s (if p then poisoned f s else regWrite f a wide v s) := rfl

theorem exec_counterLoRead (a : Nat) (wide : Bool) : exec (.counterLoRead f a wide) s = reply s (regRead f a wide s) := rfl

theorem exec_write32 {a : Nat} (v : Word) (h : a % 4 = 0) :
    exec (.registerWrite f a false (v.setWidth 64) false) s = reply s (write32 f a v s) := by
  have hv : BitVec.ofNat 32 (v.setWidth 64).toNat = v := by
    rw [BitVec.toNat_setWidth_of_le (by decide), BitVec.ofNat_toNat, BitVec.setWidth_eq]
  rw [exec_registerWrite, regWrite]
  simp only [h, ne_eq, not_true, if_false, hv, Bool.not_false, if_true, Bool.false_eq_true]
  cases write32 f a v s <;> rfl

theorem exec_read32 {a : Nat} (h : a % 4 = 0) : exec (.counterLoRead f a false) s = reply s (read32 f a s) := by
  rw [exec_counterLoRead, regRead]
  simp only [h, ne_eq, not_true, if_false, Bool.not_false, if_true]
  cases read32 f a s <;> rfl

/-- A command that answers anything but `held` had its effect. -/
theorem eq_some_of_reply {t : State} {o : Option State} (h : reply s o = .next t) (hn : t.resp ≠ .held) : o = some t := by
  rcases reply_next h with h | ⟨_, ht⟩
  · exact h
  · subst ht; exact absurd rfl hn

/-- A misaligned write is ignored, or waits for the link. -/
theorem regWrite_misaligned {a : Nat} (wide : Bool) (v : BitVec 64) (h : a % 4 ≠ 0) :
    regWrite f a wide v s = if linkOk s f then some (unwrote s) else none := by
  rw [regWrite]; simp only [if_pos h]

/-- A misaligned read is zero, or waits for the link. -/
theorem regRead_misaligned {a : Nat} (wide : Bool) (h : a % 4 ≠ 0) :
    regRead f a wide s = if linkOk s f then some { s with resp := if wide then .value64 0 else .value 0 } else none := by
  rw [regRead, if_pos h]

theorem ofNat_halves (lo hi : Word) : BitVec.ofNat 64 (lo.toNat + 2 ^ 32 * hi.toNat) = hi ++ lo := by
  apply BitVec.eq_of_toNat_eq
  rw [BitVec.toNat_append, BitVec.toNat_ofNat, ← Nat.shiftLeft_add_eq_or_of_lt lo.isLt, Nat.shiftLeft_eq]
  have h1 := lo.isLt; have h2 := hi.isLt
  omega

theorem pairResp_values (lo hi : Word) : pairResp (.value lo) (.value hi) = .value64 (hi ++ lo) :=
  congrArg Resp.value64 (ofNat_halves lo hi)

/-- A read of 8 bytes whose halves answer values answers both (R13). -/
theorem read_wide {a : Nat} {lo hi : Word} {s1 s2 : State} (ha : a % 4 = 0) (h1 : exec (.counterLoRead f a false) s = .next s1)
    (hlo : s1.resp = .value lo) (h2 : exec (.counterLoRead f (a + 4) false) s1 = .next s2) (hhi : s2.resp = .value hi) :
    exec (.counterLoRead f a true) s = .next { s2 with resp := .value64 (hi ++ lo) } := by
  rw [exec_read32 ha] at h1
  rw [exec_read32 (by omega)] at h2
  have e1 := eq_some_of_reply h1 (by rw [hlo]; nofun)
  have e2 := eq_some_of_reply h2 (by rw [hhi]; nofun)
  rw [exec_counterLoRead, regRead]
  simp only [ha, ne_eq, not_true, if_false, e1, e2, Bool.not_true, Bool.false_eq_true, Option.map_some, hlo, hhi, pairResp_values, reply_some]

/-- A write of 8 bytes whose halves take effect is the two, and answers as the first did unless that was done (R13). -/
theorem write_wide {a : Nat} {v : BitVec 64} {s1 s2 : State} (ha : a % 4 = 0)
    (h1 : exec (.registerWrite f a false ((v.extractLsb' 0 32).setWidth 64) false) s = .next s1) (hn1 : s1.resp ≠ .held)
    (h2 : exec (.registerWrite f (a + 4) false ((v.extractLsb' 32 32).setWidth 64) false) s1 = .next s2) (hn2 : s2.resp ≠ .held) :
    exec (.registerWrite f a true v false) s = .next { s2 with resp := if s1.resp = .done then s2.resp else s1.resp } := by
  rw [exec_write32 _ ha] at h1
  rw [exec_write32 _ (by omega)] at h2
  have e1 := eq_some_of_reply h1 hn1
  have e2 := eq_some_of_reply h2 hn2
  have hlo : BitVec.ofNat 32 v.toNat = v.extractLsb' 0 32 := by
    apply BitVec.eq_of_toNat_eq; simp [BitVec.extractLsb'_toNat]
  have hhi : BitVec.ofNat 32 (v.toNat / 2 ^ 32) = v.extractLsb' 32 32 := by
    apply BitVec.eq_of_toNat_eq; simp [BitVec.extractLsb'_toNat, Nat.shiftRight_eq_div_pow]
  rw [exec_registerWrite, regWrite]
  simp only [ha, ne_eq, not_true, if_false, hlo, hhi, e1, e2, Bool.not_true, Bool.false_eq_true, Option.map_some, bothResp, reply_some]

/-! ### Logging under AER, violations (R564, R565, R621) -/

theorem aer_logged (s : State) (i n : Nat) :
    sget 0 (getFn (modFn s i (fun v => { v with aer := smod 0 v.aer n (· + 1) })) i).aer n = sget 0 (getFn s i).aer n + 1 := by
  simp [modFn]

/-- A poisoned write of a function whose link is up (R565). -/
theorem poisoned_of (hf : f ≠ .steward) (hl : linkOk s f = true) : ∃ u, poisoned f s = some u ∧ u.resp = .ignored
    ∧ { u with resp := s.resp, fns := s.fns } = s ∧ sget 0 (getFn u (fnIx f)).aer 2 = sget 0 (getFn s (fnIx f)).aer 2 + 1 := by
  rw [poisoned, if_neg (by simp [hf, hl])]
  exact ⟨_, rfl, rfl, rfl, aer_logged s _ _⟩

theorem poisoned_held (h : f = .steward ∨ linkOk s f = false) : poisoned f s = none := by
  rw [poisoned, if_pos (by simpa using h)]

/-- An access outside the BAR (R564). -/
theorem unsupported_of (hf : f ≠ .steward) (hl : linkOk s f = true) : ∃ u, unsupported f s = some u ∧ u.resp = .unsupported
    ∧ { u with resp := s.resp, fns := s.fns } = s ∧ sget 0 (getFn u (fnIx f)).aer 1 = sget 0 (getFn s (fnIx f)).aer 1 + 1 := by
  rw [unsupported, if_neg (by simp [hf, hl])]
  exact ⟨_, rfl, rfl, rfl, aer_logged s _ _⟩

theorem fnCtx_of_isPf (h : isPf f = true) : fnCtx f = none := by
  cases f with
  | vf h' k => cases h
  | pf _ => rfl
  | steward => rfl

/-- What a violation of the device's context changes. -/
theorem violate_device (s : State) : { (violate s none).flt with viol := s.flt.viol } = s.flt
    ∧ ∀ i, sget 0 (violate s none).flt.viol i = if i = 16 then evAdd (sget 0 s.flt.viol i) 1 else sget 0 s.flt.viol i := by
  refine ⟨rfl, fun i => ?_⟩
  simp only [violate, Option.getD_none, sget_smod]
  split
  · next h => rw [h]
  · rfl

/-! ### Counters by address (R625) -/

theorem ctrBrick_eq_none {ap o : Nat} (h : o ∉ [0x8D0, 0x8D8, 0xC10, 0xC18]) : ctrBrick s f ap o = none := by
  simp only [List.mem_cons, List.not_mem_nil, or_false, not_or] at h
  unfold ctrBrick
  split
  any_goals rfl
  all_goals omega

/-- No counter lies between the boards' blocks and the HEDs' but in a brick's space, and none above the MEDs' blocks. -/
theorem ctrPf_eq_none {a : Nat} (h : 0x600000 ≤ a ∧ a < 0x1000000 ∨ 0x7000000 ≤ a)
    (hb : 0x810000 ≤ a → a < 0x820000 → a % 0x1000 ∉ [0x8D0, 0x8D8, 0xC10, 0xC18]) : ctrPf s f a = none := by
  unfold ctrPf
  rw [if_neg (by omega), if_neg (by omega)]
  split
  · next hr => exact ctrBrick_eq_none (hb hr.1 hr.2)
  · rw [if_neg (by omega), if_neg (by omega)]

theorem ctrVf_eq_none {a : Nat} (h k : Nat) (h0 : 0x28000 ≤ a)
    (hb : 0x90000 ≤ a → a < 0xA0000 → a % 0x1000 ∉ [0x8D0, 0x8D8, 0xC10, 0xC18]) : ctrVf s f h k a = none := by
  unfold ctrVf
  rw [if_neg (by omega), if_neg (by omega), if_neg (by omega)]
  split
  · next hr => exact ctrBrick_eq_none (hb hr.1 hr.2)
  · rfl

end Sys2Proof.Machine
end

section
/-! SUPPORT. Blocks by address: the hole of the Device Management Space, a brick's space, the device's registers. -/
namespace Sys2Proof.Machine

variable {s : State} {f : Fn}

/-- A read of what is no half of a counter. -/
theorem read32_plain {a : Nat} (h0 : ctrAt s f a = none) (h4 : 4 ≤ a → ctrAt s f (a - 4) = none) : read32 f a s = plainRead f a s := by
  unfold read32
  have h : (if 4 ≤ a then ctrAt s f (a - 4) else none) = none := by
    split
    · next ha => exact h4 ha
    · rfl
  simp only [h0, h]

/-- PF and Steward reach the Device Management Space by the same map. -/
theorem ctrAt_of_isPf (h : isPf f = true) (a : Nat) : ctrAt s f a = ctrPf s f a := by
  cases f with
  | vf h' k => cases h
  | pf _ => rfl
  | steward => rfl

theorem write32_of_isPf (h : isPf f = true) {a : Nat} (v : Word) (ha : a < 0x10000000) : write32 f a v s = wPf f a v s := by
  cases f with
  | vf h' k => cases h
  | pf _ => exact if_pos ha
  | steward => exact if_pos ha

theorem plainRead_of_isPf (h : isPf f = true) {a : Nat} (ha : a < 0x10000000) : plainRead f a s = rPf f a s := by
  cases f with
  | vf h' k => cases h
  | pf _ => exact if_pos ha
  | steward => exact if_pos ha

/-! ### Outside the BAR, and where no register lies (R564, R621) -/

/-- The size of a function's BAR (R559, R560). -/
def barSize (f : Fn) : Nat := if isPf f then 0x10000000 else 0x100000

theorem write32_outside {a : Nat} (v : Word) (hf : f ≠ .steward) (h : barSize f ≤ a) : write32 f a v s = unsupported f s := by
  cases f with
  | vf h' k => exact if_neg (by simpa [barSize, isPf] using h)
  | pf _ => exact if_neg (by simpa [barSize, isPf] using h)
  | steward => exact absurd rfl hf

theorem read32_outside {a : Nat} (hf : f ≠ .steward) (h : barSize f ≤ a) : read32 f a s = unsupported f s := by
  cases f with
  | vf h' k =>
    have ha : 0x100000 ≤ a := by simpa [barSize, isPf] using h
    have hc : ∀ b, 0xFFFFC ≤ b → ctrAt s (.vf h' k) b = none := fun b hb => ctrVf_eq_none (a := b) h' k (by omega) (by omega)
    rw [read32_plain (hc a (by omega)) (fun _ => hc _ (by omega))]
    exact if_neg (by omega)
  | pf h' =>
    have ha : 0x10000000 ≤ a := by simpa [barSize, isPf] using h
    have hc : ∀ b, 0xFFFFFFC ≤ b → ctrAt s (.pf h') b = none := fun b hb => ctrPf_eq_none (a := b) (by omega) (by omega)
    rw [read32_plain (hc a (by omega)) (fun _ => hc _ (by omega))]
    exact if_neg (by omega)
  | steward => exact absurd rfl hf

/-- Between the apertures and the HEDs' blocks no register lies. -/
theorem write32_hole {a : Nat} (v : Word) (hf : isPf f = true) (h : 0x820000 ≤ a) (h1 : a < 0x1000000) (hl : linkOk s f = true) :
    write32 f a v s = some { violate s none with resp := .violation } := by
  have hw : wPf f a v s = access s f .other false false true 12 s := by
    simp (disch := omega) only [wPf, if_neg, if_pos]
  rw [write32_of_isPf hf v (by omega), hw, access_violation hl, fnCtx_of_isPf hf]

theorem read32_hole {a : Nat} (hf : isPf f = true) (h : 0x820000 ≤ a) (h1 : a < 0x1000000) (h4 : a % 4 = 0) (hl : linkOk s f = true) :
    read32 f a s = some { violate s none with resp := .violation } := by
  have hc : ∀ b, b = a ∨ b = a - 4 → ctrAt s f b = none := by
    intro b hb
    rw [ctrAt_of_isPf hf]
    refine ctrPf_eq_none (by omega) (fun h2 h3 => ?_)
    rw [show b % 0x1000 = 0xFFC by omega]; decide
  have hr : rPf f a s = readW s f .other false true 12 none := by
    simp (disch := omega) only [rPf, if_neg, if_pos]
  rw [read32_plain (hc a (.inl rfl)) (fun _ => hc _ (.inr rfl)), plainRead_of_isPf hf (by omega), hr, readW, Bool.false_and,
    access_violation hl, fnCtx_of_isPf hf]

/-! ### A brick's space through an aperture (R73, R74, R76, R562) -/

/-- Where the space of aperture ap begins. -/
def apBase (f : Fn) (ap : Nat) : Nat := (if isPf f then 0x810000 else 0x90000) + 0x1000 * ap

theorem write32_brick {ap o : Nat} (v : Word) (hap : ap < 16) (ho : o < 0x1000) :
    write32 f (apBase f ap + o) v s = wBrick f ap o v s := by
  obtain ⟨a, ha⟩ : ∃ a, a = apBase f ap + o := ⟨_, rfl⟩
  rw [← ha]
  cases hf : isPf f with
  | true =>
    rw [apBase, hf, if_pos rfl] at ha
    rw [write32_of_isPf hf v (by omega)]
    simp (disch := omega) only [wPf, if_neg, if_pos, show (a - 0x810000) / 0x1000 = ap by omega, show a % 0x1000 = o by omega]
  | false =>
    rw [apBase, hf, if_neg Bool.false_ne_true] at ha
    cases f with
    | vf h k =>
      have hr : regs a 0x18F00 3 = false := by simp only [regs, decide_eq_false_iff_not]; omega
      simp (disch := omega) only [write32, wVf, if_neg, if_pos, hr, Bool.false_eq_true, if_false,
        show (a - 0x90000) / 0x1000 = ap by omega, show a % 0x1000 = o by omega]
    | pf _ => cases hf
    | steward => cases hf

/-- A read of what is no half of a counter of the brick. -/
theorem read32_brick {ap o : Nat} (hap : ap < 16) (ho : o < 0x1000) (h4 : o % 4 = 0)
    (hc : o ∉ [0x8D0, 0x8D4, 0x8D8, 0x8DC, 0xC10, 0xC14, 0xC18, 0xC1C]) : read32 f (apBase f ap + o) s = rBrick f ap o s := by
  simp only [List.mem_cons, List.not_mem_nil, or_false, not_or] at hc
  obtain ⟨a, ha⟩ : ∃ a, a = apBase f ap + o := ⟨_, rfl⟩
  rw [← ha]
  cases hf : isPf f with
  | true =>
    rw [apBase, hf, if_pos rfl] at ha
    have hn : ∀ b, b = a ∨ b = a - 4 → ctrAt s f b = none := by
      intro b hb
      rw [ctrAt_of_isPf hf]
      refine ctrPf_eq_none (by omega) (fun _ _ => ?_)
      simp only [List.mem_cons, List.not_mem_nil, or_false]; omega
    rw [read32_plain (hn a (.inl rfl)) (fun _ => hn _ (.inr rfl)), plainRead_of_isPf hf (by omega)]
    simp (disch := omega) only [rPf, if_neg, if_pos, show (a - 0x810000) / 0x1000 = ap by omega, show a % 0x1000 = o by omega]
  | false =>
    rw [apBase, hf, if_neg Bool.false_ne_true] at ha
    cases f with
    | vf h k =>
      have hn : ∀ b, b = a ∨ b = a - 4 → ctrAt s (.vf h k) b = none := by
        intro b hb
        refine ctrVf_eq_none (a := b) h k (by omega) (fun _ _ => ?_)
        simp only [List.mem_cons, List.not_mem_nil, or_false]; omega
      rw [read32_plain (hn a (.inl rfl)) (fun _ => hn _ (.inr rfl))]
      simp (disch := omega) only [plainRead, rVf, if_neg, if_pos, show (a - 0x90000) / 0x1000 = ap by omega, show a % 0x1000 = o by omega]
    | pf _ => cases hf
    | steward => cases hf

/-- An access through an aperture that reaches a brick does what it does there. -/
theorem viaAp_of {ap : Nat} {rd : Bool} {k : Nat} (c : CanReach s f ap rd k) (op : Nat → Brick → Option State) :
    viaAp s f ap rd op = op k (getB s k) := by
  obtain ⟨⟨hl, hb⟩, ht, hm⟩ := c
  simp only [viaAp, ht, hl, hb, Bool.true_and, bne_iff_ne.mpr hm, if_true]

/-- A write of a configuration register of a brick (R73). -/
theorem wBrick_cfg {ap k o : Nat} {v : Word} {fs : List RwField} (c : CanReach s f ap false k) (hfs : cfgFields o v = some fs)
    (h0 : 0x200 ≤ o) (h1 : o < 0x800) :
    wBrick f ap o v s = some (if (getB s k).st = .stopped then wrote (setB s k (setCfg (getB s k) o (wrFields (cfgW (getB s k) o) v fs)))
      else wrRefused s k (getB s k)) := by
  have hw : writeCfg (getB s k) o v = setCfg (getB s k) o (wrFields (cfgW (getB s k) o) v fs) := by rw [writeCfg, hfs]
  simp (disch := omega) only [wBrick, if_neg, hfs, Option.isSome_some, if_true, viaAp_of c, wrCfg, hw]

/-- A read of a brick's space that is served by its word alone. -/
theorem rBrick_word {ap k o : Nat} {w : Word} (c : CanReach s f ap true k) (ho : o < 0x800) (hw : brickW s k (getB s k) o = some w) :
    rBrick f ap o s = some { s with resp := .value w } := by
  have hr : regs o 0x840 16 = false := by simp only [regs, decide_eq_false_iff_not]; omega
  simp (disch := omega) only [rBrick, if_neg, hr, Bool.false_and, Bool.false_eq_true, if_false, viaAp_of c, hw]

theorem brickIs_setB (s : State) (r : Resp) (k : Nat) (b : Brick) : BrickIs s { setB s k b with resp := r } k b :=
  ⟨rfl, fun j => getB_setB s k j b⟩

end Sys2Proof.Machine
end

section
/-! SUPPORT. Single registers: a brick's, the device's, a board's, and the counter pairs. -/
namespace Sys2Proof.Machine

variable {s : State} {f : Fn}

/-! ### Words of a brick's space (R73, R74, R76) -/

/-- A configuration register's offset is a multiple of 4. -/
theorem cfgFields_aligned {o : Nat} {v : Word} (h : (cfgFields o v).isSome = true) : o % 4 = 0 := by
  by_cases h4 : o % 4 = 0
  · exact h4
  · rw [cfgFields, if_pos h4] at h
    cases h

theorem brickW_cfg (s : State) (k : Nat) (b : Brick) {o : Nat} (h0 : 0x200 ≤ o) (h : (cfgFields o 0).isSome = true) :
    brickW s k b o = some (cfgW b o) := by
  unfold brickW; dsimp only
  iterate 6 rw [if_neg (by omega)]
  rw [if_pos h]

theorem fld_idW (s : State) (k : Nat) : fld (idW s k) 21 11 = k % 1152 ∧ fld (idW s k) 0 10 = k / 1152 % 2 ^ 10
    ∧ ∀ x, logX s (k % 1152) (k / 1152) = some x → fld (idW s k) 10 11 = x % 2 ^ 11 := by
  refine ⟨?_, ?_, fun x hx => ?_⟩
  · rw [idW, fld_packW_here _ (by decide) rfl]; omega
  · rw [idW, fld_packW_next _ _ (by decide) (by decide), fld_packW_next _ _ (by decide) (by decide), fld_packW_here _ (by decide) rfl]
  · rw [idW, fld_packW_next _ _ (by decide) (by decide), fld_packW_here _ (by decide) rfl, placeOf, hx]; rfl

theorem fld_stateW (b : Brick) : bitAt (stateW b) 31 = b.wrIgnored ∧ fld (stateW b) 8 11 = b.pc % 2048
    ∧ fld (stateW b) 4 3 = b.rpt.length % 8 ∧ fld (stateW b) 0 3 = b.st.code % 8 := by
  refine ⟨bitAt_packW_here _ (by decide) rfl, ?_, ?_, ?_⟩
  · rw [stateW, fld_packW_next _ _ (by decide) (by decide), fld_packW_here _ (by decide) rfl]
    exact Nat.mod_mod _ _
  · change fld (stateW b) 4 3 = b.rpt.length % 2 ^ 3
    rw [stateW, fld_packW_next _ _ (by decide) (by decide), fld_packW_next _ _ (by decide) (by decide), fld_packW_here _ (by decide) rfl]
  · change fld (stateW b) 0 3 = b.st.code % 2 ^ 3
    rw [stateW, fld_packW_next _ _ (by decide) (by decide), fld_packW_next _ _ (by decide) (by decide),
      fld_packW_next _ _ (by decide) (by decide), fld_packW_here _ (by decide) rfl]

/-! ### Registers of the device -/

/-- A read of a register that lies there, permitted and served. -/
theorem readW_of {blk : Blk} (c : CanAccess s f blk true) (hp : isPf f = true) (target : Nat) (w : Word) :
    readW s f blk (isPf f) true target (some w) = some { s with resp := .value w } := by
  rw [readW, hp]; exact access_done c rfl

/-- Below the counters' addresses of the device no HI register lies at these. -/
theorem read32_device {a : Nat} (hp : isPf f = true) (ha : a ∈ [0x414, 0x200010, 0x400000]) : read32 f a s = rPf f a s := by
  have hc : ∀ b ∈ [0x414, 0x410, 0x200010, 0x20000C, 0x400000, 0x3FFFFC], ctrAt s f b = none := by
    intro b hb
    rw [ctrAt_of_isPf hp]
    simp only [List.mem_cons, List.not_mem_nil, or_false] at hb
    rcases hb with rfl | rfl | rfl | rfl | rfl | rfl <;> rfl
  simp only [List.mem_cons, List.not_mem_nil, or_false] at ha
  rcases ha with rfl | rfl | rfl <;>
    rw [read32_plain (hc _ (by decide)) (fun _ => hc _ (by decide)), plainRead_of_isPf hp (by decide)]

theorem read32_dev (hp : isPf f = true) (c : CanAccess s f .other true) : read32 f 0x400000 s = some { s with resp := .value s.flt.dev } := by
  rw [read32_device hp (by decide)]; exact readW_of c hp 12 _

/-- A write-only register reads as zero (R14). -/
theorem read32_target (hp : isPf f = true) (c : CanAccess s f .other true) : read32 f 0x200010 s = some { s with resp := .value 0 } := by
  rw [read32_device hp (by decide)]; exact readW_of c hp 12 _

theorem read32_gridSum (hp : isPf f = true) (c : CanAccess s f .ident true) : read32 f 0x414 s = some { s with resp := .value (gridSum s) } := by
  rw [read32_device hp (by decide)]; exact readW_of c hp 12 _

theorem fld_gridSum (s : State) : fld (gridSum s) 16 13 = s.segs.countP (fun p => p.2.pending) % 2 ^ 13
    ∧ fld (gridSum s) 0 13
      = (if s.mapsReady then s.segs.countP (fun p => exhausted (p.2.factory ||| p.2.journal ||| p.2.quar)) else 0) % 2 ^ 13 := by
  constructor
  · rw [gridSum, fld_packW_here _ (by decide) rfl, List.countP_eq_length_filter]
  · rw [gridSum, fld_packW_next _ _ (by decide) (by decide), fld_packW_here _ (by decide) rfl, ← List.countP_eq_length_filter]
    cases hm : s.mapsReady with
    | false => simp [segExhausted, hm]
    | true => simp [segExhausted, hm, segDefects]

/-- The sticky device bits are cleared by ones (R14). -/
theorem write32_dev (v : Word) (hp : isPf f = true) (c : CanAccess s f .other false) :
    write32 f 0x400000 v s = some (wrote { s with flt := { s.flt with dev := s.flt.dev &&& ~~~(v &&& 0xF8000000) } }) := by
  have hw : wFault f 0 v s = access s f .other false (isPf f && true) true 12 (wrote { s with flt := { s.flt with dev := w1cW v s.flt.dev 27 5 } }) := rfl
  have hm : w1cW v s.flt.dev 27 5 = s.flt.dev &&& ~~~(v &&& 0xF8000000) := by
    rw [w1cW, show setFld 0 27 5 (2 ^ 5 - 1) = 0xF8000000#32 by decide]; rfl
  rw [write32_of_isPf hp v (by decide), ← hm, ← access_done (target := 12) (r := wrote _) c rfl]
  rw [show wPf f 0x400000 v s = wFault f 0 v s from rfl, hw, hp, Bool.and_true]

/-- A register of one item is kept by a write exactly where the item's field is written as it stands (R473). -/
theorem itemKept_field_iff (cur v : Word) {lo len : Nat} (h : lo + len ≤ 32) :
    itemKept cur v [(lo, len, [])] = true ↔ fld v lo len = fld cur lo len := by
  have hm : fld v lo len % 2 ^ len = fld v lo len := Nat.mod_mod _ _
  rw [← hm, ← setFld_eq_self_iff cur _ h]
  simp [itemKept, wrFields]

theorem write32_wafer (h : Fin 4) (v : Word) (hp : isPf f = true) :
    write32 f (0x1000000 * (h.val + 1) + 0x130800) v s
      = access s f .other false (itemKept (BitVec.ofNat 32 s.wafer) v [(0, 15, [])]) true (12 + h) (unwrote s) := by
  obtain ⟨a, ha⟩ : ∃ a, a = 0x1000000 * (h.val + 1) + 0x130800 := ⟨_, rfl⟩
  have hh := h.isLt
  rw [← ha, write32_of_isPf hp v (by omega)]
  simp (disch := omega) only [wPf, if_neg, if_pos, show a / 0x1000000 - 1 = h.val by omega, show a % 0x1000000 = 0x130800 by omega]
  rw [show wHed f h 0x130800 v s = access s f .other false (isPf f && itemKept (BitVec.ofNat 32 s.wafer) v [(0, 15, [])]) true (12 + h)
    (unwrote s) from rfl, hp, Bool.true_and]

theorem write32_limit (b : Fin 16) (v : Word) (hp : isPf f = true) (c : CanAccess s f .other false) :
    write32 f (0x500018 + 0x10000 * b.val) v s
      = some (wrote (setBd s b { getBd s b with limitUs := if fld v 0 24 = 0 then (getBd s b).limitUs else fld v 0 24 })) := by
  obtain ⟨a, ha⟩ : ∃ a, a = 0x500018 + 0x10000 * b.val := ⟨_, rfl⟩
  have hb := b.isLt
  have hr : reaches f b = true := by
    cases f with
    | vf h k => cases hp
    | pf _ => rfl
    | steward => rfl
  rw [← ha, write32_of_isPf hp v (by omega), ← access_done (target := 12) (r := wrote _) c rfl]
  simp (disch := omega) only [wPf, if_neg, if_pos, show (a - 0x500000) / 0x10000 = b.val by omega, show a % 0x10000 = 0x18 by omega]
  rw [show wBrd f b 0x18 v s = access s f .other false (reaches f b && true) true 12
    (wrote (setBd s b { getBd s b with limitUs := if fld v 0 24 = 0 then (getBd s b).limitUs else fld v 0 24 })) from rfl, hr, Bool.and_true]

/-! ### Counter pairs (R312, R625) -/

/-- LO registers lie at multiples of 4. -/
theorem ctrBrd_aligned {b o a : Nat} {c : CtrRef} (h : ctrBrd s f b o a = some c) : o % 4 = 0 := by
  unfold ctrBrd at h; dsimp only at h
  split at h
  any_goals rfl
  cases h

theorem ctrChan_aligned {h c o a : Nat} {gw : Bool} {r : CtrRef} (hr : ctrChan s f h c gw o a = some r) : o % 4 = 0 := by
  unfold ctrChan at hr; dsimp only at hr
  split at hr
  any_goals rfl
  cases hr

theorem ctrPort_aligned {h o a : Nat} {r : CtrRef} (hr : ctrPort s f h o a = some r) : o % 4 = 0 := by
  unfold ctrPort at hr; dsimp only at hr
  split at hr
  · cases hr
  · split at hr
    · omega
    · omega
    · omega
    · cases hr

theorem ctrBrick_aligned {ap o : Nat} {r : CtrRef} (hr : ctrBrick s f ap o = some r) : o % 4 = 0 := by
  unfold ctrBrick at hr; dsimp only at hr
  split at hr
  any_goals rfl
  cases hr

theorem ctrDev_aligned {a : Nat} {r : CtrRef} (hr : ctrDev s f a = some r) : a % 4 = 0 := by
  unfold ctrDev at hr; dsimp only at hr
  split at hr
  · split at hr
    · omega
    · cases hr
  · split at hr
    any_goals rfl
    cases hr

theorem ctrPf_aligned {a : Nat} {r : CtrRef} (hr : ctrPf s f a = some r) : a % 4 = 0 := by
  unfold ctrPf at hr; dsimp only at hr
  split at hr
  · exact ctrDev_aligned hr
  · split at hr
    · have := ctrBrd_aligned hr; omega
    · split at hr
      · have := ctrBrick_aligned hr; omega
      · split at hr
        · split at hr
          · have := ctrChan_aligned hr; omega
          · split at hr
            · have := ctrChan_aligned hr; omega
            · split at hr
              · have := ctrPort_aligned hr; omega
              · cases hr
        · split at hr
          · omega
          · cases hr

theorem ctrVf_aligned {h k a : Nat} {r : CtrRef} (hr : ctrVf s f h k a = some r) : a % 4 = 0 := by
  unfold ctrVf at hr; dsimp only at hr
  split at hr
  · exact ctrBrd_aligned hr
  · split at hr
    · omega
    · split at hr
      · split at hr
        · have := ctrChan_aligned hr; omega
        · split at hr
          · have := ctrChan_aligned hr; omega
          · cases hr
      · split at hr
        · have := ctrBrick_aligned hr; omega
        · cases hr

theorem ctrAt_aligned {a : Nat} {r : CtrRef} (hr : ctrAt s f a = some r) : a % 4 = 0 := by
  cases f with
  | vf h k => exact ctrVf_aligned hr
  | pf _ => exact ctrPf_aligned hr
  | steward => exact ctrPf_aligned hr

/-- A read of a counter touched the accessor's shadow of this counter alone, and the open values it took: the shadow is now v. -/
def Shadowed (s u : State) (i : Nat) (c : CtrRef) (v : Nat) : Prop :=
  { u with resp := s.resp, fns := s.fns, freeCtr := s.freeCtr } = s
    ∧ (c.free = 0 → u.freeCtr = s.freeCtr) ∧ (∀ j, j ≠ i → getFn u j = getFn s j)
    ∧ { getFn u i with shadows := (getFn s i).shadows } = getFn s i
    ∧ ∀ k, sget 0 (getFn u i).shadows k = if k = c.key then v else sget 0 (getFn s i).shadows k

/-- Function i's shadow at `key` becomes v, n open values are taken, and the answer is r. -/
def putShadow (s : State) (i key v n : Nat) (r : Resp) : State :=
  { modFn s i (fun e => { e with shadows := sset 0 e.shadows key v }) with resp := r, freeCtr := s.freeCtr + n }

theorem ctrLo_eq (s : State) (f : Fn) (c : CtrRef) : ctrLo s f c
    = access s f c.blk true c.ok c.served c.target (putShadow s (fnIx f) c.key (c.hi.toNat + 1) c.free (.value c.lo)) := rfl

theorem ctrHi_eq (s : State) (f : Fn) (c : CtrRef) : ctrHi s f c
    = access s f c.blk true c.ok c.served c.target
        (putShadow s (fnIx f) c.key 0 (if sget 0 (getFn s (fnIx f)).shadows c.key = 0 then c.free else 0)
          (.value (if sget 0 (getFn s (fnIx f)).shadows c.key = 0 then c.hi
            else BitVec.ofNat 32 (sget 0 (getFn s (fnIx f)).shadows c.key - 1)))) := rfl

theorem getFn_putShadow (s : State) (i key v n : Nat) (r : Resp) (j : Nat) : getFn (putShadow s i key v n r) j
    = if j = i then { getFn s i with shadows := sset 0 (getFn s i).shadows key v } else getFn s j := getFn_setFn s i j _

theorem shadowed_putShadow (s : State) (i : Nat) (c : CtrRef) (v n : Nat) (r : Resp) (hn : c.free = 0 → n = 0) :
    Shadowed s (putShadow s i c.key v n r) i c v := by
  refine ⟨rfl, fun h => by rw [hn h]; rfl, fun j hj => ?_, ?_, fun k => ?_⟩
  · rw [getFn_putShadow, if_neg hj]
  · rw [getFn_putShadow, if_pos rfl]
  · rw [getFn_putShadow, if_pos rfl]; exact sget_sset 0 _ _ _ _

/-- A read of LO, which holds HI for the accessor. -/
theorem read32_lo {a : Nat} {c : CtrRef} (hc : ctrAt s f a = some c) (hl : linkOk s f = true) (hok : c.ok = true)
    (hb : blkServed s f c.blk true = true) (hs : c.served = true) :
    ∃ u, read32 f a s = some u ∧ u.resp = .value c.lo ∧ Shadowed s u (fnIx f) c (c.hi.toNat + 1) := by
  refine ⟨_, ?_, rfl, shadowed_putShadow s (fnIx f) c _ c.free _ id⟩
  simp only [read32, hc, ctrLo_eq, hok]
  exact access_done ⟨hl, hb⟩ hs

/-- A read of HI, which returns what is held for the accessor, once, or HI as it stands. -/
theorem read32_hi {a : Nat} {c : CtrRef} (hc : ctrAt s f a = some c) (hn : ctrAt s f (a + 4) = none) (hl : linkOk s f = true)
    (hok : c.ok = true) (hb : blkServed s f c.blk true = true) (hs : c.served = true) :
    ∃ u, read32 f (a + 4) s = some u ∧ Shadowed s u (fnIx f) c 0
      ∧ u.resp = .value (if sget 0 (getFn s (fnIx f)).shadows c.key = 0 then c.hi
          else BitVec.ofNat 32 (sget 0 (getFn s (fnIx f)).shadows c.key - 1)) := by
  simp only [read32, hn, show 4 ≤ a + 4 by omega, if_true, Nat.add_sub_cancel, hc, ctrHi_eq, hok]
  exact ⟨_, access_done ⟨hl, hb⟩ hs, shadowed_putShadow s (fnIx f) c 0 _ _ (fun h => by rw [h, ite_self]), rfl⟩

/-- A counter of a peripheral that is not served is a bus error. -/
theorem read32_lo_busError {a : Nat} {c : CtrRef} (hc : ctrAt s f a = some c) (hl : linkOk s f = true) (hok : c.ok = true)
    (hs : c.served = false) (hf : f ≠ .steward) :
    ∃ u, read32 f a s = some u ∧ u.resp = .busError ∧ { u with resp := s.resp, fns := s.fns } = s := by
  refine ⟨busError s f c.target, ?_, ?_⟩
  · simp only [read32, hc, ctrLo, hok]
    exact access_busError hl (by rw [hs, Bool.and_false])
  · cases f with
    | vf h k => exact ⟨rfl, rfl⟩
    | pf _ => exact ⟨rfl, rfl⟩
    | steward => exact absurd rfl hf

/-- TIME_NOW is the timestamp's two words (R324). -/
theorem ctrAt_timeNow (hp : isPf f = true) : ∃ c, ctrAt s f 0x300000 = some c ∧ c.lo = lo64 s.now ∧ c.hi = hi64 s.now := by
  rw [ctrAt_of_isPf hp]
  exact ⟨_, rfl, rfl, rfl⟩

end Sys2Proof.Machine
end

section
/-! SUPPORT. Register accesses: each clause of RegisterAccesses from the block it speaks of. -/
namespace Sys2Proof.Machine

variable {s : State} {f : Fn}

/-- One-word commands whose access answers u. -/
theorem exec_write_next {a : Nat} {v : Word} {u : State} (h4 : a % 4 = 0) (h : write32 f a v s = some u) :
    exec (.registerWrite f a false (v.setWidth 64) false) s = .next u := by rw [exec_write32 v h4, h]; rfl

theorem exec_read_next {a : Nat} {u : State} (h4 : a % 4 = 0) (h : read32 f a s = some u) :
    exec (.counterLoRead f a false) s = .next u := by rw [exec_read32 h4, h]; rfl

/-! ### The clauses -/

/-- An access that is not aligned (R13). -/
theorem exec_write_misaligned {a : Nat} (wide : Bool) (v : BitVec 64) (h : a % 4 ≠ 0) (hl : linkOk s f = true) :
    exec (.registerWrite f a wide v false) s = .next { s with resp := .ignored } := by
  rw [exec_registerWrite, if_neg Bool.false_ne_true, regWrite_misaligned wide v h, if_pos hl]; rfl

theorem waits_misaligned {a : Nat} (wide : Bool) (v : BitVec 64) (h : a % 4 ≠ 0) (hl : linkOk s f = false) :
    Waits (.registerWrite f a wide v false) s ∧ Waits (.counterLoRead f a wide) s := by
  constructor
  · rw [Waits, exec_registerWrite, if_neg Bool.false_ne_true, regWrite_misaligned wide v h, hl]; rfl
  · rw [Waits, exec_counterLoRead, regRead_misaligned wide h, hl]; rfl

theorem exec_read_misaligned {a : Nat} (wide : Bool) (h : a % 4 ≠ 0) (hl : linkOk s f = true) :
    exec (.counterLoRead f a wide) s = .next { s with resp := if wide then .value64 0 else .value 0 } := by
  rw [exec_counterLoRead, regRead_misaligned wide h, if_pos hl]; rfl

/-- A poisoned write (R565). -/
theorem waits_poisoned (a : Nat) (wide : Bool) (v : BitVec 64) (h : f = .steward ∨ linkOk s f = false) :
    Waits (.registerWrite f a wide v true) s := by
  rw [Waits, exec_registerWrite, if_pos rfl, poisoned_held h]; rfl

theorem exec_poisoned (a : Nat) (wide : Bool) (v : BitVec 64) (hf : f ≠ .steward) (hl : linkOk s f = true) :
    ∃ u, exec (.registerWrite f a wide v true) s = .next u ∧ u.resp = .ignored ∧ { u with resp := s.resp, fns := s.fns } = s
      ∧ sget 0 (getFn u (fnIx f)).aer 2 = sget 0 (getFn s (fnIx f)).aer 2 + 1 := by
  obtain ⟨u, hu, h⟩ := poisoned_of hf hl
  exact ⟨u, by rw [exec_registerWrite, if_pos rfl, hu]; rfl, h⟩

/-- Outside the BAR (R564). -/
theorem exec_outside {a : Nat} (v : Word) (h4 : a % 4 = 0) (hf : f ≠ .steward) (hl : linkOk s f = true) (ha : barSize f ≤ a) :
    ∀ i ∈ [Instr.registerWrite f a false (v.setWidth 64) false, .counterLoRead f a false], ∃ u, exec i s = .next u
      ∧ u.resp = .unsupported ∧ { u with resp := s.resp, fns := s.fns } = s
      ∧ sget 0 (getFn u (fnIx f)).aer 1 = sget 0 (getFn s (fnIx f)).aer 1 + 1 := by
  obtain ⟨u, hu, h⟩ := unsupported_of hf hl
  simp only [List.forall_mem_cons, List.not_mem_nil, false_implies, implies_true, and_true]
  exact ⟨⟨u, exec_write_next h4 ((write32_outside v hf ha).trans hu), h⟩, ⟨u, exec_read_next h4 ((read32_outside hf ha).trans hu), h⟩⟩

/-- Where no register lies (R621). -/
theorem exec_hole {a : Nat} (v : Word) (h4 : a % 4 = 0) (hf : isPf f = true) (h0 : 0x820000 ≤ a) (h1 : a < 0x1000000) (hl : linkOk s f = true) :
    ∀ c ∈ [Instr.registerWrite f a false (v.setWidth 64) false, .counterLoRead f a false], ∃ u, exec c s = .next u
      ∧ u.resp = .violation ∧ { u with resp := s.resp, flt := s.flt } = s ∧ { u.flt with viol := s.flt.viol } = s.flt
      ∧ ∀ i, sget 0 u.flt.viol i = if i = 16 then evAdd (sget 0 s.flt.viol i) 1 else sget 0 s.flt.viol i := by
  have h := violate_device s
  simp only [List.forall_mem_cons, List.not_mem_nil, false_implies, implies_true, and_true]
  exact ⟨⟨_, exec_write_next h4 (write32_hole v hf h0 h1 hl), rfl, rfl, h⟩, ⟨_, exec_read_next h4 (read32_hole hf h0 h1 h4 hl), rfl, rfl, h⟩⟩

theorem apBase_aligned (f : Fn) (ap : Nat) {o : Nat} (h : o % 4 = 0) : (apBase f ap + o) % 4 = 0 := by
  unfold apBase; split <;> omega

/-- A configuration register of a brick written (R73). -/
theorem exec_write_cfg {ap : Fin 16} {k o : Nat} {v : Word} {fs : List RwField} (c : CanReach s f ap false k)
    (hfs : cfgFields o v = some fs) (h0 : 0x200 ≤ o) (h1 : o < 0x800) :
    ((getB s k).st = .stopped → ∃ u b', exec (.registerWrite f (apBase f ap + o) false (v.setWidth 64) false) s = .next u ∧ u.resp = .done
      ∧ BrickIs s u k b' ∧ (∀ i, cfgW b' i = if i = o then wrFields (cfgW (getB s k) o) v fs else cfgW (getB s k) i)
      ∧ { b' with cfg := (getB s k).cfg } = getB s k)
    ∧ ((getB s k).st ≠ .stopped → ∃ u, exec (.registerWrite f (apBase f ap + o) false (v.setWidth 64) false) s = .next u
      ∧ u.resp = .ignored ∧ BrickIs s u k { getB s k with wrIgnored := true }) := by
  have h4 := apBase_aligned f ap (cfgFields_aligned (show (cfgFields o v).isSome = true by rw [hfs]; rfl))
  have hw := (write32_brick (f := f) (s := s) v ap.isLt (show o < 0x1000 by omega)).trans (wBrick_cfg c hfs h0 h1)
  constructor
  · intro hst
    rw [if_pos hst] at hw
    exact ⟨_, _, exec_write_next h4 hw, rfl, brickIs_setB s .done k _, fun i => sget_sset 0 _ _ _ _, rfl⟩
  · intro hst
    rw [if_neg hst] at hw
    exact ⟨_, exec_write_next h4 hw, rfl, brickIs_setB s .ignored k _⟩

/-- A read of a brick's space that is served by its word alone. -/
theorem exec_read_brick {ap : Fin 16} {k o : Nat} {w : Word} (c : CanReach s f ap true k) (ho : o < 0x800) (h4 : o % 4 = 0)
    (hw : brickW s k (getB s k) o = some w) : exec (.counterLoRead f (apBase f ap + o) false) s = .next { s with resp := .value w } := by
  refine exec_read_next (apBase_aligned f ap h4) ?_
  rw [read32_brick ap.isLt (by omega) h4 (by simp only [List.mem_cons, List.not_mem_nil, or_false]; omega)]
  exact rBrick_word c ho hw

/-- The wafer ID cannot be changed (R473). -/
theorem exec_write_wafer (h : Fin 4) (v : Word) (hp : isPf f = true) (c : CanAccess s f .other false) (hw : s.wafer < 2 ^ 15) :
    (fld v 0 15 = s.wafer →
      exec (.registerWrite f (0x1000000 * (h.val + 1) + 0x130800) false (v.setWidth 64) false) s = .next { s with resp := .ignored })
    ∧ (fld v 0 15 ≠ s.wafer →
      ∃ u, exec (.registerWrite f (0x1000000 * (h.val + 1) + 0x130800) false (v.setWidth 64) false) s = .next u
        ∧ u.resp = .violation ∧ { u with resp := s.resp, flt := s.flt } = s) := by
  have h4 : (0x1000000 * (h.val + 1) + 0x130800) % 4 = 0 := by omega
  have hf : fld (BitVec.ofNat 32 s.wafer) 0 15 = s.wafer := by
    rw [fld, BitVec.toNat_ofNat, Nat.shiftRight_zero]; omega
  have hk := itemKept_field_iff (BitVec.ofNat 32 s.wafer) v (show 0 + 15 ≤ 32 by decide)
  rw [hf] at hk
  constructor
  · intro he
    refine exec_write_next h4 ?_
    rw [write32_wafer h v hp, hk.mpr he]
    exact access_done c rfl
  · intro he
    refine ⟨{ violate s (fnCtx f) with resp := .violation }, exec_write_next h4 ?_, rfl, rfl⟩
    rw [write32_wafer h v hp, Bool.eq_false_iff.mpr (fun e => he (hk.mp e))]
    exact access_violation c.1

/-- Settles O57: each clause by the lemma on the block it speaks of. -/
theorem registerAccesses : Obligations.RegisterAccesses := by
  refine ⟨fun s f => ⟨?_, ?_, ?_, ?_, ?_, ?_, ?_, ?_, ?_, ?_, ?_, ?_⟩,
    fun s f a c hc hl hok => ⟨fun hb hs => ⟨?_, fun hn => ?_⟩, fun hs hf => ?_, fun ha hp => ?_⟩⟩
  · exact fun a wide v h hl => exec_write_misaligned wide v h hl
  · exact fun a wide v h hl => waits_misaligned wide v h hl
  · exact fun a h hl => ⟨exec_read_misaligned false h hl, exec_read_misaligned true h hl⟩
  · exact fun a wide v => ⟨waits_poisoned a wide v, exec_poisoned a wide v⟩
  · exact fun a lo hi s1 s2 h4 h1 hlo h2 hhi => read_wide h4 h1 hlo h2 hhi
  · exact fun a v s1 s2 h4 h1 hn1 h2 hn2 => write_wide h4 h1 hn1 h2 hn2
  · exact fun a v h4 hf hl ha => exec_outside v h4 hf hl ha
  · exact fun a v h4 hf h0 h1 hl => exec_hole v h4 hf h0 h1 hl
  · exact fun ap k o v fs c hfs h0 h1 => exec_write_cfg c hfs h0 h1
  · refine fun ap k c => ⟨fun o h0 h1 h => exec_read_brick c h1 (cfgFields_aligned h) (brickW_cfg s k _ h0 h), ?_, ?_⟩
    · exact ⟨idW s k, exec_read_brick (o := 0) c (by decide) rfl rfl, fld_idW s k⟩
    · exact ⟨stateW (getB s k), exec_read_brick (o := 8) c (by decide) rfl rfl, fld_stateW _⟩
  · refine fun hp c => ⟨exec_read_next rfl (read32_dev hp c), exec_read_next rfl (read32_target hp c), fun hb => ?_⟩
    exact ⟨gridSum s, exec_read_next rfl (read32_gridSum hp ⟨c.1, hb⟩), fld_gridSum s⟩
  · refine fun hp c => ⟨fun v => exec_write_next rfl (write32_dev v hp c), fun h v hw => exec_write_wafer h v hp c hw, fun b v => ?_⟩
    refine ⟨_, exec_write_next (by omega) (write32_limit b v hp c), rfl, rfl, fun n hn => ?_, ?_⟩
    · exact (getBd_setBd s b n _).trans (if_neg hn)
    · exact (getBd_setBd s b b _).trans (if_pos rfl)
  · obtain ⟨u, hu, h⟩ := read32_lo hc hl hok hb hs
    exact ⟨u, exec_read_next (ctrAt_aligned hc) hu, h⟩
  · have h4 := ctrAt_aligned hc
    obtain ⟨u, hu, h⟩ := read32_hi hc hn hl hok hb hs
    exact ⟨u, exec_read_next (by omega) hu, h⟩
  · obtain ⟨u, hu, h⟩ := read32_lo_busError hc hl hok hs hf
    exact ⟨u, exec_read_next (ctrAt_aligned hc) hu, h⟩
  · subst ha
    obtain ⟨c', hc', h⟩ := ctrAt_timeNow (s := s) hp
    obtain rfl := Option.some.inj (hc'.symm.trans hc)
    exact h

end Sys2Proof.Machine
end

section
/-! SUPPORT. Fields of a register written by field, observation registers, and the words of a segment's map. -/
namespace Sys2Proof.Machine

/-! ### Fields of a register written (R14, R16) -/

theorem fld_setFld_same (w : Word) {lo len : Nat} (v : Nat) (h : lo + len ≤ 32) : fld (setFld w lo len v) lo len = v % 2 ^ len := by
  apply Nat.eq_of_testBit_eq
  intro i
  rw [testBit_fld, Nat.testBit_mod_two_pow]
  by_cases hi : i < len
  · rw [bitAt_setFld w lo len v (by omega), if_pos (by omega), Nat.add_sub_cancel_left]
  · simp [hi]

theorem fld_setFld_apart (w : Word) {l n lo len : Nat} (v : Nat) (hw : lo + len ≤ 32) (h : l + n ≤ lo ∨ lo + len ≤ l) :
    fld (setFld w l n v) lo len = fld w lo len := by
  apply Nat.eq_of_testBit_eq
  intro i
  rw [testBit_fld, testBit_fld]
  by_cases hi : i < len
  · rw [bitAt_setFld w l n v (by omega), if_neg (by omega)]
  · simp [hi]

theorem fld_lt {n : Nat} (w : BitVec n) (lo len : Nat) : fld w lo len < 2 ^ len := Nat.mod_lt _ (Nat.two_pow_pos len)

theorem wrFields_cons (w v : Word) (lo len : Nat) (res : List Nat) (r : List RwField) : wrFields w v ((lo, len, res) :: r)
    = wrFields (if res.contains (fld v lo len) then w else setFld w lo len (fld v lo len)) v r := rfl

/-- Bits that no field of the register holds stay. -/
theorem fld_wrFields_apart (w v : Word) {lo len : Nat} {fs : List RwField} (hw : lo + len ≤ 32)
    (h : ∀ p ∈ fs, p.1 + p.2.1 ≤ lo ∨ lo + len ≤ p.1) : fld (wrFields w v fs) lo len = fld w lo len := by
  induction fs generalizing w with
  | nil => rfl
  | cons p r ih =>
    obtain ⟨l, n, res⟩ := p
    rw [wrFields_cons, ih _ (fun q hq => h q (List.mem_cons_of_mem _ hq))]
    split
    · rfl
    · exact fld_setFld_apart w _ hw (h _ List.mem_cons_self)

/-- A field whose code is not reserved takes the value written. -/
theorem fld_wrFields_here (w v : Word) {lo len : Nat} {res : List Nat} {r : List RwField} (hw : lo + len ≤ 32)
    (hres : fld v lo len ∉ res) (h : ∀ p ∈ r, p.1 + p.2.1 ≤ lo ∨ lo + len ≤ p.1) :
    fld (wrFields w v ((lo, len, res) :: r)) lo len = fld v lo len := by
  rw [wrFields_cons, if_neg (by simpa using hres), fld_wrFields_apart _ v hw h, fld_setFld_same w _ hw]
  exact Nat.mod_eq_of_lt (fld_lt v lo len)

/-! ### Several words put at once -/

/-- The words ps put in their order. -/
def sputs (m : SMap Word) (ps : List (Nat × Word)) : SMap Word := ps.foldl (fun m p => sset 0 m p.1 p.2) m

theorem sputs_cons (m : SMap Word) (p : Nat × Word) (r : List (Nat × Word)) : sputs m (p :: r) = sputs (sset 0 m p.1 p.2) r := rfl

theorem sget_sputs_of_not_mem (m : SMap Word) {ps : List (Nat × Word)} {o : Nat} (h : o ∉ ps.map Prod.fst) :
    sget 0 (sputs m ps) o = sget 0 m o := by
  induction ps generalizing m with
  | nil => rfl
  | cons p r ih =>
    rw [List.map_cons, List.mem_cons, not_or] at h
    rw [sputs_cons, ih _ h.2, sget_sset, if_neg h.1]

theorem sget_sputs_of_mem (m : SMap Word) {ps : List (Nat × Word)} {o : Nat} {w : Word} (hn : (ps.map Prod.fst).Nodup)
    (h : (o, w) ∈ ps) : sget 0 (sputs m ps) o = w := by
  induction ps generalizing m with
  | nil => cases h
  | cons p r ih =>
    rw [List.map_cons, List.nodup_cons] at hn
    rw [sputs_cons]
    cases h with
    | head => rw [sget_sputs_of_not_mem _ hn.1, sget_sset, if_pos rfl]
    | tail _ hr => exact ih _ hn.2 hr

/-- A brick with these observation registers written. -/
def putObs (b : Brick) (ps : List (Nat × Word)) : Brick := { b with obs := sputs b.obs ps }

theorem obsW_putObs_of_mem (b : Brick) {ps : List (Nat × Word)} {o : Nat} {w : Word} (hn : (ps.map Prod.fst).Nodup)
    (h : (o, w) ∈ ps) : obsW (putObs b ps) o = w := sget_sputs_of_mem b.obs hn h

theorem obsW_putObs_of_not_mem (b : Brick) {ps : List (Nat × Word)} {o : Nat} (h : o ∉ ps.map Prod.fst) :
    obsW (putObs b ps) o = obsW b o := sget_sputs_of_not_mem b.obs h

theorem foldl_setObs (b : Brick) (ps : List (Nat × Word)) : ps.foldl (fun b p => setObs b p.1 p.2) b = putObs b ps := by
  induction ps generalizing b with
  | nil => rfl
  | cons p r ih => exact ih (setObs b p.1 p.2)

/-! ### The words of a segment (R51, R52) -/

/-- A bit of a number packed of one-bit fields. -/
theorem testBit_packNat_bits (g : Nat → Bool) (l : List Nat) (i : Nat) :
    (packNat (l.map fun j => (j, 1, b2n (g j)))).testBit i = (decide (i ∈ l) && g i) := by
  induction l with
  | nil => simp [packNat]
  | cons j r ih =>
    rw [List.map_cons, testBit_packNat_cons, ih]
    by_cases hij : i = j
    · subst hij
      cases hg : g i <;> simp [b2n]
    · have hout : ¬ (j ≤ i ∧ i - j < 1) := by omega
      by_cases hle : j ≤ i
      · simp [hij, show ¬ i - j < 1 from fun h => hout ⟨hle, h⟩]
      · simp [hij, hle]

theorem popBelow_eq_countP (d : BitVec 96) (n : Nat) : popBelow d n = (List.range n).countP (fun i => d.getLsbD i) := by
  induction n with
  | zero => rfl
  | succ n ih =>
    rw [popBelow, ih, List.range_succ, List.countP_append, List.countP_singleton]
    rfl

theorem popBelow_le (d : BitVec 96) (n : Nat) : popBelow d n ≤ n := by
  rw [popBelow_eq_countP]
  exact Nat.le_trans List.countP_le_length (Nat.le_of_eq List.length_range)

/-- Word n of the map: bit j for position 32n + j. -/
def gridMapW (s : State) (g : Seg) (n : Nat) : Word :=
  packW ((List.range 32).map (fun j => (j, 1, b2n (s.mapsReady && posUsed g.mapDef (32 * n + j)))))

theorem bitAt_gridMapW (s : State) (g : Seg) (p : Nat) :
    bitAt (gridMapW s g (p / 32)) (p % 32) = (s.mapsReady && posUsed g.mapDef p) := by
  have hp : p % 32 < 32 := Nat.mod_lt _ (by decide)
  rw [gridMapW, bitAt_packW _ hp, testBit_packNat_bits (fun j => s.mapsReady && posUsed g.mapDef (32 * (p / 32) + j)), Nat.div_add_mod]
  simp [hp]

theorem gridWords_nodup (s : State) (g : Seg) : ((gridWords s g).map Prod.fst).Nodup := by
  change [0x404, 0x408, 0x40C, 0x410].Nodup
  decide

theorem gridMapW_mem_gridWords (s : State) (g : Seg) {n : Nat} (h : n < 3) : (0x404 + 4 * n, gridMapW s g n) ∈ gridWords s g :=
  match n, h with
  | 0, _ => .head _
  | 1, _ => .tail _ (.head _)
  | 2, _ => .tail _ (.tail _ (.head _))

/-- IDENT_GRID_ROW: the segment's defects are counted, and PENDING shows. -/
theorem gridRow_mem_gridWords (s : State) (g : Seg) : ∃ w, (0x410, w) ∈ gridWords s g ∧ bitAt w 31 = g.pending
    ∧ fld w 8 7 = if s.mapsReady then (List.range 96).countP (fun i => (segDefects g).getLsbD i) else 0 := by
  refine ⟨_, .tail _ (.tail _ (.tail _ (.head _))), bitAt_packW_here _ (by decide) rfl, ?_⟩
  have hle := popBelow_le (segDefects g) 96
  rw [fld_packW_next _ _ (by decide) (by decide), fld_packW_next _ _ (by decide) (by decide),
    fld_packW_next _ _ (by decide) (by decide), fld_packW_here _ (by decide) rfl, ← popBelow_eq_countP]
  split <;> omega

end Sys2Proof.Machine
end

section
/-! SUPPORT. The ports of a brick's memories, its captures, and the segment select: each clause of BrickMemoryPorts. -/
namespace Sys2Proof.Machine

variable {s : State} {f : Fn} {ap : Fin 16} {k : Nat}

/-- A command that writes brick k alone and answers r. -/
theorem gives_of {i : Instr} {r : Resp} {b : Brick} (h : exec i s = .next { setB s k b with resp := r }) :
    ∃ u, exec i s = .next u ∧ u.resp = r ∧ BrickIs s u k b := ⟨_, h, rfl, brickIs_setB s r k b⟩

/-- A command through an aperture that reaches brick k. -/
theorem exec_viaAp {i : Instr} {rd : Bool} {op : Nat → Brick → Option State} {u : State} (c : CanReach s f ap rd k)
    (he : exec i s = reply s (viaAp s f ap rd op)) (ho : op k (getB s k) = some u) : exec i s = .next u := by
  rw [he, viaAp_of c, ho, reply_some]

/-! ### Program memory (R81) -/

theorem ofNat_low (w : DWord) : BitVec.ofNat 32 w.toNat = w.extractLsb' 0 32 := by
  apply BitVec.eq_of_toNat_eq; simp [BitVec.extractLsb'_toNat]

theorem ofNat_high (w : DWord) : BitVec.ofNat 32 (w.toNat / 2 ^ 32) = w.extractLsb' 32 32 := by
  apply BitVec.eq_of_toNat_eq; simp [BitVec.extractLsb'_toNat, Nat.shiftRight_eq_div_pow]

/-- A word of program memory that is readable. -/
theorem pmemLoRead_of {b : Brick} (h : sget 0 b.pmemEcc b.pmemAddr ≠ 2) : pmemLoRead s k b
    = { setB s k { b with pmemHiShadow := (sget 0 b.pmem b.pmemAddr).extractLsb' 32 32 }
        with resp := .value ((sget 0 b.pmem b.pmemAddr).extractLsb' 0 32) } := by
  rw [← ofNat_low, ← ofNat_high, pmemLoRead, pmemRead, if_neg h]

/-- A word of program memory that is uncorrectable: an open value in both halves. -/
theorem pmemLoRead_bad {b : Brick} (h : sget 0 b.pmemEcc b.pmemAddr = 2) : ∃ w v, pmemLoRead s k b
    = { setB { s with freeCtr := s.freeCtr + 2 } k { b with pmemHiShadow := v } with resp := .value w } := by
  rw [pmemLoRead, pmemRead, if_pos h]
  exact ⟨_, _, rfl⟩

/-- The brick after a write of BRK_PMEM_HI in state STOPPED: the word put with fresh check bits, the address moved on. -/
def pmemPut (w : Word) (b : Brick) : Brick :=
  { b with
    pmem := sset 0 b.pmem b.pmemAddr (w ++ b.pmemLoHold)
    pmemEcc := sset 0 b.pmemEcc b.pmemAddr 0
    pmemAddr := (b.pmemAddr + 1) % 2048 }

theorem pmemHiWrite_stopped {b : Brick} (w : Word) (h : b.st = .stopped) :
    pmemHiWrite w s k b = { setB s k (pmemPut w b) with resp := .done } := by
  rw [pmemPut, ← ofNat_halves, pmemHiWrite, if_pos h]

/-! ### The repeat stack (R141) -/

/-- POS, LEFT and IDX of the level that BRK_RPT_POS_Ln reads. -/
def rptWords (b : Brick) (n : Nat) : Word × Word × Word :=
  match b.rpt.reverse[n]? with
  | some l => (packW [(16, 11, l.first), (0, 11, l.last)], BitVec.ofNat 32 l.left, BitVec.ofNat 32 l.idx)
  | none => (0, 0, 0)

theorem rptWords_some {b : Brick} {n : Nat} {l : RptLevel} (h : b.rpt.reverse[n]? = some l) : rptWords b n
    = (packW [(16, 11, l.first), (0, 11, l.last)], BitVec.ofNat 32 l.left, BitVec.ofNat 32 l.idx) := by rw [rptWords, h]

theorem rptWords_above {b : Brick} {n : Nat} (h : b.rpt.length ≤ n) : rptWords b n = (0, 0, 0) := by
  rw [rptWords, List.getElem?_eq_none (by rwa [List.length_reverse])]

theorem rptPosRead_eq (n : Nat) (s : State) (k : Nat) (b : Brick) : rptPosRead n s k b
    = { setB s k (putObs b [(0x844 + 0x10 * n, (rptWords b n).2.1), (0x848 + 0x10 * n, (rptWords b n).2.2)])
        with resp := .value (rptWords b n).1 } := rfl

theorem fld_rptPos (l : RptLevel) : fld (packW [(16, 11, l.first), (0, 11, l.last)]) 16 11 = l.first % 2 ^ 11
    ∧ fld (packW [(16, 11, l.first), (0, 11, l.last)]) 0 11 = l.last % 2 ^ 11 :=
  ⟨fld_packW_here _ (by decide) rfl, by rw [fld_packW_next _ _ (by decide) (by decide), fld_packW_here _ (by decide) rfl]⟩

/-- A read of BRK_RPT_POS_Ln answers the level's POS and leaves its LEFT and IDX at their registers. -/
theorem reads_rptPos (c : CanReach s f ap true k) (n : Fin 4) : ∃ u, exec (.brkRptPosRead f ap n) s = .next u
    ∧ u.resp = .value (rptWords (getB s k) n).1 ∧ { u with resp := s.resp, bricks := s.bricks } = s
    ∧ (∀ j, j ≠ k → getB u j = getB s j) ∧ { getB u k with obs := (getB s k).obs } = getB s k
    ∧ (∀ o, o ≠ 0x844 + 0x10 * n.val → o ≠ 0x848 + 0x10 * n.val → obsW (getB u k) o = obsW (getB s k) o)
    ∧ obsW (getB u k) (0x844 + 0x10 * n) = (rptWords (getB s k) n).2.1
    ∧ obsW (getB u k) (0x848 + 0x10 * n) = (rptWords (getB s k) n).2.2 := by
  obtain ⟨u, hu, hr, hs, hb⟩ := gives_of (i := .brkRptPosRead f ap n)
    (exec_viaAp (op := fun k b => some (rptPosRead n s k b)) c rfl (congrArg some (rptPosRead_eq n s k (getB s k))))
  have hk := (hb k).trans (if_pos rfl)
  have hn : (([(0x844 + 0x10 * n.val, (rptWords (getB s k) n).2.1), (0x848 + 0x10 * n.val, (rptWords (getB s k) n).2.2)] :
      List (Nat × Word)).map Prod.fst).Nodup := by simp
  refine ⟨u, hu, hr, hs, fun j hj => (hb j).trans (if_neg hj), by rw [hk]; rfl, fun o h1 h2 => ?_, ?_, ?_⟩ <;> rw [hk]
  · exact obsW_putObs_of_not_mem _ (by simp [h1, h2])
  · exact obsW_putObs_of_mem _ hn (.head _)
  · exact obsW_putObs_of_mem _ hn (.tail _ (.head _))

/-! ### Data SRAM (R82, R650) -/

theorem sramRead_keeps (b : Brick) (a n : Nat) : { (sramRead b a n).1 with cnt := b.cnt } = b := by
  rw [sramRead]; dsimp only; split <;> rfl

/-- The brick after a read of BRK_SRAM_DATA: its bank is taken in this tcyc, and WORD moves on. -/
def sramReadB (v : Brick) : Brick :=
  { (sramRead (mark v (4 + bankOf v.sramAddr)) v.sramAddr 4).1 with sramAddr := sramNext v.sramAddr }

theorem sramReadB_keeps (v : Brick) : { sramReadB v with used := v.used, sramAddr := v.sramAddr, cnt := v.cnt } = v :=
  congrArg (fun z : Brick => { z with used := v.used, sramAddr := v.sramAddr })
    (sramRead_keeps (mark v (4 + bankOf v.sramAddr)) v.sramAddr 4)

theorem sramReadB_sram (v : Brick) : (sramReadB v).sram = v.sram := by
  have h := congrArg Brick.sram (sramReadB_keeps v)
  exact h

theorem sramDataRead_ok {t : Nat} {b v : Brick} (hb : brickAt b t = some v) (hf : bankForReg s k v (bankOf v.sramAddr) t = true)
    (hh : (sramHealth v v.sramAddr 4).2 = none) :
    sramDataRead s t k b = some { setB s k (sramReadB v) with resp := .value (BitVec.ofNat 32 (readLE v.sram v.sramAddr 4)) } := by
  have hm : (sramRead (mark v (4 + bankOf v.sramAddr)) v.sramAddr 4).2.2 = none := hh
  simp only [sramDataRead, hb, hf, hm, Bool.not_true, Bool.false_eq_true, if_false]
  rfl

theorem sramDataRead_bad {t : Nat} {b v : Brick} (hb : brickAt b t = some v) (hf : bankForReg s k v (bankOf v.sramAddr) t = true)
    (hh : (sramHealth v v.sramAddr 4).2 ≠ none) : sramDataRead s t k b
      = some { setB s k (sramReadB v) with resp := .value (Config.freeWord s.freeCtr), freeCtr := s.freeCtr + 1 } := by
  obtain ⟨w, hw⟩ := Option.ne_none_iff_exists'.mp hh
  have hm : (sramRead (mark v (4 + bankOf v.sramAddr)) v.sramAddr 4).2.2 = some w := hw
  simp only [sramDataRead, hb, hf, hm, Bool.not_true, Bool.false_eq_true, if_false]
  rfl

/-- A write of fewer than 8 bytes is made where the word it merges into is readable. -/
theorem sramWrite_readable {b : Brick} {a : Nat} {l : List Byte} (hl : l.length < 8) (h : (sramHealth b a l.length).2 = none) :
    (sramWrite b a l).2 = none := by
  simp only [sramWrite, if_neg (Nat.not_le.mpr hl), h]

/-- The brick after a write of BRK_SRAM_DATA. -/
def sramWriteB (w : Word) (v : Brick) : Brick :=
  { (sramWrite (mark v (4 + bankOf v.sramAddr)) v.sramAddr (bytesLE 4 w.toNat)).1 with sramAddr := sramNext v.sramAddr }

/-- What a write of BRK_SRAM_DATA leaves of the brick. -/
theorem sramWriteB_keeps (w : Word) (v : Brick) :
    { sramWriteB w v with cnt := v.cnt, sram := v.sram, sramEcc := v.sramEcc, used := v.used, sramAddr := v.sramAddr } = v :=
  congrArg (fun z : Brick => { z with used := v.used, sramAddr := v.sramAddr })
    (memKeeps_sramWrite (mark v (4 + bankOf v.sramAddr)) v.sramAddr (bytesLE 4 w.toNat))

theorem sramWrite_word {v : Brick} (w : Word) (hh : (sramHealth v v.sramAddr 4).2 = none) :
    (sramWrite (mark v (4 + bankOf v.sramAddr)) v.sramAddr (bytesLE 4 w.toNat)).2 = none :=
  sramWrite_readable (by rw [bytesLE_length]; decide) (by rw [bytesLE_length]; exact hh)

theorem sramWriteB_byte {v : Brick} (w : Word) (hh : (sramHealth v v.sramAddr 4).2 = none) (a : Nat) : sget 0 (sramWriteB w v).sram a
    = if v.sramAddr ≤ a ∧ a < v.sramAddr + 4 then w.extractLsb' (8 * (a - v.sramAddr)) 8 else sget 0 v.sram a := by
  refine (sramWrite_byte (sramWrite_word w hh) a).trans ?_
  rw [bytesLE_length]
  split
  · next h =>
    rw [bytesLE_getD _ (by omega)]
    apply BitVec.eq_of_toNat_eq
    rw [BitVec.toNat_ofNat, BitVec.extractLsb'_toNat, Nat.shiftRight_eq_div_pow]
  · rfl

theorem sramDataWrite_ok {t : Nat} {b v : Brick} (w : Word) (hst : b.st = .stopped) (hb : brickAt b t = some v)
    (hf : bankForReg s k v (bankOf v.sramAddr) t = true) (hh : (sramHealth v v.sramAddr 4).2 = none) :
    sramDataWrite w s t k b = some { setB s k (sramWriteB w v) with resp := .done } := by
  have hw : sramWrite (mark v (4 + bankOf v.sramAddr)) v.sramAddr (bytesLE 4 w.toNat) = (_, none) := Prod.ext rfl (sramWrite_word w hh)
  simp only [sramDataWrite, hst, hb, hf, ne_eq, not_true, Bool.not_true, Bool.false_eq_true, if_false]
  rw [hw]
  rfl

/-! ### Selects (R206, R207, R220, R252-R255, R348, R454) -/

/-- A select through an aperture that reaches brick k writes the observation registers ps alone, whatever the brick's state. -/
theorem selects_of {i : Instr} {op : Nat → Brick → Brick} {ps : List (Nat × Word)} {P : Brick → Prop} (c : CanReach s f ap false k)
    (he : exec i s = reply s (selVia s f ap op)) (ho : op k (getB s k) = putObs (getB s k) ps) (hP : P (op k (getB s k))) :
    ∃ u b', exec i s = .next u ∧ u.resp = .done ∧ BrickIs s u k b' ∧ { b' with obs := (getB s k).obs } = getB s k
      ∧ (∀ o, o ∉ ps.map Prod.fst → obsW b' o = obsW (getB s k) o) ∧ P b' := by
  obtain ⟨u, hu, hr, hb⟩ := gives_of (exec_viaAp c he (congrArg (fun b => some { setB s k b with resp := Resp.done }) ho))
  exact ⟨u, _, hu, hr, hb, rfl, fun o h => obsW_putObs_of_not_mem _ h, ho ▸ hP⟩

/-- What a write of v leaves in BRK_RT_SEL. -/
def rtSelW (b : Brick) (v : Word) : Word := wrFields (obsW b 0x8C0) v [(5, 3, [5, 6, 7]), (0, 5, [])]

theorem fld_rtSelW (b : Brick) {v : Word} (h : fld v 5 3 < 5) :
    fld (rtSelW b v) 5 3 = fld v 5 3 ∧ fld (rtSelW b v) 0 5 = fld v 0 5 := by
  constructor
  · refine fld_wrFields_here _ v (by decide) ?_ (by decide)
    simp only [List.mem_cons, List.not_mem_nil, or_false]; omega
  · rw [rtSelW, wrFields_cons]
    exact fld_wrFields_here _ v (by decide) List.not_mem_nil (by decide)

/-- The words that a write of v to BRK_RT_SEL puts. -/
def rtSelWords (v : Word) (s : State) (k : Nat) (b : Brick) : List (Nat × Word) :=
  let ix := 32 * fld v 5 3 + fld v 0 5
  [(0x8C0, rtSelW b v), (0x8C4, rtLive s (placeOf s k).1 (placeOf s k).2 b ix), (0x8CC, rtTwx b ix)]

theorem rtSel_eq (s : State) (k : Nat) (b : Brick) {v : Word} (h : fld v 5 3 < 5) : rtSel v s k b = putObs b (rtSelWords v s k b) := by
  obtain ⟨h1, h0⟩ := fld_rtSelW b h
  rw [rtSelWords, ← h1, ← h0]
  rfl

theorem fld_rtLive (s : State) (x y : Nat) (b : Brick) (ix : Nat) : fld (rtLive s x y b ix) 27 5 = sget 0 b.cred (2 * ix) % 32
    ∧ fld (rtLive s x y b ix) 20 2 = ((fifoOf b ix).filter (fun q => decide (q.due ≤ b.useT))).length % 4
    ∧ fld (rtLive s x y b ix) 0 16 = sget 0 b.fseq ix % 2 ^ 16 := by
  refine ⟨fld_packW_here _ (by decide) rfl, ?_, ?_⟩
  · rw [rtLive, fld_packW_next _ _ (by decide) (by decide), fld_packW_next _ _ (by decide) (by decide)]
    exact fld_packW_here _ (by decide) rfl
  · rw [rtLive]
    iterate 6 rw [fld_packW_next _ _ (by decide) (by decide)]
    exact fld_packW_here _ (by decide) rfl

/-- The translation that BRK_RT_TWX shows of slot j of input i (R220). -/
theorem rtTwx_slot (b : Brick) (i : Nat) {j : Nat} (hj : j < 32) : rtTwx b (32 * i + j)
    = if bitAt (rtEntry b i j) 30 = true then (if sget 0 b.twx (32 * i + j) = 0 then 0x80000000 else sget 0 b.twx (32 * i + j)) else 0 := by
  rw [rtTwx, show (32 * i + j) / 32 = i by omega, show (32 * i + j) % 32 = j by omega]
  cases bitAt (rtEntry b i j) 30 <;> rfl

theorem fld_stLive (b : Brick) (k : Nat) : fld (stLive b k) 23 5 = (getCtx b k).pc % 32
    ∧ fld (stLive b k) 20 3 = (getCtx b k).loops.length % 8 ∧ fld (stLive b k) 0 16 = (getCtx b k).addr % 2 ^ 16 := by
  refine ⟨?_, ?_, ?_⟩
  · rw [stLive, fld_packW_next _ _ (by decide) (by decide)]
    exact fld_packW_here _ (by decide) rfl
  · rw [stLive, fld_packW_next _ _ (by decide) (by decide), fld_packW_next _ _ (by decide) (by decide)]
    exact fld_packW_here _ (by decide) rfl
  · rw [stLive]
    iterate 3 rw [fld_packW_next _ _ (by decide) (by decide)]
    exact fld_packW_here _ (by decide) rfl

/-- A select whose one field is what the write gave. -/
theorem fld_packW_fld (v : Word) {len : Nat} (h : len ≤ 32) : fld (packW [(0, len, fld v 0 len)]) 0 len = fld v 0 len := by
  rw [fld_packW_here _ (by omega) rfl, Nat.mod_eq_of_lt (fld_lt v 0 len)]

/-- What BRK_RT_SEL captures of the slot it names (R206, R207, R220). -/
theorem rtSel_captures (s : State) (k : Nat) (b : Brick) {v : Word} (h : fld v 5 3 < 5) :
    let b' := rtSel v s k b
    let ix := 32 * fld v 5 3 + fld v 0 5
    obsW b' 0x8C0 = rtSelW b v ∧ obsW b' 0x8C4 = rtLive s (placeOf s k).1 (placeOf s k).2 b ix ∧ obsW b' 0x8CC = rtTwx b ix := by
  have hn : ((rtSelWords v s k b).map Prod.fst).Nodup := show [0x8C0, 0x8C4, 0x8CC].Nodup by decide
  rw [rtSel_eq s k b h]
  exact ⟨obsW_putObs_of_mem b hn (.head _), obsW_putObs_of_mem b hn (.tail _ (.head _)),
    obsW_putObs_of_mem b hn (.tail _ (.tail _ (.head _)))⟩

/-- The words that a write of v to BRK_ST_SEL puts. -/
def stSelWords (v : Word) (b : Brick) : List (Nat × Word) :=
  let k := fld v 0 2
  let c := getCtx b k
  let n := sget 0 b.cnt (cElem k)
  [(0x890, packW [(0, 2, k)]), (0x894, stLive b k), (0x898, packW [(16, 16, loopIdx c 1), (0, 16, loopIdx c 0)]),
    (0x89C, packW [(16, 16, loopIdx c 3), (0, 16, loopIdx c 2)]), (0x8A0, evLo n), (0x8A4, evHi n)]

theorem stSel_eq (v : Word) (b : Brick) : stSel v b = putObs b (stSelWords v b) := by
  rw [← foldl_setObs]; rfl

/-- What BRK_ST_SEL captures of the context it names (R252-R255). -/
theorem stSel_captures (v : Word) (b : Brick) :
    let b' := stSel v b
    let n := sget 0 b.cnt (0x110 + fld v 0 2)
    obsW b' 0x890 = packW [(0, 2, fld v 0 2)] ∧ obsW b' 0x894 = stLive b (fld v 0 2) ∧ obsW b' 0x8A0 = evLo n ∧ obsW b' 0x8A4 = evHi n := by
  have hn : ((stSelWords v b).map Prod.fst).Nodup := show [0x890, 0x894, 0x898, 0x89C, 0x8A0, 0x8A4].Nodup by decide
  rw [stSel_eq]
  exact ⟨obsW_putObs_of_mem b hn (.head _), obsW_putObs_of_mem b hn (.tail _ (.head _)),
    obsW_putObs_of_mem b hn (.tail _ (.tail _ (.tail _ (.tail _ (.head _))))),
    obsW_putObs_of_mem b hn (.tail _ (.tail _ (.tail _ (.tail _ (.tail _ (.head _))))))⟩

/-- The words that a write of v to BRK_EQ_SEL puts. -/
def eqSelWords (v : Word) (b : Brick) : List (Nat × Word) := [(0x8F0, packW [(0, 2, fld v 0 2)]), (0x8F4, eqLive b (fld v 0 2))]

theorem eqSel_eq (v : Word) (b : Brick) : eqSel v b = putObs b (eqSelWords v b) := by
  rw [← foldl_setObs]; rfl

theorem eqSel_captures (v : Word) (b : Brick) :
    obsW (eqSel v b) 0x8F0 = packW [(0, 2, fld v 0 2)] ∧ obsW (eqSel v b) 0x8F4 = eqLive b (fld v 0 2) := by
  have hn : ((eqSelWords v b).map Prod.fst).Nodup := show [0x8F0, 0x8F4].Nodup by decide
  rw [eqSel_eq]
  exact ⟨obsW_putObs_of_mem b hn (.head _), obsW_putObs_of_mem b hn (.tail _ (.head _))⟩

/-- The count that BRK_CC_SEL captures at index i: zero at a reserved one (R454). -/
def ccCount (b : Brick) (i : Nat) : Nat := if ccIndex i then sget 0 b.cnt i else 0

/-- The words that a write of v to BRK_CC_SEL puts. -/
def ccSelWords (v : Word) (b : Brick) : List (Nat × Word) :=
  let n := ccCount b (fld v 0 8)
  [(0x100, packW [(0, 8, fld v 0 8)]), (0x104, evLo n), (0x108, evHi n)]

theorem ccSel_eq (v : Word) (b : Brick) : ccSel v b = putObs b (ccSelWords v b) := by
  rw [← foldl_setObs]; rfl

theorem ccSel_captures (v : Word) (b : Brick) :
    let b' := ccSel v b
    let n := ccCount b (fld v 0 8)
    obsW b' 0x100 = packW [(0, 8, fld v 0 8)] ∧ obsW b' 0x104 = evLo n ∧ obsW b' 0x108 = evHi n := by
  have hn : ((ccSelWords v b).map Prod.fst).Nodup := show [0x100, 0x104, 0x108].Nodup by decide
  rw [ccSel_eq]
  exact ⟨obsW_putObs_of_mem b hn (.head _), obsW_putObs_of_mem b hn (.tail _ (.head _)),
    obsW_putObs_of_mem b hn (.tail _ (.tail _ (.head _)))⟩

/-! ### The segment select (R50-R52, R54) -/

/-- What a write of v leaves in IDENT_GRID_SEL. -/
def gridSelW (s : State) (v : Word) : Word :=
  wrFields s.gridSel v [(11, 4, [12, 13, 14, 15]), (8, 3, [7]), (0, 7, (List.range 48).map (· + 80))]

theorem fld_gridSelW (s : State) {v : Word} (h2 : fld v 11 4 < 12) (h1 : fld v 8 3 < 7) (h0 : fld v 0 7 < 80) :
    fld (gridSelW s v) 11 4 = fld v 11 4 ∧ fld (gridSelW s v) 8 3 = fld v 8 3 ∧ fld (gridSelW s v) 0 7 = fld v 0 7 := by
  refine ⟨?_, ?_, ?_⟩
  · refine fld_wrFields_here _ v (by decide) ?_ (by decide)
    simp only [List.mem_cons, List.not_mem_nil, or_false]; omega
  · rw [gridSelW, wrFields_cons]
    refine fld_wrFields_here _ v (by decide) ?_ (by decide)
    simp only [List.mem_cons, List.not_mem_nil, or_false]; omega
  · rw [gridSelW, wrFields_cons, wrFields_cons]
    refine fld_wrFields_here _ v (by decide) ?_ (by decide)
    simp only [List.mem_map, List.mem_range, not_exists, not_and]; omega

/-- A permitted select puts the words of the segment it names. -/
theorem exec_gridSel {v : Word} (c : CanAccess s f .ident false) (hp : isPf f = true) (h2 : fld v 11 4 < 12) (h1 : fld v 8 3 < 7)
    (h0 : fld v 0 7 < 80) : exec (.identGridSel f v) s = .next { s with
      gridSel := gridSelW s v, resp := .done
      grid := sputs s.grid (gridWords s (getSeg s (fld v 11 4) (80 * fld v 8 3 + fld v 0 7))) } := by
  obtain ⟨e2, e1, e0⟩ := fld_gridSelW s h2 h1 h0
  have he : exec (.identGridSel f v) s = reply s (access s f .ident false (isPf f) true 12 (gridSel v s)) := rfl
  rw [he, access_pf c hp, reply_some, ← e2, ← e1, ← e0]
  rfl

theorem selects_grid {v : Word} (c : CanAccess s f .ident false) (hp : isPf f = true) (h2 : fld v 11 4 < 12) (h1 : fld v 8 3 < 7)
    (h0 : fld v 0 7 < 80) {g : Seg} (hg : getSeg s (fld v 11 4) (80 * fld v 8 3 + fld v 0 7) = g) :
    ∃ u, exec (.identGridSel f v) s = .next u ∧ u.resp = .done ∧ { u with resp := s.resp, gridSel := s.gridSel, grid := s.grid } = s
      ∧ fld u.gridSel 11 4 = fld v 11 4 ∧ fld u.gridSel 8 3 = fld v 8 3 ∧ fld u.gridSel 0 7 = fld v 0 7
      ∧ (∀ p < 96, bitAt (sget 0 u.grid (0x404 + 4 * (p / 32))) (p % 32) = (s.mapsReady && posUsed g.mapDef p))
      ∧ fld (sget 0 u.grid 0x410) 8 7 = (if s.mapsReady then (List.range 96).countP (fun i => (segDefects g).getLsbD i) else 0)
      ∧ bitAt (sget 0 u.grid 0x410) 31 = g.pending := by
  obtain ⟨e2, e1, e0⟩ := fld_gridSelW s h2 h1 h0
  obtain ⟨w, hw, hpend, hcount⟩ := gridRow_mem_gridWords s g
  have hrow := sget_sputs_of_mem s.grid (gridWords_nodup s g) hw
  have he := exec_gridSel c hp h2 h1 h0
  rw [hg] at he
  refine ⟨_, he, rfl, rfl, e2, e1, e0, fun p hlt => ?_, by rwa [hrow], by rwa [hrow]⟩
  rw [sget_sputs_of_mem s.grid (gridWords_nodup s g) (gridMapW_mem_gridWords s g (by omega))]
  exact bitAt_gridMapW s g p

/-! ### The commands -/

/-- A write of a memory register in any state but STOPPED (R73). -/
theorem ignored_of {i : Instr} {op : Nat → Brick → Option State} (c : CanReach s f ap false k)
    (he : exec i s = reply s (viaAp s f ap false op)) (ho : op k (getB s k) = some (wrRefused s k (getB s k))) :
    ∃ u, exec i s = .next u ∧ u.resp = .ignored ∧ BrickIs s u k { getB s k with wrIgnored := true } :=
  gives_of (exec_viaAp c he ho)

theorem reads_pmemLo_bad (c : CanReach s f ap true k) (h : sget 0 (getB s k).pmemEcc (getB s k).pmemAddr = 2) :
    ∃ u w v, exec (.brkPmemLoRead f ap) s = .next u ∧ u.resp = .value w
      ∧ { u with resp := s.resp, bricks := s.bricks, freeCtr := s.freeCtr } = s ∧ getB u k = { getB s k with pmemHiShadow := v } := by
  obtain ⟨w, v, hw⟩ := pmemLoRead_bad (s := s) (k := k) h
  refine ⟨_, w, v, exec_viaAp c rfl (congrArg some hw), rfl, rfl, ?_⟩
  exact (getB_setB s k k _).trans (if_pos rfl)

theorem gives_sramRead (c : CanReach s f ap true k) {t : Nat} {v : Brick} (hb : brickAt (getB s k) t = some v)
    (hf : bankForReg s k v (bankOf v.sramAddr) t = true) (hh : (sramHealth v v.sramAddr 4).2 = none) :
    ∃ w b', (∃ u, exec (.brkSramDataRead f ap t) s = .next u ∧ u.resp = .value w ∧ BrickIs s u k b')
      ∧ w.toNat = readLE v.sram v.sramAddr 4 ∧ { b' with used := v.used, sramAddr := v.sramAddr, cnt := v.cnt } = v
      ∧ b'.sramAddr = sramNext v.sramAddr := by
  refine ⟨_, _, gives_of (exec_viaAp c rfl (sramDataRead_ok hb hf hh)), ?_, sramReadB_keeps v, rfl⟩
  rw [BitVec.toNat_ofNat, Nat.mod_eq_of_lt (readLE_lt v.sram v.sramAddr 4)]

theorem reads_sram_bad (c : CanReach s f ap true k) {t : Nat} {v : Brick} (hb : brickAt (getB s k) t = some v)
    (hf : bankForReg s k v (bankOf v.sramAddr) t = true) (hh : (sramHealth v v.sramAddr 4).2 ≠ none) :
    ∃ u w, exec (.brkSramDataRead f ap t) s = .next u ∧ u.resp = .value w
      ∧ { u with resp := s.resp, bricks := s.bricks, freeCtr := s.freeCtr } = s
      ∧ (getB u k).sramAddr = sramNext v.sramAddr ∧ (getB u k).sram = v.sram := by
  refine ⟨_, _, exec_viaAp c rfl (sramDataRead_bad hb hf hh), rfl, rfl, ?_⟩
  have hk : getB (setB s k (sramReadB v)) k = sramReadB v := (getB_setB s k k _).trans (if_pos rfl)
  exact ⟨congrArg Brick.sramAddr hk, (congrArg Brick.sram hk).trans (sramReadB_sram v)⟩

theorem gives_sramWrite (c : CanReach s f ap false k) (w : Word) {t : Nat} {v : Brick} (hst : (getB s k).st = .stopped)
    (hb : brickAt (getB s k) t = some v) (hf : bankForReg s k v (bankOf v.sramAddr) t = true)
    (hh : (sramHealth v v.sramAddr 4).2 = none) :
    ∃ b', (∃ u, exec (.brkSramDataWrite f ap t w) s = .next u ∧ u.resp = .done ∧ BrickIs s u k b')
      ∧ b'.sramAddr = sramNext v.sramAddr
      ∧ (∀ a, sget 0 b'.sram a
        = if v.sramAddr ≤ a ∧ a < v.sramAddr + 4 then w.extractLsb' (8 * (a - v.sramAddr)) 8 else sget 0 v.sram a)
      ∧ b'.pmem = v.pmem ∧ b'.g = v.g ∧ b'.p = v.p ∧ b'.st = v.st := by
  have hk := sramWriteB_keeps w v
  have hpmem := congrArg Brick.pmem hk
  have hg := congrArg Brick.g hk
  have hp := congrArg Brick.p hk
  have hst' := congrArg Brick.st hk
  exact ⟨_, gives_of (exec_viaAp c rfl (sramDataWrite_ok w hst hb hf hh)), rfl, sramWriteB_byte w hh, hpmem, hg, hp, hst'⟩

/-- Settles O56: the memory ports by the words they move, the selects by the words they capture. -/
theorem brickMemoryPorts : Obligations.BrickMemoryPorts := by
  refine ⟨fun s f ap k => ⟨fun c => ⟨?_, ?_, ?_, ?_, ?_⟩, fun c w => ⟨?_, ?_, ?_, ?_⟩⟩, fun s f ap k v c => ⟨?_, ?_, ?_, ?_⟩, ?_⟩
  · exact fun h => gives_of (exec_viaAp c rfl (congrArg some (pmemLoRead_of h)))
  · exact fun h => reads_pmemLo_bad c h
  · exact gives_of (exec_viaAp c rfl rfl)
  · intro n
    obtain ⟨u, hu, hr, hs, hj, hk, ho, hleft, hidx⟩ := reads_rptPos c n
    refine ⟨u, _, hu, hr, hs, hj, hk, ho, fun l hl => ?_, fun h => ?_⟩
    · rw [rptWords_some hl] at hleft hidx ⊢
      exact ⟨(fld_rptPos l).1, (fld_rptPos l).2, hleft, hidx⟩
    · rw [rptWords_above h] at hleft hidx ⊢
      exact ⟨rfl, hleft, hidx⟩
  · exact fun t v hb hf => ⟨gives_sramRead c hb hf, reads_sram_bad c hb hf⟩
  · exact fun h => ⟨ignored_of c rfl (congrArg some (if_neg h)), ignored_of c rfl (congrArg some (if_neg h)),
      fun t => ignored_of c rfl (if_pos h)⟩
  · exact fun h => gives_of (exec_viaAp c rfl (congrArg some (if_pos h)))
  · exact fun h => ⟨pmemPut w (getB s k), gives_of (exec_viaAp c rfl (congrArg some (pmemHiWrite_stopped w h))), rfl, rfl,
      fun a => sget_sset 0 (getB s k).pmem _ a _, fun a => sget_sset 0 (getB s k).pmemEcc _ a 0⟩
  · exact fun t v hst hb hf hh => gives_sramWrite c w hst hb hf hh
  · intro h
    refine selects_of c rfl (rtSel_eq s k _ h) ?_
    obtain ⟨hsel, hlive, htwx⟩ := rtSel_captures s k (getB s k) h
    obtain ⟨h1, h0⟩ := fld_rtSelW (getB s k) h
    obtain ⟨hcred, hlen, hseq⟩ := fld_rtLive s (placeOf s k).1 (placeOf s k).2 (getB s k) (32 * fld v 5 3 + fld v 0 5)
    rw [rtTwx_slot (getB s k) (fld v 5 3) (fld_lt v 0 5)] at htwx
    rw [hsel, hlive, htwx]
    exact ⟨h1, h0, hcred, hlen, hseq, fun h => by rw [if_neg (by simp [h])], fun h => if_pos h⟩
  · refine selects_of (op := fun _ b => stSel v b) c rfl (stSel_eq v _) ?_
    obtain ⟨hsel, hlive, hlo, hhi⟩ := stSel_captures v (getB s k)
    obtain ⟨hpc, hloops, haddr⟩ := fld_stLive (getB s k) (fld v 0 2)
    rw [hsel, hlive]
    exact ⟨fld_packW_fld v (by decide), hpc, hloops, haddr, hlo, hhi⟩
  · refine selects_of (op := fun _ b => eqSel v b) c rfl (eqSel_eq v _) ?_
    obtain ⟨hsel, hlive⟩ := eqSel_captures v (getB s k)
    rw [hsel]
    exact ⟨fld_packW_fld v (by decide), hlive⟩
  · refine selects_of (op := fun _ b => ccSel v b) c rfl (ccSel_eq v _) ?_
    obtain ⟨hsel, hlo, hhi⟩ := ccSel_captures v (getB s k)
    rw [hsel, hlo, hhi]
    refine ⟨fld_packW_fld v (by decide), fun h => ?_, fun h => ?_⟩
    · rw [ccCount, if_pos h]; exact ⟨rfl, rfl⟩
    · rw [ccCount, h, if_neg Bool.false_ne_true]; exact ⟨by decide, by decide⟩
  · exact fun s f v c hp h2 h1 h0 => selects_grid c hp h2 h1 h0 rfl

end Sys2Proof.Machine
end

section
/-! SUPPORT. EQ_TAKE: what the pop and the write leave of the brick, and the write and the queue's next state in each case of R330 and R335. -/
namespace Sys2Proof.Machine

variable {s : State} {x : Fin 1104} {y : Fin 560} {t k : Nat} {b : Brick} {p q : Nat} {f : Flit} {rest : List Flit}

/-! ### The pop (R59, R62, R329) -/

theorem takePort_lt (h : takePort b t = some p) : p < 8 := by
  unfold takePort at h
  split at h
  · cases h
  · obtain ⟨i, -, hi⟩ := List.mem_map.mp (List.mem_of_find?_eq_some h)
    exact hi ▸ Nat.mod_lt _ (by decide)

theorem nf_setNF (b : Brick) (m : Bool) {n : Nat} (hp : p < 8) (hn : n < 8) :
    (setNF b p m).nf.getLsbD n = if n = p then m else b.nf.getLsbD n := by
  have hbit : (1#8 <<< p).getLsbD n = decide (n = p) := by
    rw [BitVec.getLsbD_shiftLeft, BitVec.getLsbD_one, Bool.eq_iff_iff]
    simp only [Bool.and_eq_true, Bool.not_eq_true', decide_eq_true_eq, decide_eq_false_iff_not]
    omega
  simp only [setNF, apply_ite (BitVec.getLsbD · n), BitVec.getLsbD_or, BitVec.getLsbD_and, BitVec.getLsbD_not, hbit, hn, decide_true]
  by_cases h : n = p <;> cases m <;> simp [h]

/-- The brick whose port p has given up its head entry f in tcyc t: the take is marked, and the port after p is next in turn. -/
def takePop (on : Bool) (b : Brick) (p t : Nat) : Brick := { mark (popRaw on b p t).1 9 with eqPtr := (p + 1) % 8 }

theorem popRaw_cons (on : Bool) (hf : portQ b p = f :: rest) :
    (popRaw on b p t).1 = setNF (bumpC on (freePort (setPort b p rest) p t) (8 + p) 1) p f.null := by
  rw [popRaw, hf]

theorem takePop_eq (on : Bool) (hf : portQ b p = f :: rest) : ∃ c, takePop on b p t
    = { setNF (freePort (setPort b p rest) p t) p f.null with eqPtr := (p + 1) % 8, used := 9 :: b.used, cnt := c } := by
  rw [takePop, popRaw_cons on hf]
  cases on <;> exact ⟨_, rfl⟩

/-- What the pop writes: its port, the credit, NF of the port, the turn. -/
theorem takePop_fields (on : Bool) (hf : portQ b p = f :: rest) : (takePop on b p t).sram = b.sram ∧ (takePop on b p t).sramEcc = b.sramEcc
    ∧ (takePop on b p t).eq = b.eq ∧ (takePop on b p t).ports = sset [] b.ports p rest ∧ (takePop on b p t).eqPtr = (p + 1) % 8
    ∧ (takePop on b p t).credFly = b.credFly ++ [⟨t + 1, 160 + p⟩] ∧ (takePop on b p t).nf = (setNF b p f.null).nf := by
  obtain ⟨c, hc⟩ := takePop_eq (t := t) on hf
  rw [hc]
  exact ⟨rfl, rfl, rfl, rfl, rfl, rfl, rfl⟩

/-- The pop changes nothing else but counts and marks. -/
theorem takePop_keeps (on : Bool) (hf : portQ b p = f :: rest) : { takePop on b p t with
    sram := b.sram, sramEcc := b.sramEcc, eq := b.eq, ports := b.ports, credFly := b.credFly, eqPtr := b.eqPtr, cnt := b.cnt,
    used := b.used, nf := b.nf } = b := by
  obtain ⟨c, hc⟩ := takePop_eq (t := t) on hf
  rw [hc]
  rfl

/-! ### The write (R64, R330, R335, R650) -/

/-- The word that the taking of entry f leaves, with its address, if it writes. -/
def takeWrite (b : Brick) (q p : Nat) (f : Flit) : Option (Nat × Word) := (takeAddr b q p f).map (fun a => (a, takeWord b q a f))

/-- The brick after the write of a word, its bank taken in this tcyc. -/
def putWord (b : Brick) : Option (Nat × Word) → Brick
  | none => b
  | some (a, v) => (sramWrite (mark b (4 + bankOf a)) a (bytesLE 4 v.toNat)).1

theorem sramWrite_marked_word {a : Nat} (v : Word) (h : (sramHealth b a 4).2 = none) :
    (sramWrite (mark b (4 + bankOf a)) a (bytesLE 4 v.toNat)).2 = none :=
  sramWrite_readable (by rw [bytesLE_length]; decide) (by rw [bytesLE_length]; exact h)

theorem putWord_byte {a : Nat} (v : Word) (h : (sramHealth b a 4).2 = none) (j : Nat) : sget 0 (putWord b (some (a, v))).sram j
    = if a ≤ j ∧ j < a + 4 then BitVec.ofNat 8 (v.toNat / 256 ^ (j - a)) else sget 0 b.sram j := by
  rw [putWord, sramWrite_byte (sramWrite_marked_word v h) j, bytesLE_length]
  split
  · rw [bytesLE_getD _ (by omega), Nat.pow_mul]
  · rfl

theorem putWord_keeps (b : Brick) (wr : Option (Nat × Word)) :
    { putWord b wr with cnt := b.cnt, sram := b.sram, sramEcc := b.sramEcc, used := b.used } = b := by
  match wr with
  | none => rfl
  | some (a, v) =>
    have h := memKeeps_sramWrite (mark b (4 + bankOf a)) a (bytesLE 4 v.toNat)
    exact congrArg (fun z : Brick => { z with used := b.used }) h

/-! ### The step (R329) -/

/-- The brick that EQ_TAKE leaves: the entry popped, the word written, the queue moved on. -/
def takeBrick (on : Bool) (b : Brick) (p q t : Nat) (wr : Option (Nat × Word)) (e : EqState) : Brick :=
  setEq (putWord (takePop on b p t) wr) q e

/-- What the taking of f from port p leaves: the word wr in data SRAM, queue q as e says, the port without its head; no other byte, queue
or port changes. -/
def Took (b : Brick) (p q t : Nat) (f : Flit) (rest : List Flit) (wr : Option (Nat × Word)) (e : EqState) (b' : Brick) : Prop :=
  (∀ j, sget 0 b'.sram j = (match wr with
    | some (a, v) => if a ≤ j ∧ j < a + 4 then BitVec.ofNat 8 (v.toNat / 256 ^ (j - a)) else sget 0 b.sram j
    | none => sget 0 b.sram j))
  ∧ (∀ i, getEq b' i = if i = q then e else getEq b i) ∧ (∀ n, portQ b' n = if n = p then rest else portQ b n)
  ∧ b'.eqPtr = (p + 1) % 8 ∧ b'.credFly = b.credFly ++ [⟨t + 1, 160 + p⟩]
  ∧ (∀ n < 8, b'.nf.getLsbD n = if n = p then f.null else b.nf.getLsbD n)
  ∧ { b' with sram := b.sram, sramEcc := b.sramEcc, eq := b.eq, ports := b.ports, credFly := b.credFly, eqPtr := b.eqPtr, cnt := b.cnt,
              used := b.used, nf := b.nf } = b

theorem took_takeBrick (on : Bool) (e : EqState) {wr : Option (Nat × Word)} (hp : p < 8) (hf : portQ b p = f :: rest)
    (hwr : ∀ w, wr = some w → (sramHealth b w.1 4).2 = none) : Took b p q t f rest wr e (takeBrick on b p q t wr e) := by
  obtain ⟨hsram, hecc, heq, hports, hptr, hcred, hnf⟩ := takePop_fields (t := t) on hf
  have hk := putWord_keeps (takePop on b p t) wr
  refine ⟨fun j => ?_, fun i => ?_, fun n => ?_, (congrArg Brick.eqPtr hk).trans hptr, (congrArg Brick.credFly hk).trans hcred,
    fun n hn => ?_, ?_⟩
  · change sget 0 (putWord (takePop on b p t) wr).sram j = _
    match wr with
    | none => rw [putWord, hsram]
    | some (a, v) =>
      have hh : (sramHealth (takePop on b p t) a 4).2 = none := by rw [sramHealth, hecc]; exact hwr (a, v) rfl
      rw [putWord_byte v hh, hsram]
  · have h : (putWord (takePop on b p t) wr).eq = b.eq := (congrArg Brick.eq hk).trans heq
    rw [takeBrick, getEq, setEq, sget_sset, h]
    rfl
  · have h : (takeBrick on b p q t wr e).ports = sset [] b.ports p rest := (congrArg Brick.ports hk).trans hports
    rw [portQ, h, sget_sset]
    rfl
  · have h : (takeBrick on b p q t wr e).nf = _ := (congrArg Brick.nf hk).trans hnf
    rw [h]
    exact nf_setNF b f.null hp hn
  · exact (congrArg (fun z : Brick => { z with
      sram := b.sram, sramEcc := b.sramEcc, eq := b.eq, ports := b.ports, credFly := b.credFly, eqPtr := b.eqPtr, cnt := b.cnt,
      used := b.used, nf := b.nf }) hk).trans (takePop_keeps on hf)

/-- Where the entry's EOM stands as LEN says and its write meets no obstacle, EQ_TAKE pops it, writes its word and moves its queue on. -/
theorem acts_eqTake (hp : takePort b t = some p) (hq : eqOfPort b p = some q) (hf : portQ b p = f :: rest)
    (heom : f.eom = decide ((sfind (getEq b q).opens p).elim 0 EqOpen.taken + 1 = eqLen b q))
    (hwr : ∀ w, takeWrite b q p f = some w → bankBusy s x y b (bankOf w.1) t = false ∧ (sramHealth b w.1 4).2 = none)
    (c : CanAct s x y t k b) : Acts (.eqTake x y t) s k (Took b p q t f rest (takeWrite b q p f) (takeState b q p f)) := by
  have hix : ∀ i, i = (sfind (getEq b q).opens p).elim 0 EqOpen.taken → ¬ (f.eom != (i + 1 == eqLen b q)) = true := by
    rintro i rfl
    rw [heom, bne_iff_ne]
    exact fun h => h rfl
  refine acts_answer c rfl ?_ (took_takeBrick (counting s x y) _ (takePort_lt hp) hf fun w h => (hwr w h).2)
  simp only [hp, hq, hf, List.headD_cons]
  refine (if_neg (hix _ (by cases sfind (getEq b q).opens p <;> rfl))).trans ?_
  unfold takeBrick takeWrite
  cases ha : takeAddr b q p f with
  | none => rfl
  | some a =>
    obtain ⟨hbusy, hh⟩ := hwr _ (by rw [takeWrite, ha]; rfl)
    have hw : sramWrite (mark (takePop (counting s x y) b p t) (4 + bankOf a)) a (bytesLE 4 (takeWord b q a f).toNat) = (_, none) :=
      Prod.ext rfl (sramWrite_marked_word _ (by rw [sramHealth, (takePop_fields _ hf).2.1]; exact hh))
    rw [takePop] at hw
    refine (if_neg (by rw [Option.any_some, hbusy]; decide)).trans ?_
    dsimp only
    rw [hw]
    rfl

/-! ### The write and the queue's next state, by case (R330, R335, R336) -/

theorem eqSlots_of_slots (h : eqKind b q = 0 ∨ eqKind b q = 3) : eqSlots b q = true := by
  rcases h with h | h <;> simp [eqSlots, h]

theorem eqSlots_of_rows (h : eqKind b q = 1 ∨ eqKind b q = 2) : eqSlots b q = false := by
  rcases h with h | h <;> simp [eqSlots, h]

section Slots
variable (hs : eqSlots b q = true)
include hs

/-- A RING or FORWARD header goes into the oldest free slot. -/
theorem takeWrite_reserve {sl : Nat} {r : List Nat} (ho : sfind (getEq b q).opens p = none) (hr : (getEq b q).free = sl :: r) :
    takeWrite b q p f = some (slotAddr b q sl 0, f.data) := by
  simp [takeWrite, takeAddr, takeWord, ho, hs, hr]

theorem takeState_reserve {sl : Nat} {r : List Nat} (ho : sfind (getEq b q).opens p = none) (hr : (getEq b q).free = sl :: r) :
    takeState b q p f = { getEq b q with
      free := r, order := (getEq b q).order ++ [⟨sl, false, [(f.null, f.eom)]⟩]
      opens := sput (getEq b q).opens p { slot := sl, taken := 1, nullPkt := f.null } } := by
  simp [takeState, ho, hs, hr]

/-- A later flit goes into its packet's slot. -/
theorem takeWrite_slot {v : EqOpen} (ho : sfind (getEq b q).opens p = some v) :
    takeWrite b q p f = some (slotAddr b q v.slot v.taken, f.data) := by
  simp [takeWrite, takeAddr, takeWord, ho, hs]

theorem takeState_slot {v : EqOpen} (ho : sfind (getEq b q).opens p = some v) : takeState b q p f = { getEq b q with
      opens := if v.taken + 1 = eqLen b q then sdel (getEq b q).opens p else sput (getEq b q).opens p { v with taken := v.taken + 1 }
      order := markFlit v.slot (f.null, f.eom) (v.taken + 1 = eqLen b q) (getEq b q).order } := by
  simp [takeState, ho, hs]

end Slots

section Rows
variable (hs : eqSlots b q = false)
include hs

/-- An ACCUM or PLACE header is kept as row and half, and writes nothing. -/
theorem takeWrite_header (ho : sfind (getEq b q).opens p = none) : takeWrite b q p f = none := by
  simp [takeWrite, takeAddr, ho, hs]

theorem takeState_header (ho : sfind (getEq b q).opens p = none) : takeState b q p f
    = { getEq b q with opens := sput (getEq b q).opens p { tag := fld f.data 8 12, taken := 1, nullPkt := f.null } } := by
  simp [takeState, ho, hs]

variable {v : EqOpen} (ho : sfind (getEq b q).opens p = some v)
include ho

theorem takeState_payload (hl : v.taken + 1 ≠ eqLen b q) :
    takeState b q p f = { getEq b q with opens := sput (getEq b q).opens p { v with taken := v.taken + 1 } } := by
  simp [takeState, ho, hs, hl]

theorem takeState_null (hl : v.taken + 1 = eqLen b q) (hn : v.nullPkt = true) :
    takeState b q p f = { getEq b q with opens := sdel (getEq b q).opens p } := by
  simp [takeState, ho, hs, hl, hn]

/-- The last word of a packet that is not null counts it; a count that reaches COUNT is cleared and owes a notice. -/
theorem takeState_last (hl : v.taken + 1 = eqLen b q) (hn : v.nullPkt = false) :
    let half := halfOf b q v.tag
    let n := (if half = 0 then (getEq b q).c0 else (getEq b q).c1) + 1
    let c := if n = eqCount b q then 0 else n
    takeState b q p f = { getEq b q with
      opens := sdel (getEq b q).opens p
      waiting := if n = eqCount b q then (getEq b q).waiting ++ [half] else (getEq b q).waiting
      c0 := if half = 0 then c else (getEq b q).c0, c1 := if half = 0 then (getEq b q).c1 else c } := by
  by_cases h : halfOf b q v.tag = 0 <;> simp [takeState, ho, hs, hl, hn, h]

end Rows

/-- The word an ACCUM payload leaves at its target: the sum modulo 2^32, or the FP32 sum rounded once (R96, R97). -/
theorem takeWord_accum (a : Nat) (h : eqKind b q = 1) : takeWord b q a f = if eqInt b q then sramWord b a + f.data
    else BitVec.ofNat 32 (vfSpec .vfadd .fp32 false (sramWord b a).toNat f.data.toNat 0) := by
  rw [takeWord, eqSlots_of_rows (.inl h), if_neg Bool.false_ne_true, if_pos h]
  rfl

theorem takeWord_place (a : Nat) (h : eqKind b q = 2) : takeWord b q a f = flitVal f := by
  simp [takeWord, eqSlots_of_rows (.inr h), h]

/-- A payload word of a null packet writes nothing; else PLACE replaces its target, ACCUM adds to it, a null word nothing. -/
theorem takeWrite_payload {v : EqOpen} (hk : eqKind b q = 1 ∨ eqKind b q = 2) (ho : sfind (getEq b q).opens p = some v) :
    let a := targetAddr b q v.tag v.taken
    takeWrite b q p f = if v.nullPkt then none else if eqKind b q = 2 then some (a, flitVal f) else if f.null then none
      else some (a, if eqInt b q then sramWord b a + f.data
        else BitVec.ofNat 32 (vfSpec .vfadd .fp32 false (sramWord b a).toNat f.data.toNat 0)) := by
  simp only [takeWrite, takeAddr, ho, eqSlots_of_rows hk, Bool.false_eq_true, if_false]
  rcases hk with h | h
  · rw [← takeWord_accum _ h]
    cases v.nullPkt <;> cases f.null <;> simp [h]
  · cases v.nullPkt <;> simp [h, takeWord_place _ h]

/-- Settles O30: each clause is the step `acts_eqTake` with the write and the queue of its case. -/
theorem expertTakes : Obligations.ExpertTakes := by
  intro s x y t k b p q f rest c hp hq hf
  have acts : ∀ {wr e'}, takeWrite b q p f = wr → takeState b q p f = e' →
      f.eom = decide ((sfind (getEq b q).opens p).elim 0 EqOpen.taken + 1 = eqLen b q) →
      (∀ w, wr = some w → bankBusy s x y b (bankOf w.1) t = false ∧ (sramHealth b w.1 4).2 = none) →
      Acts (.eqTake x y t) s k (Took b p q t f rest wr e') := by
    rintro _ _ rfl rfl he hw
    exact acts_eqTake hp hq hf he hw c
  refine ⟨fun sl r hk ho hr he hw => ?_, fun v hk ho he hw => ?_, fun hk ho he hw => ?_, fun v hk ho he => ?_⟩
  · have hs := eqSlots_of_slots hk
    exact acts (takeWrite_reserve hs ho hr) (takeState_reserve hs ho hr) (by rw [ho]; exact he) hw
  · have hs := eqSlots_of_slots hk
    exact acts (takeWrite_slot hs ho) (takeState_slot hs ho) (by rw [ho]; exact he) hw
  · have hs := eqSlots_of_rows hk
    exact acts (takeWrite_header hs ho) (takeState_header hs ho) (by rw [ho]; exact he) hw
  · have hs := eqSlots_of_rows hk
    have hwr := takeWrite_payload (f := f) hk ho
    have he' : f.eom = decide ((sfind (getEq b q).opens p).elim 0 EqOpen.taken + 1 = eqLen b q) := by rw [ho]; exact he
    refine ⟨fun hl hw => ?_, fun hl hn hw => ?_, fun hl hn hw => ?_⟩
    · exact acts hwr (takeState_payload hs ho hl) he' hw
    · exact acts hwr (takeState_null hs ho hl hn) he' hw
    · exact acts hwr (takeState_last hs ho hl hn) he' hw

end Sys2Proof.Machine
end

section
/-! SUPPORT. Instructions that reserve no destination: MARK, and the sends with what their flits do to a slot. -/
namespace Sys2Proof.Machine

/-! ### Issue without a destination -/

/-- An instruction that reserves no register, holds no unit and does not halt, and whose effect F raises no fault: the brick is what F
and the flits it sends make of the brick in which the effect starts (R56, R132). -/
theorem issues_unreserved {op : BOp} {s : State} {x : Fin 1104} {y : Fin 560} {t k : Nat} {b : Brick} {h : QEntry} {rest : List QEntry}
    (c : CanIssue op s x y t k b h rest) {F : Brick → Eff}
    (he : ∀ b1, effOf op b b1 (opCtx s x y b h) h (poppedBy op b h) (predOf b h.word) t = F b1) (hf : ∀ b1, (F b1).fault = none)
    (ha : arrayHold op h.word = 0) (ht : isTrans op = false) (hh : op ≠ .halt) (hd : dstsOf op h.word = []) :
    ∃ u, issueOp op x y t s = some u ∧ IssueFrame s u k
      ∧ getB u k = clearCause (issueSend (counting s x y) op h.word t (F (issueStart op s x y b (queOp op) h rest t).1)) (queOp op) := by
  have e := he (issueStart op s x y b (queOp op) h rest t).1
  rw [← issueStart_entries op s x y b (queOp op) h rest t] at e
  obtain ⟨u, hu, hb, hfr⟩ := issues_of c (by simp only [issueB, e, hf])
  refine ⟨u, hu, hfr, ?_⟩
  simpa only [issueB, e, issueEnd, issueHold, issueFlight, ha, ht, hh, hd, List.isEmpty_nil, if_true, if_false, Bool.false_eq_true] using hb

/-- An instruction that pops nothing leaves the ports and the null flags. -/
theorem issueStart_noPops (op : BOp) (s : State) (x y : Nat) (b : Brick) (q : Que) (h : QEntry) (rest : List QEntry) (t : Nat)
    (hp : popsOf op h.word = []) :
    (issueStart op s x y b q h rest t).1.ports = b.ports ∧ (issueStart op s x y b q h rest t).1.nf = b.nf := by
  unfold issueStart bumpC bump mark queSet
  rw [hp, popAll]
  constructor <;> split <;> split <;> cases q <;> rfl

theorem IssueKeeps.obs {b b' : Brick} (h : IssueKeeps b b') : b'.obs = b.obs := by
  rw [← h]

/-! ### MARK (R129) -/

/-- BRK_MARK as a MARK leaves it: VALUE is IMM, SEQ is one more. -/
def markW (b : Brick) (w : DWord) : Word := packW [(0, 16, iIMM w), (16, 16, fld (obsW b 0x830) 16 16 + 1)]

theorem fld_markW_value (b : Brick) (w : DWord) : fld (markW b w) 0 16 = iIMM w := by
  rw [markW, fld_packW_here _ (by decide) rfl]
  exact Nat.mod_eq_of_lt (fld_lt w 0 16)

theorem fld_markW_seq (b : Brick) (w : DWord) : fld (markW b w) 16 16 = (fld (obsW b 0x830) 16 16 + 1) % 2 ^ 16 := by
  rw [markW, fld_packW_next _ _ (by decide) (by decide), fld_packW_here _ (by decide) rfl]

theorem obsW_setObs (b : Brick) (i o : Nat) (v : Word) : obsW (setObs b i v) o = if o = i then v else obsW b o := sget_sset 0 b.obs i o v

/-- Settles O4: the brick in which a MARK's effect starts has its ports, null flags and registers, and the effect is one write of
`markW`. -/
theorem markWritesAtOnce : Obligations.MarkWritesAtOnce := by
  intro s x y t k b h rest c
  obtain ⟨u, hu, hfr, hb⟩ := issues_unreserved c
    (F := fun b1 => { b := if predOf b h.word then setObs b1 0x830 (markW b1 h.word) else b1 })
    (fun _ => rfl) (fun _ => rfl) rfl rfl (by decide) rfl
  have hkeep := issueStart_keeps .mark s x y b .s h rest t
  obtain ⟨hq, hfl⟩ := issueStart_rest .mark s x y b .s h rest t
  obtain ⟨hports, hnf⟩ := issueStart_noPops .mark s x y b .s h rest t rfl
  simp only [queOp, issueSend, sendsOf] at hb
  generalize (issueStart .mark s x y b .s h rest t).1 = b1 at *
  have hobs : ∀ o, obsW b1 o = obsW b o := fun o => by rw [obsW, hkeep.obs, obsW]
  cases hp : predOf b h.word <;> rw [hp] at hb
  · refine issues_of_answer rfl hu (hb ▸ hq) ?_ hfr
    rw [hb]
    exact ⟨fun n => congrArg (sget [] · n) hports, hnf, hfl, fun o _ => hobs o, fun _ => hobs _, nofun⟩
  · have hset : ∀ o, obsW (getB u k) o = if o = 0x830 then markW b1 h.word else obsW b o := fun o => by
      rw [hb, ← hobs]; exact obsW_setObs b1 0x830 o _
    refine issues_of_answer rfl hu (hb ▸ hq) ⟨?_, ?_, ?_, fun o ho => (hset o).trans (if_neg ho), nofun, fun _ => ?_⟩ hfr
    · rw [hb]; exact fun n => congrArg (sget [] · n) hports
    · rw [hb]; exact hnf
    · rw [hb]; exact hfl
    · rw [hset, if_pos rfl, ← hobs]
      exact ⟨fld_markW_value b1 h.word, fld_markW_seq b1 h.word⟩

/-! ### Flits into a slot (R132, R161) -/

/-- The flits of a sender committed in tcyc t, each with its payload, null and EOM markers: the i-th enters in t + 1 + i. -/
def sentFlits (t : Nat) : Nat → List (Word × Bool × Bool) → List Flit
  | _, [] => []
  | i, (v, n, m) :: r => ⟨v, n, m, t + 1 + i⟩ :: sentFlits t (i + 1) r

/-- The brick differs from b in nothing but counts, slot buffers and the credits of its sends. -/
def SendKeeps (b b' : Brick) : Prop := { b' with cnt := b.cnt, fifos := b.fifos, sndCred := b.sndCred } = b

theorem SendKeeps.trans {a b c : Brick} (h : SendKeeps a b) (g : SendKeeps b c) : SendKeeps a c := by
  unfold SendKeeps at *; rw [← h, ← g]
theorem SendKeeps.flights {b b' : Brick} (h : SendKeeps b b') : b'.flights = b.flights := by
  rw [← h]
theorem SendKeeps.queGet {b b' : Brick} (h : SendKeeps b b') (q : Que) : queGet b' q = queGet b q := by
  cases q <;> rw [← h] <;> rfl
theorem SendKeeps.issueKeeps {b b' : Brick} (h : SendKeeps b b') : IssueKeeps b { b' with fifos := b.fifos, sndCred := b.sndCred } := by
  rw [← h]; exact rfl

section Flits
variable (on : Bool) (b : Brick) (sl t i : Nat)

/-- One flit into its slot. -/
theorem sendFlits_cons (v : Word) (n m : Bool) (r : List (Word × Bool × Bool)) :
    ∃ b1, sendFlits on b sl t i ((v, n, m) :: r) = sendFlits on b1 sl t (i + 1) r ∧ SendKeeps b b1
      ∧ b1.fifos = smod [] b.fifos (128 + sl) (· ++ [⟨v, n, m, t + 1 + i⟩]) ∧ b1.sndCred = smod 0 b.sndCred sl (· - 1) := by
  refine ⟨_, rfl, ?_⟩
  unfold bumpC; split <;> exact ⟨rfl, rfl, rfl⟩

theorem sendFlits_keeps (l : List (Word × Bool × Bool)) : SendKeeps b (sendFlits on b sl t i l) := by
  induction l generalizing b i with
  | nil => exact rfl
  | cons f r ih =>
    obtain ⟨b1, he, hk, -, -⟩ := sendFlits_cons on b sl t i f.1 f.2.1 f.2.2 r
    exact he ▸ hk.trans (ih b1 (i + 1))

/-- The flits follow what is in the slot's buffer, in order; no other buffer changes. -/
theorem sendFlits_fifos (l : List (Word × Bool × Bool)) (j : Nat) : sget [] (sendFlits on b sl t i l).fifos j
    = if j = 128 + sl then sget [] b.fifos j ++ sentFlits t i l else sget [] b.fifos j := by
  induction l generalizing b i with
  | nil => simp [sendFlits, sentFlits]
  | cons f r ih =>
    obtain ⟨b1, he, -, hf, -⟩ := sendFlits_cons on b sl t i f.1 f.2.1 f.2.2 r
    rw [he, ih, hf, sget_smod]
    split
    · next hj => subst hj; simp [sentFlits]
    · rfl

/-- One credit of the slot is spent for each flit, and no other. -/
theorem sendFlits_sndCred (l : List (Word × Bool × Bool)) (j : Nat) : sget 0 (sendFlits on b sl t i l).sndCred j
    = if j = sl then sget 0 b.sndCred j - l.length else sget 0 b.sndCred j := by
  induction l generalizing b i with
  | nil => simp [sendFlits]
  | cons f r ih =>
    obtain ⟨b1, he, -, -, hc⟩ := sendFlits_cons on b sl t i f.1 f.2.1 f.2.2 r
    rw [he, ih, hc, sget_smod]
    split
    · next hj => subst hj; rw [List.length_cons, Nat.sub_sub, Nat.add_comm]
    · rfl

end Flits

/-! ### Issue of a send -/

theorem IssueKeeps.fifos {b b' : Brick} (h : IssueKeeps b b') : b'.fifos = b.fifos := by
  rw [← h]
theorem IssueKeeps.sndCred {b b' : Brick} (h : IssueKeeps b b') : b'.sndCred = b.sndCred := by
  rw [← h]

/-- An instruction whose whole effect is to send the flits l on slot sl: they enter its buffer one tcyc after the other, each spends
a credit, and nothing else changes (R132, R161). -/
theorem issues_send {op : BOp} {s : State} {x : Fin 1104} {y : Fin 560} {t k : Nat} {b : Brick} {h : QEntry} {rest : List QEntry}
    (c : CanIssue op s x y t k b h rest) {sl n : Nat} {l : List (Word × Bool × Bool)} {ins : Instr}
    (hx : exec ins s = answer s (issueOp op x y t s))
    (he : ∀ b1, effOf op b b1 (opCtx s x y b h) h (poppedBy op b h) (predOf b h.word) t = { b := b1, sends := l })
    (hs : sendsOf op h.word = some (sl, n))
    (ha : arrayHold op h.word = 0) (ht : isTrans op = false) (hh : op ≠ .halt) (hd : dstsOf op h.word = []) :
    Issues ins s k (queOp op) rest (fun b' =>
      IssueKeeps b { b' with fifos := b.fifos, sndCred := b.sndCred } ∧ b'.flights = b.flights
        ∧ (∀ i, sget [] b'.fifos i = if i = 128 + sl then sget [] b.fifos i ++ sentFlits t 0 l else sget [] b.fifos i)
        ∧ (∀ i, sget 0 b'.sndCred i = if i = sl then sget 0 b.sndCred i - l.length else sget 0 b.sndCred i)) := by
  obtain ⟨u, hu, hfr, hb⟩ := issues_unreserved c he (fun _ => rfl) ha ht hh hd
  have k1 := issueStart_keeps op s x y b (queOp op) h rest t
  obtain ⟨hq, hfl⟩ := issueStart_rest op s x y b (queOp op) h rest t
  simp only [issueSend, hs] at hb
  generalize (issueStart op s x y b (queOp op) h rest t).1 = b1 at *
  have k2 := sendFlits_keeps (counting s x y) b1 sl t 0 l
  have hf := sendFlits_fifos (counting s x y) b1 sl t 0 l
  have hc := sendFlits_sndCred (counting s x y) b1 sl t 0 l
  generalize sendFlits (counting s x y) b1 sl t 0 l = b2 at *
  rw [k1.fifos] at hf
  rw [k1.sndCred] at hc
  refine issues_of_answer hx hu ?_ ?_ hfr <;> rw [hb]
  · rw [clearCause_queGet, k2.queGet, hq]
  · refine ⟨?_, by rw [clearCause_flights, k2.flights, hfl], ?_⟩
    · have ke := k1.trans k2.issueKeeps
      rw [k1.fifos, k1.sndCred] at ke
      refine ke.trans ?_
      cases queOp op <;> exact rfl
    · cases queOp op <;> exact ⟨hf, hc⟩

/-- VSEND sends one lane, or that and the next by IMM[5]; with a false predicate its flits are null with payload 0 (R161). -/
theorem effOf_vsend (b b1 : Brick) (o : OpCtx) (e : QEntry) (fs : List Flit) (pred : Bool) (t : Nat) :
    let flit := fun lane eom => ((if !pred then 0 else laneOf (vReg b (iA e.word)) lane : Word), !pred, eom)
    let l := fld e.word 6 3
    effOf .vsend b b1 o e fs pred t = { b := b1
                                        sends := if bitAt e.word 5 then [flit l false, flit (l + 1) (bitAt e.word 15)]
                                          else [flit l (bitAt e.word 15)] } := by
  cases pred <;> rfl

/-- Settles O12: each form is `issues_send` with its flits; KEEPNULL is no field of VSEND, so its predicate alone makes them null, and
IMM[5] says whether there are two. -/
theorem sendIssue : Obligations.SendIssue := by
  intro op hop s x y t k b h rest c
  simp only [List.mem_cons, List.not_mem_nil, or_false] at hop
  rcases hop with rfl | rfl | rfl
  case inl => exact issues_send c rfl (fun _ => rfl) rfl rfl rfl (by decide) rfl
  case inr.inl => exact issues_send c rfl (fun _ => rfl) rfl rfl rfl (by decide) rfl
  case inr.inr =>
    have hnull : ∀ f : Flit, (!predOf b h.word || (BOp.vsend != .vsend && bitAt h.word 29 && f.null)) = !predOf b h.word :=
      fun _ => Bool.or_false _
    have he := fun b1 => effOf_vsend b b1 (opCtx s x y b h) h (poppedBy .vsend b h) (predOf b h.word) t
    simp only [hnull]
    cases h5 : bitAt h.word 5 <;> simp only [h5, Bool.false_eq_true, if_true, if_false] at he
    · exact issues_send c rfl he rfl rfl rfl (by decide) rfl
    · exact issues_send c rfl he rfl rfl rfl (by decide) rfl

end Sys2Proof.Machine
end
